-- ==== Sys2Proof/Word.lean ====
section
/-! DEFINITION. The word types, and the sparse table that holds every array of the device. -/

namespace Sys2Proof

/-- One byte. -/
abbrev Byte := BitVec 8

/-- One 64-bit word: a control-space register (R3), a Limoon register (R172). -/
abbrev Word := BitVec 64

/-- A sparse array: pairs of an index and a value, indexes strictly rising, with no pair that holds what an
unlisted index reads as. The operations are in Machine/Tab.lean, and the form is Tab.wf there. -/
abbrev Tab (α : Type) := List (Nat × α)

end Sys2Proof
end

