-- ==== Sys2Proof/Config.lean ====
section
/-! DEFINITION. What the spec leaves to an implementation, to a part or to the world: constants without a body, so
that no proof can see their values. -/

namespace Sys2Proof

/-- The die number (Table 1.11): unique to each die, opaque. -/
opaque Config.dieNumber : Nat

/-- The 10 MHz cycles that REF10M_IN shows in the epoch that ends (R47), for each epoch. -/
opaque Config.ref10mCount : Nat → Nat

/-- The rank, 0 to 3, that a DDR address lies in: R414 takes it from the address bits above the channel and does not
say from which. -/
opaque Config.ddrRank : Nat → Nat

/-- The free values of the model, one after another. -/
opaque Config.freeValue : Nat → Nat

/-- The 11-bit JEDEC manufacturer identity of IDCODE, published in the BSDL file (R477). -/
opaque Config.jedecId : BitVec 11

/-- The 128-bit signature expected of a BIST target, fused at manufacture (R470). -/
opaque Config.bistExpect : Nat → BitVec 128

/-- The average power of an epoch and a group, in 1/8 W, as the current sensors estimate it (R474). -/
opaque Config.powerEighths : Nat → Nat → Nat

/-! Cryptography (R432, R435, R438, R356): functions of their inputs that the spec names and does not restate. -/

/-- SHA-384 of bytes. -/
opaque Config.sha384 : List Byte → List Byte

/-- The fused hash of a signing key set (R438). -/
opaque Config.fusedHash : Nat → List Byte

/-- Whether an ECDSA P-384 signature verifies over a digest: public key, digest, signature. -/
opaque Config.ecdsaOk : List Byte → List Byte → List Byte → Bool

/-- Whether an ML-DSA-87 signature verifies over a digest: public key, digest, signature. -/
opaque Config.mldsaOk : List Byte → List Byte → List Byte → Bool

/-- What a mode of Table 14.1 makes of data (encryption or decryption): mode, decrypt, key, nonce or tweak, data unit
length, data. -/
opaque Config.cipherData : Nat → Bool → List Byte → List Byte → Nat → List Byte → List Byte

/-- The tag or digest of a mode of Table 14.1: mode, key, nonce, AAD, and the data it covers (ciphertext for GCM). -/
opaque Config.cipherTag : Nat → List Byte → List Byte → List Byte → List Byte → List Byte

/-- AES key wrap (NIST SP 800-38F, KW): wrapping key, plaintext. -/
opaque Config.keyWrap : List Byte → List Byte → List Byte

/-- The wrapping key that Headland derives, afresh each time (R375): how many were derived before. -/
opaque Config.wrappingKey : Nat → List Byte

/-- The flow hash that an RX completion's AUX holds (Table 3.9), of a frame: the spec names it and gives no function. -/
opaque Config.flowHash : List Byte → Nat

end Sys2Proof
end

