-- ==== Sys2Proof/Machine/Tab.lean ====
section
/-! DEFINITION. The operations over sparse arrays, which hold registers, memory and every table of the device, and the sorting of lists. -/

namespace Sys2Proof.Machine

variable {α : Type}

/-- The value at index k; an unlisted index reads as d. -/
def Tab.get (d : α) (t : Tab α) (k : Nat) : α :=
  match t with
  | [] => d
  | (j, v) :: r => if j == k then v else Tab.get d r k

/-- Put (k, v) before the first larger index. -/
def Tab.insert (t : Tab α) (k : Nat) (v : α) : Tab α :=
  match t with
  | [] => [(k, v)]
  | (j, u) :: r => if k < j then (k, v) :: (j, u) :: r else (j, u) :: Tab.insert r k v

/-- Take index k out. -/
def Tab.erase (t : Tab α) (k : Nat) : Tab α := t.filter (fun p => !(p.1 == k))

/-- Write v at index k; writing what an unlisted index reads as leaves no pair. -/
def Tab.set [DecidableEq α] (d : α) (t : Tab α) (k : Nat) (v : α) : Tab α :=
  if v = d then Tab.erase t k else Tab.insert (Tab.erase t k) k v

/-- Change the value at index k by f. -/
def Tab.upd [DecidableEq α] (d : α) (t : Tab α) (k : Nat) (f : α → α) : Tab α :=
  Tab.set d t k (f (Tab.get d t k))

/-- Change every listed value by f; f d must be d for the unlisted ones. -/
def Tab.mapAll [DecidableEq α] (d : α) (t : Tab α) (f : Nat → α → α) : Tab α :=
  (t.map (fun p => (p.1, f p.1 p.2))).filter (fun p => !(p.2 = d : Bool))

/-- The canonical form: indexes strictly rising, no default value listed. -/
def Tab.wf [DecidableEq α] (d : α) : Tab α → Bool
  | [] => true
  | [(_, v)] => !(v = d : Bool)
  | (j, v) :: (k, u) :: r => !(v = d : Bool) && decide (j < k) && Tab.wf d ((k, u) :: r)

/-- The listed indexes, rising. -/
def Tab.keys (t : Tab α) : List Nat := t.map (·.1)

/-- Put x behind every element that may stand before it. -/
def insertIn (le : α → α → Bool) (x : α) : List α → List α
  | [] => [x]
  | y :: r => if le y x then y :: insertIn le x r else x :: y :: r

/-- A list in an order; those that the order does not tell apart keep their order. -/
def sortIn (le : α → α → Bool) (l : List α) : List α := l.foldl (fun t x => insertIn le x t) []

end Sys2Proof.Machine
end

