-- ==== Sys2Proof/Machine/Regs.lean ====
section
/-! DEFINITION. The fields of the control-space registers and of the tenant pages, taken from the register tables of
spec/ (columns of Table 0.1, access codes of Table 0.2, classes of Table 0.3).
Each constant names one field: its address, its bits, its reset value, its access code and its takes-effect class.
A register with an index has the index as an argument, and a register behind a select register has the
selected number as its last argument k. -/

namespace Sys2Proof.Machine

/-- The access codes of Table 0.2 (R8). -/
inductive Access where | ro | rw | wo | rw1c | rw1s | rc | rwp
deriving DecidableEq, Repr

/-- The takes-effect classes of Table 0.3 (R10); hw for a field software cannot write. -/
inductive Class where | tick | slot | epoch | reset | hw
deriving DecidableEq, Repr

/-- One register field: control address (with the bank added), bits [hi:lo], reset value, access code, class. -/
structure Fld where
  addr : Nat
  hi : Nat
  lo : Nat
  rst : Nat
  acc : Access
  cls : Class
deriving DecidableEq, Repr

/-- The registers behind a select register lie apart by this much for each selected number. -/
def bankStep : Nat := 0x1000000000000

/-- The key of a field in the register stores. -/
def Fld.key (f : Fld) : Nat := f.addr * 64 + f.lo
/-- The width of a field. -/
def Fld.width (f : Fld) : Nat := f.hi + 1 - f.lo
/-- The same field of a register that lies n higher. -/
def Fld.shift (f : Fld) (n : Nat) : Fld := { f with addr := f.addr + n }

/-- The select registers that choose which entry a data register reaches. -/
inductive Bank where
  | none | ct | budget | calTenant | calLeaf | calQueue | gatePort | policer | qsample | txTid | reefTid
  | conn | window | swhTid | stgTid | ns | backend | cryTid | keySlot | hstTid | region | strand | qmon | tenQ
deriving DecidableEq, Repr

/-- A register or array of registers: first address, two dimensions (count and stride), bank and fields. -/
structure RegSpec where
  base : Nat
  n1 : Nat
  s1 : Nat
  n2 : Nat
  s2 : Nat
  bank : Bank
  flds : List Fld
deriving DecidableEq, Repr

namespace Reg

/-! DEV_IDENT (Table 1.5) -/
def DEV_IDENT_VENDOR : Fld := ⟨0, 63, 48, 0xec4a, .ro, .hw⟩
def DEV_IDENT_PART_CODE : Fld := ⟨0, 47, 32, 0xa932, .ro, .hw⟩
def DEV_IDENT_STEP_LETTER : Fld := ⟨0, 31, 28, 2, .ro, .hw⟩
def DEV_IDENT_STEP_NUMBER : Fld := ⟨0, 27, 24, 1, .ro, .hw⟩
/-! DEV_FAMILY0 (Table 1.6) -/
def DEV_FAMILY0_SHOALS : Fld := ⟨8, 63, 56, 0x10, .ro, .hw⟩
def DEV_FAMILY0_CORES_PER_SHOAL : Fld := ⟨8, 55, 52, 8, .ro, .hw⟩
def DEV_FAMILY0_THREADS_PER_CORE : Fld := ⟨8, 51, 48, 8, .ro, .hw⟩
def DEV_FAMILY0_LANES : Fld := ⟨8, 47, 40, 0x10, .ro, .hw⟩
def DEV_FAMILY0_PORTS_MAX : Fld := ⟨8, 39, 32, 0x10, .ro, .hw⟩
def DEV_FAMILY0_HOST_LINKS : Fld := ⟨8, 31, 28, 2, .ro, .hw⟩
def DEV_FAMILY0_FUNCS_PER_LINK : Fld := ⟨8, 27, 16, 0x100, .ro, .hw⟩
def DEV_FAMILY0_HBM_STACKS : Fld := ⟨8, 15, 12, 2, .ro, .hw⟩
def DEV_FAMILY0_DDR_CHANNELS : Fld := ⟨8, 11, 8, 8, .ro, .hw⟩
def DEV_FAMILY0_ROOT_PORTS : Fld := ⟨8, 7, 4, 8, .ro, .hw⟩
/-! DEV_FAMILY1 (Table 1.7) -/
def DEV_FAMILY1_FLOW_LOG2 : Fld := ⟨0x10, 63, 56, 0x18, .ro, .hw⟩
def DEV_FAMILY1_PREFIX_LOG2 : Fld := ⟨0x10, 55, 48, 0x12, .ro, .hw⟩
def DEV_FAMILY1_CONN_LOG2 : Fld := ⟨0x10, 47, 40, 0x14, .ro, .hw⟩
def DEV_FAMILY1_WINDOW_LOG2 : Fld := ⟨0x10, 39, 32, 0x16, .ro, .hw⟩
def DEV_FAMILY1_DEADLINE_LOG2 : Fld := ⟨0x10, 31, 24, 0x10, .ro, .hw⟩
def DEV_FAMILY1_KEY_SLOT_LOG2 : Fld := ⟨0x10, 23, 16, 0xe, .ro, .hw⟩
def DEV_FAMILY1_WRAPPED_KEY_LOG2 : Fld := ⟨0x10, 15, 8, 0x15, .ro, .hw⟩
def DEV_FAMILY1_CHANNEL_LOG2 : Fld := ⟨0x10, 7, 0, 0xd, .ro, .hw⟩
/-! DEV_FAMILY2 (Table 1.8) -/
def DEV_FAMILY2_SRAM_KIB_PER_SHOAL : Fld := ⟨0x18, 63, 48, 0x1000, .ro, .hw⟩
def DEV_FAMILY2_PKTBUF_MIB : Fld := ⟨0x18, 47, 36, 0x80, .ro, .hw⟩
def DEV_FAMILY2_TCACHE_MIB : Fld := ⟨0x18, 35, 24, 0x20, .ro, .hw⟩
def DEV_FAMILY2_HBM_STACK_GIB : Fld := ⟨0x18, 23, 16, 0x18, .ro, .hw⟩
def DEV_FAMILY2_CIPHER_PER_SHOAL : Fld := ⟨0x18, 15, 12, 2, .ro, .hw⟩
def DEV_FAMILY2_STRAND_LOG2 : Fld := ⟨0x18, 11, 8, 0xc, .ro, .hw⟩
def DEV_FAMILY2_LANE_GBPS : Fld := ⟨0x18, 7, 0, 0xc8, .ro, .hw⟩
/-! DEV_TIMING (Table 1.9) -/
def DEV_TIMING_CORE_MHZ : Fld := ⟨0x20, 63, 48, 0x7d0, .ro, .hw⟩
def DEV_TIMING_TICK_CLOCKS : Fld := ⟨0x20, 47, 40, 0x10, .ro, .hw⟩
def DEV_TIMING_SLOT_TICKS : Fld := ⟨0x20, 39, 32, 0x20, .ro, .hw⟩
def DEV_TIMING_EPOCH_SLOTS : Fld := ⟨0x20, 31, 0, 0x4000, .ro, .hw⟩
/-! DEV_CAPS (Table 1.10) -/
def DEV_CAPS_TDISP : Fld := ⟨0x28, 5, 5, 1, .ro, .hw⟩
def DEV_CAPS_IDE : Fld := ⟨0x28, 4, 4, 1, .ro, .hw⟩
def DEV_CAPS_NVME : Fld := ⟨0x28, 3, 3, 1, .ro, .hw⟩
def DEV_CAPS_SWASH : Fld := ⟨0x28, 2, 2, 1, .ro, .hw⟩
def DEV_CAPS_INLINE_CIPHER : Fld := ⟨0x28, 1, 1, 1, .ro, .hw⟩
def DEV_CAPS_LOOKASIDE_CIPHER : Fld := ⟨0x28, 0, 0, 1, .ro, .hw⟩
/-! DEV_DIE (Table 1.11) -/
def DEV_DIE_DIE_NUMBER : Fld := ⟨0x30, 63, 0, 0, .ro, .hw⟩
/-! DEV_STATUS (Table 1.12) -/
def DEV_STATUS_SHOAL_RUN : Fld := ⟨0x38, 31, 16, 0, .ro, .hw⟩
def DEV_STATUS_TEST_MODE : Fld := ⟨0x38, 3, 3, 0, .ro, .hw⟩
def DEV_STATUS_BREAKWATER_LOST : Fld := ⟨0x38, 2, 2, 0, .ro, .hw⟩
def DEV_STATUS_BREAKWATER_RELEASED : Fld := ⟨0x38, 1, 1, 0, .ro, .hw⟩
def DEV_STATUS_KEY_LOCKED : Fld := ⟨0x38, 0, 0, 0, .ro, .hw⟩
/-! TIDE_TIME (Table 2.9) -/
def TIDE_TIME_TIME : Fld := ⟨0x10000, 63, 0, 0, .ro, .hw⟩
/-! TIDE_SLOT_SEQ (Table 2.10) -/
def TIDE_SLOT_SEQ_SLOT_SEQ : Fld := ⟨0x10008, 63, 0, 0, .ro, .hw⟩
/-! TIDE_STATUS (Table 2.11) -/
def TIDE_STATUS_ADMIT_HOLD : Fld := ⟨0x10010, 9, 9, 0, .ro, .hw⟩
def TIDE_STATUS_STEP_PENDING : Fld := ⟨0x10010, 8, 8, 0, .ro, .hw⟩
def TIDE_STATUS_PPS_IN_PRESENT : Fld := ⟨0x10010, 7, 7, 0, .ro, .hw⟩
def TIDE_STATUS_REF10M_PRESENT : Fld := ⟨0x10010, 6, 6, 0, .ro, .hw⟩
def TIDE_STATUS_REF10M_LOST : Fld := ⟨0x10010, 5, 5, 0, .rw1c, .tick⟩
def TIDE_STATUS_SOURCE_LOST : Fld := ⟨0x10010, 4, 4, 0, .rw1c, .tick⟩
def TIDE_STATUS_STEP_REFUSED : Fld := ⟨0x10010, 3, 3, 0, .rw1c, .tick⟩
def TIDE_STATUS_STATE : Fld := ⟨0x10010, 1, 0, 0, .ro, .hw⟩
/-! TIDE_CONTROL (Table 2.12) -/
def TIDE_CONTROL_KP_SHIFT : Fld := ⟨0x10018, 47, 44, 4, .rw, .epoch⟩
def TIDE_CONTROL_KI_SHIFT : Fld := ⟨0x10018, 43, 40, 8, .rw, .epoch⟩
def TIDE_CONTROL_PTP_DOMAIN : Fld := ⟨0x10018, 39, 32, 0, .rw, .epoch⟩
def TIDE_CONTROL_PTP_PORT : Fld := ⟨0x10018, 31, 28, 0, .rw, .epoch⟩
def TIDE_CONTROL_PTP_ROLE : Fld := ⟨0x10018, 27, 26, 0, .rw, .epoch⟩
def TIDE_CONTROL_DELAY_P2P : Fld := ⟨0x10018, 25, 25, 0, .rw, .epoch⟩
def TIDE_CONTROL_PROFILE_AS : Fld := ⟨0x10018, 24, 24, 0, .rw, .epoch⟩
def TIDE_CONTROL_TRANSPORT : Fld := ⟨0x10018, 23, 22, 0, .rw, .epoch⟩
def TIDE_CONTROL_FREQ_REF : Fld := ⟨0x10018, 4, 4, 0, .rw, .epoch⟩
def TIDE_CONTROL_SOURCE : Fld := ⟨0x10018, 3, 0, 0, .rw, .epoch⟩
/-! TIDE_LIMITS (Table 2.13) -/
def TIDE_LIMITS_SOURCE_TIMEOUT : Fld := ⟨0x10020, 63, 48, 0xbb8, .rw, .epoch⟩
def TIDE_LIMITS_LOCK_COUNT : Fld := ⟨0x10020, 47, 40, 0x10, .rw, .epoch⟩
def TIDE_LIMITS_LOCK_THRESH : Fld := ⟨0x10020, 31, 16, 0x64, .rw, .epoch⟩
def TIDE_LIMITS_STEP_LIMIT : Fld := ⟨0x10020, 15, 0, 0x3e8, .rw, .epoch⟩
/-! TIDE_MEAS (Table 2.14) -/
def TIDE_MEAS_OFFSET : Fld := ⟨0x10028, 63, 0, 0, .wo, .tick⟩
/-! TIDE_OFFSET (Table 2.15) -/
def TIDE_OFFSET_LAST_OFFSET : Fld := ⟨0x10030, 63, 0, 0, .ro, .hw⟩
/-! TIDE_RATE (Table 2.16) -/
def TIDE_RATE_INTEG : Fld := ⟨0x10038, 63, 32, 0, .ro, .hw⟩
def TIDE_RATE_RATE : Fld := ⟨0x10038, 31, 0, 0, .ro, .hw⟩
/-! TIDE_FORCE_STEP (Table 2.17) -/
def TIDE_FORCE_STEP_GO : Fld := ⟨0x10040, 63, 63, 0, .wo, .epoch⟩
def TIDE_FORCE_STEP_USE_SOURCE : Fld := ⟨0x10040, 62, 62, 0, .wo, .epoch⟩
def TIDE_FORCE_STEP_AMOUNT : Fld := ⟨0x10040, 61, 0, 0, .wo, .epoch⟩
/-! TIDE_COUNTS (Table 2.18) -/
def TIDE_COUNTS_PPS_IGNORED : Fld := ⟨0x10048, 63, 32, 0, .rc, .hw⟩
def TIDE_COUNTS_STEP_REFUSED : Fld := ⟨0x10048, 31, 0, 0, .rc, .hw⟩
/-! TIDE_PPS_OUT (Table 2.19) -/
def TIDE_PPS_OUT_ENABLE : Fld := ⟨0x10050, 63, 63, 0, .rw, .slot⟩
def TIDE_PPS_OUT_SQUELCH_HOLDOVER : Fld := ⟨0x10050, 62, 62, 0, .rw, .slot⟩
def TIDE_PPS_OUT_WIDTH_MS : Fld := ⟨0x10050, 41, 32, 0x64, .rw, .slot⟩
def TIDE_PPS_OUT_OFFSET : Fld := ⟨0x10050, 31, 0, 0, .rw, .slot⟩
/-! TIDE_PPS_IN_TS (Table 2.20) -/
def TIDE_PPS_IN_TS_EDGE_TIME : Fld := ⟨0x10058, 63, 0, 0, .ro, .hw⟩
/-! TIDE_TIME_INIT (Table 2.21) -/
def TIDE_TIME_INIT_INIT : Fld := ⟨0x10060, 63, 0, 0, .rw, .tick⟩
/-! BWK_ENV (Table 3.10) -/
def BWK_ENV_SPRING_OFFERED : Fld := ⟨0x20000, 31, 31, 1, .ro, .hw⟩
def BWK_ENV_HOST_READ_BOUND : Fld := ⟨0x20000, 15, 0, 0x5dc, .rw, .epoch⟩
/-! BWK_CT_SELECT (Table 3.11) -/
def BWK_CT_SELECT_TID : Fld := ⟨0x20008, 13, 5, 0, .rw, .tick⟩
def BWK_CT_SELECT_KIND : Fld := ⟨0x20008, 4, 2, 0, .rw, .tick⟩
def BWK_CT_SELECT_CLASS : Fld := ⟨0x20008, 1, 0, 0, .rw, .tick⟩
/-! BWK_CT_DATA (Table 3.12) -/
def BWK_CT_DATA_ENABLE (k : Nat) : Fld := ⟨0x20010 + bankStep * k, 63, 63, 0, .rw, .epoch⟩
def BWK_CT_DATA_WRITE_REFUSED (k : Nat) : Fld := ⟨0x20010 + bankStep * k, 62, 62, 0, .rw1c, .tick⟩
def BWK_CT_DATA_BOUND (k : Nat) : Fld := ⟨0x20010 + bankStep * k, 22, 0, 0, .rw, .epoch⟩
/-! BWK_BUDGET_SELECT (Table 3.13) -/
def BWK_BUDGET_SELECT_TID : Fld := ⟨0x20018, 10, 2, 0, .rw, .tick⟩
def BWK_BUDGET_SELECT_CLASS : Fld := ⟨0x20018, 1, 0, 0, .rw, .tick⟩
/-! BWK_BUDGET_DATA (Table 3.14) -/
def BWK_BUDGET_DATA_DEPTH (k : Nat) : Fld := ⟨0x20020 + bankStep * k, 63, 32, 0, .rw, .epoch⟩
def BWK_BUDGET_DATA_RATE (k : Nat) : Fld := ⟨0x20020 + bankStep * k, 31, 8, 0, .rw, .epoch⟩
/-! BWK_BUDGET_TOKENS (Table 3.15) -/
def BWK_BUDGET_TOKENS_TOKENS : Fld := ⟨0x20028, 31, 0, 0, .ro, .hw⟩
/-! BWK_GOV_POLICY (Table 3.16) -/
def BWK_GOV_POLICY_F_MAX : Fld := ⟨0x20030, 63, 56, 0xe6, .rw, .epoch⟩
def BWK_GOV_POLICY_F_MIN : Fld := ⟨0x20030, 55, 48, 0x40, .rw, .epoch⟩
def BWK_GOV_POLICY_H_MAX : Fld := ⟨0x20030, 47, 40, 0x10, .rw, .epoch⟩
def BWK_GOV_POLICY_H_MIN : Fld := ⟨0x20030, 39, 32, 1, .rw, .epoch⟩
def BWK_GOV_POLICY_MARGIN_TARGET : Fld := ⟨0x20030, 31, 16, 0x1f4, .rw, .epoch⟩
def BWK_GOV_POLICY_T_LIMIT : Fld := ⟨0x20030, 15, 8, 0x69, .rw, .epoch⟩
def BWK_GOV_POLICY_T_START : Fld := ⟨0x20030, 7, 0, 0x5a, .rw, .epoch⟩
/-! BWK_GOV_APPLY (Table 3.17) -/
def BWK_GOV_APPLY_F : Fld := ⟨0x20038, 63, 56, 0xe6, .rw, .epoch⟩
def BWK_GOV_APPLY_H_SPRING : Fld := ⟨0x20038, 47, 40, 1, .rw, .epoch⟩
def BWK_GOV_APPLY_H_FLOOD : Fld := ⟨0x20038, 39, 32, 1, .rw, .epoch⟩
def BWK_GOV_APPLY_H_NEAP : Fld := ⟨0x20038, 31, 24, 1, .rw, .epoch⟩
/-! BWK_GOV_STATUS (Table 3.18) -/
def BWK_GOV_STATUS_F_EFF : Fld := ⟨0x20040, 63, 56, 0xe6, .ro, .hw⟩
def BWK_GOV_STATUS_F_HW : Fld := ⟨0x20040, 55, 48, 0xe6, .ro, .hw⟩
def BWK_GOV_STATUS_H_SPRING_EFF : Fld := ⟨0x20040, 47, 40, 1, .ro, .hw⟩
def BWK_GOV_STATUS_H_FLOOD_EFF : Fld := ⟨0x20040, 39, 32, 1, .ro, .hw⟩
def BWK_GOV_STATUS_H_NEAP_EFF : Fld := ⟨0x20040, 31, 24, 1, .ro, .hw⟩
def BWK_GOV_STATUS_T_MAX : Fld := ⟨0x20040, 23, 16, 0, .ro, .hw⟩
def BWK_GOV_STATUS_GOV_STALE : Fld := ⟨0x20040, 2, 2, 0, .ro, .hw⟩
def BWK_GOV_STATUS_CLAMPED : Fld := ⟨0x20040, 1, 1, 0, .rw1c, .tick⟩
/-! BWK_ADMIT_PARAMS (Table 3.19) -/
def BWK_ADMIT_PARAMS_DECIDE_PER_TICK : Fld := ⟨0x20048, 63, 48, 0x20, .ro, .hw⟩
def BWK_ADMIT_PARAMS_WAIT_MAX : Fld := ⟨0x20048, 47, 40, 8, .ro, .hw⟩
def BWK_ADMIT_PARAMS_HORIZON_SLOTS : Fld := ⟨0x20048, 31, 0, 0x4000, .ro, .hw⟩
/-! BWK_DEADLINES (Table 3.19) -/
def BWK_DEADLINES_HIGH_WATER (u : Nat) : Fld := ⟨0x20050 + 0x10000 * u, 63, 32, 0, .rc, .hw⟩
def BWK_DEADLINES_IN_FLIGHT (u : Nat) : Fld := ⟨0x20050 + 0x10000 * u, 31, 0, 0, .ro, .hw⟩
/-! BWK_COUNT (Table 3.19) -/
def BWK_COUNT_COUNT (c n : Nat) : Fld := ⟨0x20080 + 0x40 * c + 8 * n, 63, 0, 0, .ro, .hw⟩
/-! CAL_INSPECT (Table 4.7) -/
def CAL_INSPECT_SLOT_AHEAD : Fld := ⟨0x40000, 31, 18, 0, .rw, .tick⟩
def CAL_INSPECT_DIR : Fld := ⟨0x40000, 17, 17, 0, .rw, .tick⟩
def CAL_INSPECT_RES : Fld := ⟨0x40000, 15, 8, 1, .rw, .tick⟩
def CAL_INSPECT_INSTANCE : Fld := ⟨0x40000, 7, 0, 0, .rw, .tick⟩
/-! CAL_BOOKED (Table 4.7) -/
def CAL_BOOKED_GATE_STANDING : Fld := ⟨0x40008, 63, 48, 0, .ro, .hw⟩
def CAL_BOOKED_SPRING : Fld := ⟨0x40008, 47, 32, 0, .ro, .hw⟩
def CAL_BOOKED_FLOOD : Fld := ⟨0x40008, 31, 16, 0, .ro, .hw⟩
def CAL_BOOKED_NEAP : Fld := ⟨0x40008, 15, 0, 0, .ro, .hw⟩
/-! CAL_CAPACITY (Table 4.7) -/
def CAL_CAPACITY_UNIT : Fld := ⟨0x40010, 19, 16, 0, .ro, .hw⟩
def CAL_CAPACITY_CAPACITY : Fld := ⟨0x40010, 15, 0, 0, .ro, .hw⟩
/-! CAL_SHOAL (Table 4.8) -/
def CAL_SHOAL_ST_FRONT_COST : Fld := ⟨0x40018, 63, 48, 0x60, .rw, .epoch⟩
def CAL_SHOAL_ST_BACK_COST : Fld := ⟨0x40018, 47, 32, 0x40, .rw, .epoch⟩
def CAL_SHOAL_COPY_COST : Fld := ⟨0x40018, 31, 16, 0x18, .rw, .epoch⟩
def CAL_SHOAL_BOOKED_THREADS : Fld := ⟨0x40018, 6, 0, 0x10, .rw, .epoch⟩
/-! CAL_RESERVES (Table 4.8) -/
def CAL_RESERVES_HBM_REEF_RESERVE : Fld := ⟨0x40020, 47, 32, 0x96, .rw, .epoch⟩
def CAL_RESERVES_PKT_BOOKED_MIB : Fld := ⟨0x40020, 31, 16, 0x60, .rw, .epoch⟩
def CAL_RESERVES_RETX_SHARE : Fld := ⟨0x40020, 15, 8, 8, .rw, .epoch⟩
/-! CAL_PKT_SPACE (Table 4.8) -/
def CAL_PKT_SPACE_SPACE_IN_USE_KIB : Fld := ⟨0x40028, 31, 0, 0, .ro, .hw⟩
/-! CAL_TENANT_SELECT (Table 4.9) -/
def CAL_TENANT_SELECT_TID : Fld := ⟨0x40030, 8, 0, 0, .rw, .tick⟩
/-! CAL_TENANT (Table 4.9) -/
def CAL_TENANT_TENANT_WEIGHT (k : Nat) : Fld := ⟨0x40038 + bankStep * k, 15, 0, 0x100, .rw, .epoch⟩
/-! CAL_LEAF_SELECT (Table 4.9) -/
def CAL_LEAF_SELECT_LEAF : Fld := ⟨0x40040, 20, 0, 0, .rw, .tick⟩
/-! CAL_LEAF (Table 4.9) -/
def CAL_LEAF_WEIGHT (k : Nat) : Fld := ⟨0x40048 + bankStep * k, 63, 48, 0x100, .rw, .epoch⟩
def CAL_LEAF_SHAPE_RATE (k : Nat) : Fld := ⟨0x40048 + bankStep * k, 47, 24, 0, .rw, .epoch⟩
def CAL_LEAF_SHAPE_BURST (k : Nat) : Fld := ⟨0x40048 + bankStep * k, 23, 0, 0, .rw, .epoch⟩
/-! CAL_QUEUE_SELECT (Table 4.9) -/
def CAL_QUEUE_SELECT_PORT : Fld := ⟨0x40050, 7, 4, 0, .rw, .tick⟩
def CAL_QUEUE_SELECT_QUEUE : Fld := ⟨0x40050, 3, 0, 0, .rw, .tick⟩
/-! CAL_QUEUE_SHAPER (Table 4.9) -/
def CAL_QUEUE_SHAPER_RATE (k : Nat) : Fld := ⟨0x40058 + bankStep * k, 47, 24, 0, .rw, .epoch⟩
def CAL_QUEUE_SHAPER_BURST (k : Nat) : Fld := ⟨0x40058 + bankStep * k, 23, 0, 0, .rw, .epoch⟩
/-! CAL_GATE_SELECT (Table 4.10) -/
def CAL_GATE_SELECT_PORT : Fld := ⟨0x40060, 3, 0, 0, .rw, .tick⟩
/-! CAL_GATE_CTRL (Table 4.10) -/
def CAL_GATE_CTRL_COMMIT (k : Nat) : Fld := ⟨0x40068 + bankStep * k, 63, 63, 0, .wo, .epoch⟩
def CAL_GATE_CTRL_ADMIN_ENABLE (k : Nat) : Fld := ⟨0x40068 + bankStep * k, 62, 62, 0, .rw, .epoch⟩
def CAL_GATE_CTRL_PENDING (k : Nat) : Fld := ⟨0x40068 + bankStep * k, 61, 61, 0, .ro, .hw⟩
def CAL_GATE_CTRL_OPER_ENABLE (k : Nat) : Fld := ⟨0x40068 + bankStep * k, 60, 60, 0, .ro, .hw⟩
def CAL_GATE_CTRL_OPER_LEN (k : Nat) : Fld := ⟨0x40068 + bankStep * k, 26, 16, 0, .ro, .hw⟩
def CAL_GATE_CTRL_ADMIN_LEN (k : Nat) : Fld := ⟨0x40068 + bankStep * k, 10, 0, 1, .rw, .epoch⟩
/-! CAL_GATE (Table 4.10) -/
def CAL_GATE_ADMIN_BASE (k : Nat) : Fld := ⟨0x40070 + bankStep * k, 63, 0, 0, .rw, .epoch⟩
/-! CAL_GATE_CYCLE (Table 4.10) -/
def CAL_GATE_CYCLE_OPER_CYCLE_NS (k : Nat) : Fld := ⟨0x40078 + bankStep * k, 63, 32, 0, .ro, .hw⟩
def CAL_GATE_CYCLE_ADMIN_CYCLE_NS (k : Nat) : Fld := ⟨0x40078 + bankStep * k, 31, 0, 0, .ro, .hw⟩
/-! CAL_POL_SELECT (Table 4.11) -/
def CAL_POL_SELECT_POLICER : Fld := ⟨0x40080, 11, 0, 0, .rw, .tick⟩
/-! CAL_POL (Table 4.11) -/
def CAL_POL_ENABLE (k : Nat) : Fld := ⟨0x40088 + bankStep * k, 63, 63, 0, .rw, .epoch⟩
def CAL_POL_ACTIVE (k : Nat) : Fld := ⟨0x40088 + bankStep * k, 62, 62, 0, .ro, .hw⟩
def CAL_POL_MODE (k : Nat) : Fld := ⟨0x40088 + bankStep * k, 61, 61, 0, .rw, .epoch⟩
def CAL_POL_COLOUR_AWARE (k : Nat) : Fld := ⟨0x40088 + bankStep * k, 60, 60, 0, .rw, .epoch⟩
def CAL_POL_YELLOW_DROP (k : Nat) : Fld := ⟨0x40088 + bankStep * k, 59, 59, 0, .rw, .epoch⟩
def CAL_POL_RED_SLACK (k : Nat) : Fld := ⟨0x40088 + bankStep * k, 58, 58, 0, .rw, .epoch⟩
def CAL_POL_CLASS (k : Nat) : Fld := ⟨0x40088 + bankStep * k, 57, 56, 0, .rw, .epoch⟩
def CAL_POL_PORT (k : Nat) : Fld := ⟨0x40088 + bankStep * k, 55, 52, 0, .rw, .epoch⟩
def CAL_POL_TID (k : Nat) : Fld := ⟨0x40088 + bankStep * k, 51, 43, 0, .rw, .epoch⟩
/-! CAL_POL (Table 4.11) -/
def CAL_POL_CIR (k : Nat) : Fld := ⟨0x40090 + bankStep * k, 63, 32, 0, .rw, .epoch⟩
def CAL_POL_EIR_PIR (k : Nat) : Fld := ⟨0x40090 + bankStep * k, 31, 0, 0, .rw, .epoch⟩
/-! CAL_POL (Table 4.11) -/
def CAL_POL_CBS (k : Nat) : Fld := ⟨0x40098 + bankStep * k, 63, 32, 0, .rw, .epoch⟩
def CAL_POL_EBS_PBS (k : Nat) : Fld := ⟨0x40098 + bankStep * k, 31, 0, 0, .rw, .epoch⟩
/-! CAL_POL (Table 4.11) -/
def CAL_POL_GREEN (k : Nat) : Fld := ⟨0x400a0 + bankStep * k, 63, 0, 0, .ro, .hw⟩
/-! CAL_POL (Table 4.11) -/
def CAL_POL_YELLOW (k : Nat) : Fld := ⟨0x400a8 + bankStep * k, 63, 0, 0, .ro, .hw⟩
/-! CAL_POL (Table 4.11) -/
def CAL_POL_RED (k : Nat) : Fld := ⟨0x400b0 + bankStep * k, 63, 0, 0, .ro, .hw⟩
/-! CAL_QSAMPLE (Table 4.11) -/
def CAL_QSAMPLE_QTYPE : Fld := ⟨0x400b8, 31, 28, 0, .rw, .tick⟩
def CAL_QSAMPLE_QINDEX : Fld := ⟨0x400b8, 23, 0, 0, .rw, .tick⟩
/-! CAL_QSAMPLE (Table 4.11) -/
def CAL_QSAMPLE_DEPTH : Fld := ⟨0x400c0, 63, 32, 0, .ro, .hw⟩
def CAL_QSAMPLE_DELAY : Fld := ⟨0x400c0, 31, 0, 0, .ro, .hw⟩
/-! CAL_QSAMPLE (Table 4.11) -/
def CAL_QSAMPLE_MAX_DEPTH (k : Nat) : Fld := ⟨0x400c8 + bankStep * k, 63, 32, 0, .rc, .hw⟩
def CAL_QSAMPLE_MAX_DELAY (k : Nat) : Fld := ⟨0x400c8 + bankStep * k, 31, 0, 0, .rc, .hw⟩
/-! CAL_STATUS (Table 4.11) -/
def CAL_STATUS_GATE_REFUSED : Fld := ⟨0x400d0, 2, 2, 0, .rw1c, .tick⟩
def CAL_STATUS_POL_NO_ROOM : Fld := ⟨0x400d0, 1, 1, 0, .rw1c, .tick⟩
def CAL_STATUS_POL_REFUSED : Fld := ⟨0x400d0, 0, 0, 0, .rw1c, .tick⟩
/-! BWK_UNIT_STATUS (Table 5.4) -/
def BWK_UNIT_STATUS_FAIL_CAUSE (u : Nat) : Fld := ⟨0x20200 + 0x10000 * u, 47, 40, 0, .ro, .hw⟩
def BWK_UNIT_STATUS_LAPSES (u : Nat) : Fld := ⟨0x20200 + 0x10000 * u, 39, 32, 0, .ro, .hw⟩
def BWK_UNIT_STATUS_COPY_PROGRESS (u : Nat) : Fld := ⟨0x20200 + 0x10000 * u, 31, 23, 0, .ro, .hw⟩
def BWK_UNIT_STATUS_STATE (u : Nat) : Fld := ⟨0x20200 + 0x10000 * u, 2, 0, 0, .ro, .hw⟩
/-! BWK_UNIT_CTRL (Table 5.5) -/
def BWK_UNIT_CTRL_RECOVER (u : Nat) : Fld := ⟨0x20208 + 0x10000 * u, 2, 2, 0, .wo, .epoch⟩
def BWK_UNIT_CTRL_SWAP (u : Nat) : Fld := ⟨0x20208 + 0x10000 * u, 1, 1, 0, .wo, .slot⟩
def BWK_UNIT_CTRL_RESET_UNIT (u : Nat) : Fld := ⟨0x20208 + 0x10000 * u, 0, 0, 0, .wo, .tick⟩
/-! BWK_UNIT_COUNTS (Table 5.6) -/
def BWK_UNIT_COUNTS_TAKEOVERS (u : Nat) : Fld := ⟨0x20210 + 0x10000 * u, 63, 48, 0, .ro, .hw⟩
def BWK_UNIT_COUNTS_LINK_ERRORS (u : Nat) : Fld := ⟨0x20210 + 0x10000 * u, 47, 32, 0, .rc, .hw⟩
def BWK_UNIT_COUNTS_CORRECTED (u : Nat) : Fld := ⟨0x20210 + 0x10000 * u, 31, 0, 0, .rc, .hw⟩
/-! BWK_UNIT_JOURNAL (Table 5.7) -/
def BWK_UNIT_JOURNAL_LAST_TICK (u : Nat) : Fld := ⟨0x20218 + 0x10000 * u, 31, 0, 0, .ro, .hw⟩
/-! BWK_UNIT_ALERT (Table 5.8) -/
def BWK_UNIT_ALERT_LOST (u : Nat) : Fld := ⟨0x20220 + 0x10000 * u, 6, 6, 0, .rw1c, .tick⟩
def BWK_UNIT_ALERT_SWAP_REFUSED (u : Nat) : Fld := ⟨0x20220 + 0x10000 * u, 5, 5, 0, .rw1c, .tick⟩
def BWK_UNIT_ALERT_RECOVER_REFUSED (u : Nat) : Fld := ⟨0x20220 + 0x10000 * u, 4, 4, 0, .rw1c, .tick⟩
def BWK_UNIT_ALERT_SYNC_DONE (u : Nat) : Fld := ⟨0x20220 + 0x10000 * u, 3, 3, 0, .rw1c, .tick⟩
def BWK_UNIT_ALERT_LAPSED (u : Nat) : Fld := ⟨0x20220 + 0x10000 * u, 2, 2, 0, .rw1c, .tick⟩
def BWK_UNIT_ALERT_FAILED (u : Nat) : Fld := ⟨0x20220 + 0x10000 * u, 1, 1, 0, .rw1c, .tick⟩
def BWK_UNIT_ALERT_TOOK_OVER (u : Nat) : Fld := ⟨0x20220 + 0x10000 * u, 0, 0, 0, .rw1c, .tick⟩
/-! SHL_STATUS (Table 6.7) -/
def SHL_STATUS_BOOKED_IN_FORCE (s : Nat) : Fld := ⟨0x100000 + 0x10000 * s, 14, 8, 0x10, .ro, .hw⟩
def SHL_STATUS_DRAINED (s : Nat) : Fld := ⟨0x100000 + 0x10000 * s, 3, 3, 0, .ro, .hw⟩
def SHL_STATUS_DRAIN_ACTIVE (s : Nat) : Fld := ⟨0x100000 + 0x10000 * s, 2, 2, 0, .ro, .hw⟩
def SHL_STATUS_IN_RESET (s : Nat) : Fld := ⟨0x100000 + 0x10000 * s, 1, 1, 1, .ro, .hw⟩
def SHL_STATUS_RELEASED (s : Nat) : Fld := ⟨0x100000 + 0x10000 * s, 0, 0, 0, .ro, .hw⟩
/-! SHL_CTRL (Table 6.7) -/
def SHL_CTRL_CLAIM_CH_BASE (s : Nat) : Fld := ⟨0x100008 + 0x10000 * s, 17, 9, 0x1c0, .rw, .epoch⟩
def SHL_CTRL_SHOAL_RESET (s : Nat) : Fld := ⟨0x100008 + 0x10000 * s, 1, 1, 0, .wo, .tick⟩
def SHL_CTRL_DRAIN (s : Nat) : Fld := ⟨0x100008 + 0x10000 * s, 0, 0, 0, .rw, .epoch⟩
/-! SHL_DL_CTRL (Table 6.8) -/
def SHL_DL_CTRL_DL_ENABLE (s : Nat) : Fld := ⟨0x100010 + 0x10000 * s, 16, 16, 1, .rw, .tick⟩
def SHL_DL_CTRL_WINDOW (s : Nat) : Fld := ⟨0x100010 + 0x10000 * s, 15, 0, 0x1000, .rw, .tick⟩
/-! SHL_FAULT (Table 6.8) -/
def SHL_FAULT_DEADLOCK (s : Nat) : Fld := ⟨0x100018 + 0x10000 * s, 15, 8, 0, .rw1c, .tick⟩
def SHL_FAULT_MEM (s : Nat) : Fld := ⟨0x100018 + 0x10000 * s, 3, 3, 0, .rw1c, .tick⟩
def SHL_FAULT_CH_MISUSE (s : Nat) : Fld := ⟨0x100018 + 0x10000 * s, 2, 2, 0, .rw1c, .tick⟩
def SHL_FAULT_RESET_REFUSED (s : Nat) : Fld := ⟨0x100018 + 0x10000 * s, 1, 1, 0, .rw1c, .tick⟩
def SHL_FAULT_HALT_REFUSED (s : Nat) : Fld := ⟨0x100018 + 0x10000 * s, 0, 0, 0, .rw1c, .tick⟩
/-! SHL_GROUP (Table 6.8) -/
def SHL_GROUP_MEMBERS (s g : Nat) : Fld := ⟨0x100020 + 0x10000 * s + 8 * g, 63, 0, 0, .rw, .tick⟩
/-! SHL_DL_INFO (Table 6.9) -/
def SHL_DL_INFO_CAPTURED_AT (s : Nat) : Fld := ⟨0x100060 + 0x10000 * s, 63, 32, 0, .ro, .hw⟩
def SHL_DL_INFO_ENTRIES (s : Nat) : Fld := ⟨0x100060 + 0x10000 * s, 31, 23, 0, .ro, .hw⟩
def SHL_DL_INFO_TRUNCATED (s : Nat) : Fld := ⟨0x100060 + 0x10000 * s, 22, 22, 0, .ro, .hw⟩
def SHL_DL_INFO_LATER_LOST (s : Nat) : Fld := ⟨0x100060 + 0x10000 * s, 21, 21, 0, .ro, .hw⟩
def SHL_DL_INFO_GROUP (s : Nat) : Fld := ⟨0x100060 + 0x10000 * s, 2, 0, 0, .ro, .hw⟩
/-! SHL_DL_SNAP (Table 6.10) -/
def SHL_DL_SNAP_VALID (s k : Nat) : Fld := ⟨0x100100 + 0x10000 * s + 8 * k, 63, 63, 0, .ro, .hw⟩
def SHL_DL_SNAP_THREAD (s k : Nat) : Fld := ⟨0x100100 + 0x10000 * s + 8 * k, 62, 53, 0, .ro, .hw⟩
def SHL_DL_SNAP_DIR (s k : Nat) : Fld := ⟨0x100100 + 0x10000 * s + 8 * k, 52, 52, 0, .ro, .hw⟩
def SHL_DL_SNAP_CHANNEL (s k : Nat) : Fld := ⟨0x100100 + 0x10000 * s + 8 * k, 51, 39, 0, .ro, .hw⟩
def SHL_DL_SNAP_PEER (s k : Nat) : Fld := ⟨0x100100 + 0x10000 * s + 8 * k, 38, 27, 0, .ro, .hw⟩
def SHL_DL_SNAP_PEER_STATE (s k : Nat) : Fld := ⟨0x100100 + 0x10000 * s + 8 * k, 26, 24, 0, .ro, .hw⟩
def SHL_DL_SNAP_PEER_WAITING (s k : Nat) : Fld := ⟨0x100100 + 0x10000 * s + 8 * k, 23, 23, 0, .ro, .hw⟩
/-! SHL_DBG_SELECT (Table 6.11) -/
def SHL_DBG_SELECT_THREAD (s : Nat) : Fld := ⟨0x100068 + 0x10000 * s, 31, 26, 0, .rw, .tick⟩
def SHL_DBG_SELECT_ITEM (s : Nat) : Fld := ⟨0x100068 + 0x10000 * s, 7, 0, 0, .rw, .tick⟩
/-! SHL_DBG (Table 6.11) -/
def SHL_DBG_DATA (s : Nat) : Fld := ⟨0x100070 + 0x10000 * s, 63, 0, 0, .rw, .tick⟩
/-! SHL_CORE (Table 6.12) -/
def SHL_CORE_VECTOR (s c : Nat) : Fld := ⟨0x100400 + 0x10000 * s + 0x20 * c, 47, 2, 0, .rw, .reset⟩
/-! SHL_CORE (Table 6.12) -/
def SHL_CORE_CORE_RESET (s c : Nat) : Fld := ⟨0x100408 + 0x10000 * s + 0x20 * c, 8, 8, 0, .rw, .tick⟩
def SHL_CORE_START_MASK (s c : Nat) : Fld := ⟨0x100408 + 0x10000 * s + 0x20 * c, 7, 0, 1, .rw, .reset⟩
/-! SHL_CORE (Table 6.12) -/
def SHL_CORE_THREAD_STATE (s c : Nat) : Fld := ⟨0x100410 + 0x10000 * s + 0x20 * c, 31, 0, 0, .ro, .hw⟩
/-! SHL_CORE (Table 6.12) -/
def SHL_CORE_ISSUED_256 (s c : Nat) : Fld := ⟨0x100418 + 0x10000 * s + 0x20 * c, 63, 32, 0, .rc, .hw⟩
def SHL_CORE_EMPTY_256 (s c : Nat) : Fld := ⟨0x100418 + 0x10000 * s + 0x20 * c, 31, 0, 0, .rc, .hw⟩
/-! SHL_THR (Table 6.13) -/
def SHL_THR_STEP (s t : Nat) : Fld := ⟨0x100800 + 0x10000 * s + 0x20 * t, 7, 7, 0, .wo, .tick⟩
def SHL_THR_RESUME (s t : Nat) : Fld := ⟨0x100800 + 0x10000 * s + 0x20 * t, 6, 6, 0, .wo, .tick⟩
def SHL_THR_HALT (s t : Nat) : Fld := ⟨0x100800 + 0x10000 * s + 0x20 * t, 5, 5, 0, .wo, .tick⟩
def SHL_THR_RESET (s t : Nat) : Fld := ⟨0x100800 + 0x10000 * s + 0x20 * t, 4, 4, 0, .wo, .tick⟩
def SHL_THR_START (s t : Nat) : Fld := ⟨0x100800 + 0x10000 * s + 0x20 * t, 3, 3, 0, .wo, .tick⟩
def SHL_THR_PRIORITY (s t : Nat) : Fld := ⟨0x100800 + 0x10000 * s + 0x20 * t, 1, 0, 1, .rw, .tick⟩
/-! SHL_THR (Table 6.13) -/
def SHL_THR_OWED_TICKS (s t : Nat) : Fld := ⟨0x100808 + 0x10000 * s + 0x20 * t, 39, 32, 0, .ro, .hw⟩
def SHL_THR_BOOKED (s t : Nat) : Fld := ⟨0x100808 + 0x10000 * s + 0x20 * t, 23, 23, 0, .ro, .hw⟩
def SHL_THR_WAITING (s t : Nat) : Fld := ⟨0x100808 + 0x10000 * s + 0x20 * t, 22, 22, 0, .ro, .hw⟩
def SHL_THR_ARMED (s t : Nat) : Fld := ⟨0x100808 + 0x10000 * s + 0x20 * t, 21, 21, 0, .ro, .hw⟩
def SHL_THR_EFF_PRIORITY (s t : Nat) : Fld := ⟨0x100808 + 0x10000 * s + 0x20 * t, 17, 16, 1, .ro, .hw⟩
def SHL_THR_STATE (s t : Nat) : Fld := ⟨0x100808 + 0x10000 * s + 0x20 * t, 2, 0, 0, .ro, .hw⟩
/-! SHL_THR (Table 6.13) -/
def SHL_THR_PC (s t : Nat) : Fld := ⟨0x100810 + 0x10000 * s + 0x20 * t, 63, 0, 0, .ro, .hw⟩
/-! SHL_THR_WAIT (Table 6.13) -/
def SHL_THR_WAIT_COUNT (s t : Nat) : Fld := ⟨0x100818 + 0x10000 * s + 0x20 * t, 63, 61, 0, .ro, .hw⟩
def SHL_THR_WAIT_OVERFLOW (s t : Nat) : Fld := ⟨0x100818 + 0x10000 * s + 0x20 * t, 60, 60, 0, .ro, .hw⟩
def SHL_THR_WAIT_DIR (s t : Nat) : Fld := ⟨0x100818 + 0x10000 * s + 0x20 * t, 59, 56, 0, .ro, .hw⟩
def SHL_THR_WAIT_CH3 (s t : Nat) : Fld := ⟨0x100818 + 0x10000 * s + 0x20 * t, 51, 39, 0, .ro, .hw⟩
def SHL_THR_WAIT_CH2 (s t : Nat) : Fld := ⟨0x100818 + 0x10000 * s + 0x20 * t, 38, 26, 0, .ro, .hw⟩
def SHL_THR_WAIT_CH1 (s t : Nat) : Fld := ⟨0x100818 + 0x10000 * s + 0x20 * t, 25, 13, 0, .ro, .hw⟩
def SHL_THR_WAIT_CH0 (s t : Nat) : Fld := ⟨0x100818 + 0x10000 * s + 0x20 * t, 12, 0, 0, .ro, .hw⟩
/-! SHL_CH (Table 6.14) -/
def SHL_CH_ENABLE (s h : Nat) : Fld := ⟨0x102000 + 0x10000 * s + 0x10 * h, 31, 31, 0, .rw, .tick⟩
def SHL_CH_CLAIM (s h : Nat) : Fld := ⟨0x102000 + 0x10000 * s + 0x10 * h, 30, 30, 0, .ro, .hw⟩
def SHL_CH_PRODUCER (s h : Nat) : Fld := ⟨0x102000 + 0x10000 * s + 0x10 * h, 23, 12, 0, .rw, .tick⟩
def SHL_CH_CONSUMER (s h : Nat) : Fld := ⟨0x102000 + 0x10000 * s + 0x10 * h, 11, 0, 0, .rw, .tick⟩
/-! SHL_CH (Table 6.14) -/
def SHL_CH_DISCARDED (s h : Nat) : Fld := ⟨0x102008 + 0x10000 * s + 0x10 * h, 63, 32, 0, .rc, .hw⟩
def SHL_CH_COUNT (s h : Nat) : Fld := ⟨0x102008 + 0x10000 * s + 0x10 * h, 4, 0, 0, .ro, .hw⟩
/-! MAC_LANE_MODE (Table 9.4) -/
def MAC_LANE_MODE_MODE_IN_FORCE : Fld := ⟨0x203f00, 9, 8, 2, .ro, .hw⟩
def MAC_LANE_MODE_LANE_MODE : Fld := ⟨0x203f00, 1, 0, 2, .rw, .reset⟩
/-! MAC_PORT_CTL (Table 9.5) -/
def MAC_PORT_CTL_MAX_FRAME (p : Nat) : Fld := ⟨0x200000 + 0x4000 * p, 29, 16, 0x2400, .rw, .epoch⟩
def MAC_PORT_CTL_ONE_STEP (p : Nat) : Fld := ⟨0x200000 + 0x4000 * p, 7, 7, 0, .rw, .epoch⟩
def MAC_PORT_CTL_TC_ENABLE (p : Nat) : Fld := ⟨0x200000 + 0x4000 * p, 6, 6, 0, .rw, .epoch⟩
def MAC_PORT_CTL_PFC_MODE (p : Nat) : Fld := ⟨0x200000 + 0x4000 * p, 5, 4, 0, .rw, .epoch⟩
def MAC_PORT_CTL_DELIVER_BAD (p : Nat) : Fld := ⟨0x200000 + 0x4000 * p, 2, 2, 0, .rw, .epoch⟩
def MAC_PORT_CTL_ENABLE (p : Nat) : Fld := ⟨0x200000 + 0x4000 * p, 0, 0, 0, .rw, .epoch⟩
/-! MAC_STATUS (Table 9.5) -/
def MAC_STATUS_PAUSED (p : Nat) : Fld := ⟨0x200008 + 0x4000 * p, 23, 16, 0, .ro, .hw⟩
def MAC_STATUS_LANE_CHANGED (p : Nat) : Fld := ⟨0x200008 + 0x4000 * p, 6, 6, 0, .rw1c, .tick⟩
def MAC_STATUS_TRAIN_FAIL (p : Nat) : Fld := ⟨0x200008 + 0x4000 * p, 5, 5, 0, .rw1c, .tick⟩
def MAC_STATUS_LINK_DOWN_SEEN (p : Nat) : Fld := ⟨0x200008 + 0x4000 * p, 4, 4, 0, .rw1c, .tick⟩
def MAC_STATUS_LINK_STATE (p : Nat) : Fld := ⟨0x200008 + 0x4000 * p, 2, 0, 0, .ro, .hw⟩
/-! MAC_LANES (Table 9.5) -/
def MAC_LANES_LANE_LOCK (p : Nat) : Fld := ⟨0x200010 + 0x4000 * p, 55, 48, 0, .ro, .hw⟩
def MAC_LANES_RX_ORDER (p : Nat) : Fld := ⟨0x200010 + 0x4000 * p, 47, 24, 0, .ro, .hw⟩
def MAC_LANES_TX_POL_INV (p : Nat) : Fld := ⟨0x200010 + 0x4000 * p, 15, 8, 0, .ro, .hw⟩
def MAC_LANES_RX_POL_INV (p : Nat) : Fld := ⟨0x200010 + 0x4000 * p, 7, 0, 0, .ro, .hw⟩
/-! MAC_BAD (Table 9.5) -/
def MAC_BAD_BAD_TID (p : Nat) : Fld := ⟨0x200018 + 0x4000 * p, 24, 16, 0, .rw, .epoch⟩
def MAC_BAD_BAD_QUEUE (p : Nat) : Fld := ⟨0x200018 + 0x4000 * p, 15, 0, 0, .rw, .epoch⟩
/-! MAC_SLACK (Table 9.5) -/
def MAC_SLACK_SLACK_LIMIT_KIB (p : Nat) : Fld := ⟨0x200020 + 0x4000 * p, 15, 0, 0x100, .rw, .epoch⟩
/-! MAC_FLUSH (Table 9.5) -/
def MAC_FLUSH_FLUSH_QUEUES (p : Nat) : Fld := ⟨0x200028 + 0x4000 * p, 15, 0, 0, .wo, .tick⟩
/-! MAC_PFC (Table 9.5) -/
def MAC_PFC_XOFF_KIB (p : Nat) : Fld := ⟨0x200030 + 0x4000 * p, 63, 48, 0x200, .rw, .epoch⟩
def MAC_PFC_XON_KIB (p : Nat) : Fld := ⟨0x200030 + 0x4000 * p, 47, 32, 0x100, .rw, .epoch⟩
def MAC_PFC_QUANTA (p : Nat) : Fld := ⟨0x200030 + 0x4000 * p, 31, 16, 0xffff, .rw, .epoch⟩
def MAC_PFC_ENABLE_PRI (p : Nat) : Fld := ⟨0x200030 + 0x4000 * p, 15, 8, 0, .rw, .epoch⟩
/-! MAC_PFC (Table 9.5) -/
def MAC_PFC_PFC_MAP (p : Nat) : Fld := ⟨0x200038 + 0x4000 * p, 47, 0, 0xff6b646d2240, .rw, .epoch⟩
/-! MAC_PTP (Table 9.6) -/
def MAC_PTP_TX_LATENCY (p : Nat) : Fld := ⟨0x200040 + 0x4000 * p, 63, 32, 0x170000, .rw, .epoch⟩
def MAC_PTP_RX_LATENCY (p : Nat) : Fld := ⟨0x200040 + 0x4000 * p, 31, 0, 0x1a8000, .rw, .epoch⟩
/-! MAC_PTP (Table 9.6) -/
def MAC_PTP_LINK_DELAY (p : Nat) : Fld := ⟨0x200048 + 0x4000 * p, 47, 0, 0, .rw, .tick⟩
/-! MAC_TS (Table 9.6) -/
def MAC_TS_TX_TS_TIME (p : Nat) : Fld := ⟨0x200050 + 0x4000 * p, 63, 0, 0, .ro, .hw⟩
/-! MAC_TS (Table 9.6) -/
def MAC_TS_SEQUENCE_ID (p : Nat) : Fld := ⟨0x200058 + 0x4000 * p, 63, 48, 0, .ro, .hw⟩
def MAC_TS_DOMAIN (p : Nat) : Fld := ⟨0x200058 + 0x4000 * p, 47, 40, 0, .ro, .hw⟩
def MAC_TS_MSG_TYPE (p : Nat) : Fld := ⟨0x200058 + 0x4000 * p, 39, 36, 0, .ro, .hw⟩
def MAC_TS_FRACTION (p : Nat) : Fld := ⟨0x200058 + 0x4000 * p, 31, 16, 0, .ro, .hw⟩
def MAC_TS_COUNT (p : Nat) : Fld := ⟨0x200058 + 0x4000 * p, 4, 0, 0, .ro, .hw⟩
/-! MAC_TS (Table 9.6) -/
def MAC_TS_TX_TS_POP (p : Nat) : Fld := ⟨0x200060 + 0x4000 * p, 0, 0, 0, .wo, .tick⟩
/-! MAC_CNT (Table 9.6) -/
def MAC_CNT_COUNT (p n : Nat) : Fld := ⟨0x200100 + 0x4000 * p + 8 * n, 63, 0, 0, .ro, .hw⟩
/-! PRS_PROG_CTRL (Table 10.11) -/
def PRS_PROG_CTRL_COMMIT : Fld := ⟨0x300000, 63, 63, 0, .wo, .epoch⟩
def PRS_PROG_CTRL_PROG_GEN : Fld := ⟨0x300000, 31, 0, 0, .ro, .hw⟩
/-! PRS_STATUS (Table 10.11) -/
def PRS_STATUS_PAT_PENDING : Fld := ⟨0x300008, 2, 2, 0, .ro, .hw⟩
def PRS_STATUS_PAT_REFUSED : Fld := ⟨0x300008, 1, 1, 0, .rw1c, .tick⟩
def PRS_STATUS_PROG_REFUSED : Fld := ⟨0x300008, 0, 0, 0, .rw1c, .tick⟩
/-! PRS_EXC (Table 10.11) -/
def PRS_EXC_ENABLE : Fld := ⟨0x300010, 13, 13, 0, .rw, .epoch⟩
def PRS_EXC_CHANNEL : Fld := ⟨0x300010, 12, 0, 0, .rw, .epoch⟩
/-! PRS_CFG (Table 10.11) -/
def PRS_CFG_HOLD_LIMIT_KIB : Fld := ⟨0x300018, 63, 48, 0x1000, .rw, .epoch⟩
def PRS_CFG_SCAN_MAX : Fld := ⟨0x300018, 47, 44, 0xe, .rw, .epoch⟩
def PRS_CFG_DSCP_BYTE : Fld := ⟨0x300018, 39, 32, 0, .rw, .epoch⟩
/-! PRS (Table 10.11) -/
def PRS_COLOUR_MAP_LO : Fld := ⟨0x300020, 63, 0, 0, .rw, .epoch⟩
/-! PRS (Table 10.11) -/
def PRS_COLOUR_MAP_HI : Fld := ⟨0x300028, 63, 0, 0, .rw, .epoch⟩
/-! PRS (Table 10.11) -/
def PRS_PAT_ADDR : Fld := ⟨0x300030, 47, 0, 0, .rw, .epoch⟩
/-! PRS (Table 10.11) -/
def PRS_PAT_COMMIT : Fld := ⟨0x300038, 63, 63, 0, .wo, .epoch⟩
def PRS_PAT_LENGTH : Fld := ⟨0x300038, 27, 0, 0, .rw, .epoch⟩
/-! PRS_TX_SELECT (Table 10.11) -/
def PRS_TX_SELECT_TX_TID : Fld := ⟨0x300040, 8, 0, 0, .rw, .tick⟩
/-! PRS_TX (Table 10.11) -/
def PRS_TX_TX_MIRROR_EN (k : Nat) : Fld := ⟨0x300048 + bankStep * k, 6, 6, 0, .rw, .epoch⟩
def PRS_TX_TX_SESSION (k : Nat) : Fld := ⟨0x300048 + bankStep * k, 5, 0, 0, .rw, .epoch⟩
/-! PRS_PORT (Table 10.12) -/
def PRS_PORT_PROFILE (p : Nat) : Fld := ⟨0x300080 + 8 * p, 3, 0, 0, .rw, .epoch⟩
/-! PRS_REASON (Table 10.12) -/
def PRS_REASON_BURST (r : Nat) : Fld := ⟨0x300100 + 8 * r, 47, 32, 0x40, .rw, .epoch⟩
def PRS_REASON_RATE (r : Nat) : Fld := ⟨0x300100 + 8 * r, 31, 0, 0x100, .rw, .epoch⟩
/-! PRS_MIRROR (Table 10.12) -/
def PRS_MIRROR_ENABLE (m : Nat) : Fld := ⟨0x300200 + 8 * m, 63, 63, 0, .rw, .epoch⟩
def PRS_MIRROR_DEST_KIND (m : Nat) : Fld := ⟨0x300200 + 8 * m, 62, 61, 0, .rw, .epoch⟩
def PRS_MIRROR_SAMPLE_LOG2 (m : Nat) : Fld := ⟨0x300200 + 8 * m, 60, 57, 0, .rw, .epoch⟩
def PRS_MIRROR_TRUNCATE (m : Nat) : Fld := ⟨0x300200 + 8 * m, 56, 43, 0, .rw, .epoch⟩
def PRS_MIRROR_RATE (m : Nat) : Fld := ⟨0x300200 + 8 * m, 42, 32, 0, .rw, .epoch⟩
def PRS_MIRROR_TARGET (m : Nat) : Fld := ⟨0x300200 + 8 * m, 31, 0, 0, .rw, .epoch⟩
/-! PRS_PROFILE (Table 10.12) -/
def PRS_PROFILE_START_STATE (f : Nat) : Fld := ⟨0x300400 + 0x20 * f, 63, 56, 0, .rw, .epoch⟩
def PRS_PROFILE_STAGES (f : Nat) : Fld := ⟨0x300400 + 0x20 * f, 31, 0, 0, .rw, .epoch⟩
/-! PRS_PROFILE (Table 10.12) -/
def PRS_PROFILE_DEFAULT (f w : Nat) : Fld := ⟨0x300408 + 0x20 * f + 8 * w, 63, 0, 0, .rw, .epoch⟩
/-! PRS (Table 10.12) -/
def PRS_TEMPLATE (t : Nat) : Fld := ⟨0x300600 + 8 * t, 63, 0, 0, .rw, .epoch⟩
/-! REEF_CTRL (Table 11.2) -/
def REEF_CTRL_HASH_SEED : Fld := ⟨0x400000, 63, 32, 0, .rw, .reset⟩
def REEF_CTRL_INS_AGES : Fld := ⟨0x400000, 8, 8, 1, .rw, .epoch⟩
def REEF_CTRL_MAX_KICKS : Fld := ⟨0x400000, 3, 0, 4, .rw, .epoch⟩
/-! REEF_AGE (Table 11.2) -/
def REEF_AGE_AGE_ENABLE : Fld := ⟨0x400008, 16, 16, 1, .rw, .epoch⟩
def REEF_AGE_AGE_LIMIT : Fld := ⟨0x400008, 15, 0, 0xf0, .rw, .epoch⟩
/-! REEF_STATUS (Table 11.2) -/
def REEF_STATUS_EM_ENTRIES : Fld := ⟨0x400010, 56, 32, 0, .ro, .hw⟩
def REEF_STATUS_PFX_ENTRIES : Fld := ⟨0x400010, 18, 0, 0, .ro, .hw⟩
/-! REEF_STATUS (Table 11.2) -/
def REEF_STATUS_PFX_PATH_BUSY : Fld := ⟨0x400018, 26, 26, 0, .ro, .hw⟩
def REEF_STATUS_EM_PATH_BUSY : Fld := ⟨0x400018, 25, 25, 0, .ro, .hw⟩
def REEF_STATUS_LEARNED_ENTRIES : Fld := ⟨0x400018, 24, 0, 0, .ro, .hw⟩
/-! REEF_TENANT_SELECT (Table 11.2) -/
def REEF_TENANT_SELECT_TID : Fld := ⟨0x400020, 8, 0, 0, .rw, .tick⟩
/-! REEF (Table 11.2) -/
def REEF_TENANT_LIMIT (k : Nat) : Fld := ⟨0x400028 + bankStep * k, 56, 32, 0x1000000, .rw, .epoch⟩
def REEF_TENANT_COUNT (k : Nat) : Fld := ⟨0x400028 + bankStep * k, 24, 0, 0, .ro, .hw⟩
/-! REEF_CMD (Table 11.3) -/
def REEF_CMD_GO : Fld := ⟨0x400100, 63, 63, 0, .wo, .tick⟩
def REEF_CMD_OP : Fld := ⟨0x400100, 62, 60, 0, .rw, .tick⟩
def REEF_CMD_STATIC : Fld := ⟨0x400100, 59, 59, 0, .rw, .tick⟩
def REEF_CMD_TABLE : Fld := ⟨0x400100, 57, 56, 0, .rw, .tick⟩
def REEF_CMD_KEY_LEN : Fld := ⟨0x400100, 55, 48, 0, .rw, .tick⟩
def REEF_CMD_PREFIX_LEN : Fld := ⟨0x400100, 47, 40, 0, .rw, .tick⟩
/-! REEF_CMD (Table 11.3) -/
def REEF_CMD_KEY (w : Nat) : Fld := ⟨0x400108 + 8 * w, 63, 0, 0, .rw, .tick⟩
/-! REEF_CMD (Table 11.3) -/
def REEF_CMD_ACT (w : Nat) : Fld := ⟨0x400130 + 8 * w, 63, 0, 0, .rw, .tick⟩
/-! REEF_CMD (Table 11.3) -/
def REEF_CMD_BUSY : Fld := ⟨0x400140, 63, 63, 0, .ro, .hw⟩
def REEF_CMD_STATUS : Fld := ⟨0x400140, 55, 48, 0, .ro, .hw⟩
def REEF_CMD_RESULT : Fld := ⟨0x400140, 47, 40, 0, .ro, .hw⟩
def REEF_CMD_ARG : Fld := ⟨0x400140, 15, 0, 0, .ro, .hw⟩
/-! REEF_CMD (Table 11.3) -/
def REEF_CMD_RESULT_ACT (w : Nat) : Fld := ⟨0x400148 + 8 * w, 63, 0, 0, .ro, .hw⟩
/-! REEF_LEARN (Table 11.4) -/
def REEF_LEARN_PORT_LIMIT (p : Nat) : Fld := ⟨0x400400 + 0x20 * p, 56, 32, 0x1000000, .rw, .epoch⟩
def REEF_LEARN_LEARN_TID (p : Nat) : Fld := ⟨0x400400 + 0x20 * p, 31, 23, 0, .rw, .epoch⟩
def REEF_LEARN_PORT_SUBST (p : Nat) : Fld := ⟨0x400400 + 0x20 * p, 4, 4, 0, .rw, .epoch⟩
def REEF_LEARN_EXCESS (p : Nat) : Fld := ⟨0x400400 + 0x20 * p, 3, 3, 0, .rw, .epoch⟩
def REEF_LEARN_STAGE (p : Nat) : Fld := ⟨0x400400 + 0x20 * p, 2, 1, 0, .rw, .epoch⟩
def REEF_LEARN_ENABLE (p : Nat) : Fld := ⟨0x400400 + 0x20 * p, 0, 0, 0, .rw, .epoch⟩
/-! REEF_LEARN (Table 11.4) -/
def REEF_LEARN_LEARN_ACTION0 (p : Nat) : Fld := ⟨0x400408 + 0x20 * p, 63, 0, 0, .rw, .epoch⟩
/-! REEF_LEARN (Table 11.4) -/
def REEF_LEARN_LEARN_ACTION1 (p : Nat) : Fld := ⟨0x400410 + 0x20 * p, 63, 0, 0, .rw, .epoch⟩
/-! REEF_LEARN (Table 11.4) -/
def REEF_LEARN_PORT_COUNT (p : Nat) : Fld := ⟨0x400418 + 0x20 * p, 24, 0, 0, .ro, .hw⟩
/-! SWH_CTRL (Table 12.7) -/
def SWH_CTRL_UDP_PORT : Fld := ⟨0x500000, 63, 48, 0xbe10, .rw, .reset⟩
def SWH_CTRL_SPORT_BASE : Fld := ⟨0x500000, 47, 32, 0xc000, .rw, .reset⟩
def SWH_CTRL_CC_PERIOD : Fld := ⟨0x500000, 31, 24, 0x10, .rw, .epoch⟩
def SWH_CTRL_PARTIAL_TIMEOUT : Fld := ⟨0x500000, 23, 16, 0x20, .rw, .epoch⟩
/-! SWH (Table 12.7) -/
def SWH_RTO_INIT : Fld := ⟨0x500008, 63, 48, 0x100, .rw, .epoch⟩
def SWH_RTO_MIN : Fld := ⟨0x500008, 47, 32, 0x10, .rw, .epoch⟩
def SWH_RTO_MAX : Fld := ⟨0x500008, 31, 16, 0x4000, .rw, .epoch⟩
/-! SWH_CONN_SELECT (Table 12.7) -/
def SWH_CONN_SELECT_CONN : Fld := ⟨0x500010, 19, 0, 0, .rw, .tick⟩
/-! SWH_C (Table 12.8) -/
def SWH_C_TID (k : Nat) : Fld := ⟨0x500018 + bankStep * k, 63, 55, 0, .rw, .epoch⟩
def SWH_C_PORT (k : Nat) : Fld := ⟨0x500018 + bankStep * k, 54, 51, 0, .rw, .epoch⟩
def SWH_C_QUEUE (k : Nat) : Fld := ⟨0x500018 + bankStep * k, 50, 47, 0, .rw, .epoch⟩
def SWH_C_PMTU (k : Nat) : Fld := ⟨0x500018 + bankStep * k, 46, 45, 2, .rw, .epoch⟩
def SWH_C_PATHS_LOG2 (k : Nat) : Fld := ⟨0x500018 + bankStep * k, 44, 42, 0, .rw, .epoch⟩
def SWH_C_CC_MODE (k : Nat) : Fld := ⟨0x500018 + bankStep * k, 41, 40, 0, .rw, .epoch⟩
def SWH_C_PLACE_CLASS (k : Nat) : Fld := ⟨0x500018 + bankStep * k, 39, 38, 3, .rw, .epoch⟩
def SWH_C_PLACE_DEV (k : Nat) : Fld := ⟨0x500018 + bankStep * k, 37, 36, 0, .rw, .epoch⟩
def SWH_C_TEMPLATE (k : Nat) : Fld := ⟨0x500018 + bankStep * k, 31, 20, 0, .rw, .epoch⟩
def SWH_C_PEER_CONN (k : Nat) : Fld := ⟨0x500018 + bankStep * k, 19, 0, 0, .rw, .epoch⟩
/-! SWH_C (Table 12.8) -/
def SWH_C_INC (k : Nat) : Fld := ⟨0x500020 + bankStep * k, 63, 56, 0, .rw, .epoch⟩
def SWH_C_PEER_INC (k : Nat) : Fld := ⟨0x500020 + bankStep * k, 55, 48, 0, .rw, .epoch⟩
def SWH_C_INIT_PSN (k : Nat) : Fld := ⟨0x500020 + bankStep * k, 47, 24, 0, .rw, .epoch⟩
def SWH_C_PEER_INIT_PSN (k : Nat) : Fld := ⟨0x500020 + bankStep * k, 23, 0, 0, .rw, .epoch⟩
/-! SWH_C (Table 12.8) -/
def SWH_C_NOTIFY_RQ (k : Nat) : Fld := ⟨0x500028 + bankStep * k, 63, 48, 0, .rw, .epoch⟩
def SWH_C_TX_KEY_SLOT (k : Nat) : Fld := ⟨0x500028 + bankStep * k, 47, 34, 0, .rw, .epoch⟩
def SWH_C_RX_KEY_SLOT (k : Nat) : Fld := ⟨0x500028 + bankStep * k, 33, 20, 0, .rw, .epoch⟩
def SWH_C_TX_KEY_EN (k : Nat) : Fld := ⟨0x500028 + bankStep * k, 19, 19, 0, .rw, .epoch⟩
def SWH_C_RX_KEY_EN (k : Nat) : Fld := ⟨0x500028 + bankStep * k, 18, 18, 0, .rw, .epoch⟩
/-! SWH_C (Table 12.8) -/
def SWH_C_PLACE_BYTES (k : Nat) : Fld := ⟨0x500030 + bankStep * k, 63, 32, 0, .rw, .epoch⟩
def SWH_C_PLACE_BURST (k : Nat) : Fld := ⟨0x500030 + bankStep * k, 31, 0, 0, .rw, .epoch⟩
/-! SWH_C (Table 12.8) -/
def SWH_C_RATE_MAX (k : Nat) : Fld := ⟨0x500038 + bankStep * k, 63, 40, 0x3000, .rw, .epoch⟩
def SWH_C_RATE_MIN (k : Nat) : Fld := ⟨0x500038 + bankStep * k, 39, 16, 0x40, .rw, .epoch⟩
def SWH_C_AI (k : Nat) : Fld := ⟨0x500038 + bankStep * k, 15, 0, 0x40, .rw, .epoch⟩
/-! SWH_C (Table 12.8) -/
def SWH_C_DELAY_TARGET (k : Nat) : Fld := ⟨0x500040 + bankStep * k, 63, 32, 0x2710, .rw, .epoch⟩
def SWH_C_SALT (k : Nat) : Fld := ⟨0x500040 + bankStep * k, 31, 0, 0, .rw, .epoch⟩
/-! SWH_C (Table 12.8) -/
def SWH_C_CLOSE (k : Nat) : Fld := ⟨0x500048 + bankStep * k, 1, 1, 0, .wo, .epoch⟩
def SWH_C_OPEN (k : Nat) : Fld := ⟨0x500048 + bankStep * k, 0, 0, 0, .wo, .epoch⟩
/-! SWH_C (Table 12.8) -/
def SWH_C_STATE (k : Nat) : Fld := ⟨0x500050 + bankStep * k, 63, 61, 0, .ro, .hw⟩
def SWH_C_PLACE_ACTIVE (k : Nat) : Fld := ⟨0x500050 + bankStep * k, 60, 60, 0, .ro, .hw⟩
def SWH_C_NEXT_PSN (k : Nat) : Fld := ⟨0x500050 + bankStep * k, 47, 24, 0, .ro, .hw⟩
def SWH_C_NEXT_MSN (k : Nat) : Fld := ⟨0x500050 + bankStep * k, 23, 0, 0, .ro, .hw⟩
/-! SWH_C (Table 12.8) -/
def SWH_C_OUTSTANDING (k : Nat) : Fld := ⟨0x500058 + bankStep * k, 63, 51, 0, .ro, .hw⟩
def SWH_C_ALPHA (k : Nat) : Fld := ⟨0x500058 + bankStep * k, 50, 40, 0, .ro, .hw⟩
def SWH_C_RATE (k : Nat) : Fld := ⟨0x500058 + bankStep * k, 23, 0, 0, .rw, .slot⟩
/-! SWH_C (Table 12.8) -/
def SWH_C_SRTT (k : Nat) : Fld := ⟨0x500060 + bankStep * k, 63, 32, 0, .ro, .hw⟩
def SWH_C_RTTVAR (k : Nat) : Fld := ⟨0x500060 + bankStep * k, 31, 0, 0, .ro, .hw⟩
/-! SWH_WIN_SELECT (Table 12.9) -/
def SWH_WIN_SELECT_WINDOW : Fld := ⟨0x500100, 21, 0, 0, .rw, .tick⟩
/-! SWH_W (Table 12.9) -/
def SWH_W_BASE (k : Nat) : Fld := ⟨0x500108 + bankStep * k, 63, 0, 0, .rw, .tick⟩
/-! SWH_W (Table 12.9) -/
def SWH_W_LENGTH (k : Nat) : Fld := ⟨0x500110 + bankStep * k, 38, 0, 0, .rw, .tick⟩
/-! SWH_W (Table 12.9) -/
def SWH_W_KEY (k : Nat) : Fld := ⟨0x500118 + bankStep * k, 63, 32, 0, .rw, .tick⟩
def SWH_W_OWNER (k : Nat) : Fld := ⟨0x500118 + bankStep * k, 31, 23, 0, .rw, .tick⟩
def SWH_W_READ (k : Nat) : Fld := ⟨0x500118 + bankStep * k, 22, 22, 0, .rw, .tick⟩
def SWH_W_WRITE (k : Nat) : Fld := ⟨0x500118 + bankStep * k, 21, 21, 0, .rw, .tick⟩
def SWH_W_DEV_MEM (k : Nat) : Fld := ⟨0x500118 + bankStep * k, 20, 20, 0, .rw, .tick⟩
/-! SWH_W (Table 12.9) -/
def SWH_W_REVOKE (k : Nat) : Fld := ⟨0x500120 + bankStep * k, 1, 1, 0, .wo, .tick⟩
def SWH_W_REWRITE (k : Nat) : Fld := ⟨0x500120 + bankStep * k, 0, 0, 0, .wo, .tick⟩
/-! SWH_W (Table 12.9) -/
def SWH_W_GEN (k : Nat) : Fld := ⟨0x500128 + bankStep * k, 63, 56, 0, .ro, .hw⟩
def SWH_W_STATE (k : Nat) : Fld := ⟨0x500128 + bankStep * k, 55, 54, 0, .ro, .hw⟩
def SWH_W_DONE (k : Nat) : Fld := ⟨0x500128 + bankStep * k, 53, 53, 1, .ro, .hw⟩
/-! SWH_TENANT_SELECT (Table 12.10) -/
def SWH_TENANT_SELECT_TID : Fld := ⟨0x500130, 8, 0, 0, .rw, .tick⟩
/-! SWH (Table 12.10) -/
def SWH_WIN_QUOTA (k : Nat) : Fld := ⟨0x500138 + bankStep * k, 54, 32, 0, .rw, .epoch⟩
def SWH_WIN_COUNT (k : Nat) : Fld := ⟨0x500138 + bankStep * k, 22, 0, 0, .ro, .hw⟩
/-! SWH_ALERT (Table 12.10) -/
def SWH_ALERT_CFG_REFUSED : Fld := ⟨0x500140, 4, 4, 0, .rw1c, .tick⟩
def SWH_ALERT_WIN_REFUSED : Fld := ⟨0x500140, 3, 3, 0, .rw1c, .tick⟩
def SWH_ALERT_PLACE_NO_ROOM : Fld := ⟨0x500140, 2, 2, 0, .rw1c, .tick⟩
def SWH_ALERT_PLACE_REFUSED : Fld := ⟨0x500140, 1, 1, 0, .rw1c, .tick⟩
def SWH_ALERT_CONN_FAILED : Fld := ⟨0x500140, 0, 0, 0, .rw1c, .tick⟩
/-! STG (Table 13.7) -/
def STG_ACT_LIMIT_MS : Fld := ⟨0x600000, 63, 48, 0x3e8, .rw, .epoch⟩
def STG_ADMIN_SHOAL : Fld := ⟨0x600000, 47, 44, 0, .rw, .epoch⟩
/-! STG_STATUS (Table 13.7) -/
def STG_STATUS_ACT_HOLD : Fld := ⟨0x600008, 1, 1, 0, .ro, .hw⟩
def STG_STATUS_ACT_FAILED : Fld := ⟨0x600008, 0, 0, 0, .rw1c, .tick⟩
/-! STG_FN_SELECT (Table 13.8) -/
def STG_FN_SELECT_TID : Fld := ⟨0x600010, 8, 0, 0, .rw, .tick⟩
/-! STG (Table 13.8) -/
def STG_NVME_EN (k : Nat) : Fld := ⟨0x600018 + bankStep * k, 63, 63, 0, .rw, .reset⟩
def STG_FW_RIGHTS (k : Nat) : Fld := ⟨0x600018 + bankStep * k, 62, 62, 0, .rw, .epoch⟩
/-! STG_FN (Table 13.8) -/
def STG_FN_IO_QUEUES (k : Nat) : Fld := ⟨0x600020 + bankStep * k, 11, 4, 0, .ro, .hw⟩
def STG_FN_DST_RUNNING (k : Nat) : Fld := ⟨0x600020 + bankStep * k, 3, 3, 0, .ro, .hw⟩
def STG_FN_PERSONALITY (k : Nat) : Fld := ⟨0x600020 + bankStep * k, 2, 2, 0, .ro, .hw⟩
def STG_FN_RDY (k : Nat) : Fld := ⟨0x600020 + bankStep * k, 1, 1, 0, .ro, .hw⟩
def STG_FN_EN (k : Nat) : Fld := ⟨0x600020 + bankStep * k, 0, 0, 0, .ro, .hw⟩
/-! STG_NS_SELECT (Table 13.9) -/
def STG_NS_SELECT_TID : Fld := ⟨0x600028, 13, 5, 0, .rw, .tick⟩
def STG_NS_SELECT_NSID_M1 : Fld := ⟨0x600028, 4, 0, 0, .rw, .tick⟩
/-! STG_NS (Table 13.9) -/
def STG_NS_ENABLE (k : Nat) : Fld := ⟨0x600030 + bankStep * k, 63, 63, 0, .rw, .epoch⟩
def STG_NS_STRICT (k : Nat) : Fld := ⟨0x600030 + bankStep * k, 62, 62, 0, .rw, .epoch⟩
def STG_NS_CLASS (k : Nat) : Fld := ⟨0x600030 + bankStep * k, 61, 60, 2, .rw, .epoch⟩
def STG_NS_LBA_4K (k : Nat) : Fld := ⟨0x600030 + bankStep * k, 59, 59, 1, .rw, .epoch⟩
def STG_NS_SHOAL (k : Nat) : Fld := ⟨0x600030 + bankStep * k, 58, 55, 0, .rw, .epoch⟩
def STG_NS_STAGE_MEM (k : Nat) : Fld := ⟨0x600030 + bankStep * k, 54, 54, 0, .rw, .epoch⟩
def STG_NS_CIPHER (k : Nat) : Fld := ⟨0x600030 + bankStep * k, 53, 52, 0, .rw, .epoch⟩
def STG_NS_KEY_SLOT (k : Nat) : Fld := ⟨0x600030 + bankStep * k, 51, 38, 0, .rw, .epoch⟩
def STG_NS_BACKEND (k : Nat) : Fld := ⟨0x600030 + bankStep * k, 37, 30, 0, .rw, .epoch⟩
/-! STG_NS (Table 13.9) -/
def STG_NS_SIZE_LBAS (k : Nat) : Fld := ⟨0x600038 + bankStep * k, 47, 0, 0, .rw, .epoch⟩
/-! STG_BE_SELECT (Table 13.9) -/
def STG_BE_SELECT_BACKEND : Fld := ⟨0x600040, 7, 0, 0, .rw, .tick⟩
/-! STG_BE (Table 13.9) -/
def STG_BE_AVAILABLE (k : Nat) : Fld := ⟨0x600048 + bankStep * k, 63, 63, 0, .rw, .tick⟩
def STG_BE_KIND (k : Nat) : Fld := ⟨0x600048 + bankStep * k, 62, 62, 0, .rw, .epoch⟩
def STG_BE_SLOT (k : Nat) : Fld := ⟨0x600048 + bankStep * k, 61, 59, 0, .rw, .epoch⟩
def STG_BE_CONN (k : Nat) : Fld := ⟨0x600048 + bankStep * k, 58, 39, 0, .rw, .epoch⟩
/-! STG_BE (Table 13.9) -/
def STG_BE_BOUND_NS (k : Nat) : Fld := ⟨0x600050 + bankStep * k, 63, 32, 0, .rw, .epoch⟩
def STG_BE_TIMEOUT_MS (k : Nat) : Fld := ⟨0x600050 + bankStep * k, 31, 16, 0x3e8, .rw, .epoch⟩
/-! CRY (Table 14.6) -/
def CRY_SEAL_ETYPE : Fld := ⟨0x700000, 15, 0, 0x88b5, .rw, .epoch⟩
/-! CRY_STATUS (Table 14.6) -/
def CRY_STATUS_TAMPER : Fld := ⟨0x700008, 12, 8, 0, .rw1c, .tick⟩
def CRY_STATUS_SLOT_CFG_REFUSED : Fld := ⟨0x700008, 2, 2, 0, .rw1c, .tick⟩
def CRY_STATUS_OPEN_REFUSED : Fld := ⟨0x700008, 1, 1, 0, .rw1c, .tick⟩
def CRY_STATUS_WRAP_KEY_VALID : Fld := ⟨0x700008, 0, 0, 0, .ro, .hw⟩
/-! CRY_TENANT_SELECT (Table 14.6) -/
def CRY_TENANT_SELECT_TID : Fld := ⟨0x700010, 8, 0, 0, .rw, .tick⟩
/-! CRY_TENANT (Table 14.6) -/
def CRY_TENANT_TQ_VALID (k : Nat) : Fld := ⟨0x700018 + bankStep * k, 63, 63, 0, .rw, .epoch⟩
def CRY_TENANT_RX_OPEN (k : Nat) : Fld := ⟨0x700018 + bankStep * k, 62, 62, 0, .rw, .epoch⟩
def CRY_TENANT_RX_OPEN_IN_FORCE (k : Nat) : Fld := ⟨0x700018 + bankStep * k, 61, 61, 0, .ro, .hw⟩
def CRY_TENANT_TQ (k : Nat) : Fld := ⟨0x700018 + bankStep * k, 9, 0, 0, .rw, .epoch⟩
/-! CRY_SLOT_SELECT (Table 14.6) -/
def CRY_SLOT_SELECT_SLOT : Fld := ⟨0x700020, 13, 0, 0, .rw, .tick⟩
/-! CRY_SLOT (Table 14.6) -/
def CRY_SLOT_STATE (k : Nat) : Fld := ⟨0x700028 + bankStep * k, 63, 62, 0, .ro, .hw⟩
def CRY_SLOT_MODE (k : Nat) : Fld := ⟨0x700028 + bankStep * k, 59, 56, 0, .rw, .tick⟩
def CRY_SLOT_KEY_256 (k : Nat) : Fld := ⟨0x700028 + bankStep * k, 55, 55, 0, .rw, .tick⟩
def CRY_SLOT_USE (k : Nat) : Fld := ⟨0x700028 + bankStep * k, 54, 53, 3, .rw, .tick⟩
def CRY_SLOT_OWNER_KIND (k : Nat) : Fld := ⟨0x700028 + bankStep * k, 52, 52, 0, .rw, .tick⟩
def CRY_SLOT_OWNER (k : Nat) : Fld := ⟨0x700028 + bankStep * k, 51, 43, 0, .rw, .tick⟩
def CRY_SLOT_PEER_ID (k : Nat) : Fld := ⟨0x700028 + bankStep * k, 13, 0, 0, .rw, .tick⟩
/-! CRY_SLOT (Table 14.6) -/
def CRY_SLOT_SALT (k : Nat) : Fld := ⟨0x700030 + bankStep * k, 31, 0, 0, .rw, .tick⟩
/-! CRY_SLOT (Table 14.6) -/
def CRY_SLOT_LIMIT (k : Nat) : Fld := ⟨0x700038 + bankStep * k, 47, 0, 0x100000000, .rw, .tick⟩
/-! CRY_SLOT (Table 14.6) -/
def CRY_SLOT_COUNT (k : Nat) : Fld := ⟨0x700040 + bankStep * k, 47, 0, 0, .ro, .hw⟩
/-! CRY_SLOT (Table 14.6) -/
def CRY_SLOT_DRAIN (k : Nat) : Fld := ⟨0x700048 + bankStep * k, 0, 0, 0, .wo, .tick⟩
/-! CRY_CHAN (Table 14.7) -/
def CRY_CHAN_STEWARD (c : Nat) : Fld := ⟨0x700100 + 0x80 * c, 1, 1, 0, .rw1s, .tick⟩
def CRY_CHAN_HEADLAND (c : Nat) : Fld := ⟨0x700100 + 0x80 * c, 0, 0, 0, .rw1s, .tick⟩
/-! CRY_CHAN_CMD (Table 14.7) -/
def CRY_CHAN_CMD_GO (c : Nat) : Fld := ⟨0x700108 + 0x80 * c, 63, 63, 0, .wo, .tick⟩
def CRY_CHAN_CMD_CMD (c : Nat) : Fld := ⟨0x700108 + 0x80 * c, 38, 36, 0, .rw, .tick⟩
def CRY_CHAN_CMD_SLOT (c : Nat) : Fld := ⟨0x700108 + 0x80 * c, 35, 22, 0, .rw, .tick⟩
def CRY_CHAN_CMD_RECORD (c : Nat) : Fld := ⟨0x700108 + 0x80 * c, 20, 0, 0, .rw, .tick⟩
/-! CRY_CHAN (Table 14.7) -/
def CRY_CHAN_BUSY (c : Nat) : Fld := ⟨0x700110 + 0x80 * c, 63, 63, 0, .ro, .hw⟩
def CRY_CHAN_RESULT (c : Nat) : Fld := ⟨0x700110 + 0x80 * c, 7, 0, 0, .ro, .hw⟩
/-! CRY_CHAN (Table 14.7) -/
def CRY_CHAN_DATA (c w : Nat) : Fld := ⟨0x700140 + 0x80 * c + 8 * w, 63, 0, 0, .wo, .tick⟩
/-! TEN_ID (Table 15.4) -/
def TEN_ID_TDI_STATE (t : Nat) : Fld := ⟨0x10000000000 + 0x4000 * t, 18, 16, 0, .ro, .hw⟩
def TEN_ID_NVME (t : Nat) : Fld := ⟨0x10000000000 + 0x4000 * t, 12, 12, 0, .ro, .hw⟩
def TEN_ID_STEWARD (t : Nat) : Fld := ⟨0x10000000000 + 0x4000 * t, 11, 11, 0, .ro, .hw⟩
def TEN_ID_LINK (t : Nat) : Fld := ⟨0x10000000000 + 0x4000 * t, 10, 10, 0, .ro, .hw⟩
def TEN_ID_TID (t : Nat) : Fld := ⟨0x10000000000 + 0x4000 * t, 8, 0, 0, .ro, .hw⟩
/-! TEN_STATUS (Table 15.4) -/
def TEN_STATUS_LOST_COMPLETIONS (t : Nat) : Fld := ⟨0x10000000008 + 0x4000 * t, 63, 32, 0, .rc, .hw⟩
def TEN_STATUS_POST_DROPPED (t : Nat) : Fld := ⟨0x10000000008 + 0x4000 * t, 3, 3, 0, .rw1c, .tick⟩
def TEN_STATUS_RX_TOO_LONG (t : Nat) : Fld := ⟨0x10000000008 + 0x4000 * t, 2, 2, 0, .rw1c, .tick⟩
def TEN_STATUS_DOORBELL_BAD (t : Nat) : Fld := ⟨0x10000000008 + 0x4000 * t, 1, 1, 0, .rw1c, .tick⟩
def TEN_STATUS_QUEUES_STALE (t : Nat) : Fld := ⟨0x10000000008 + 0x4000 * t, 0, 0, 0, .rw1c, .tick⟩
/-! TEN_QSEL (Table 15.4) -/
def TEN_QSEL_QTYPE (t : Nat) : Fld := ⟨0x10000000010 + 0x4000 * t, 17, 16, 0, .rw, .tick⟩
def TEN_QSEL_QINDEX (t : Nat) : Fld := ⟨0x10000000010 + 0x4000 * t, 7, 0, 0, .rw, .tick⟩
/-! TEN_Q (Table 15.4) -/
def TEN_Q_QBASE (t k : Nat) : Fld := ⟨0x10000000018 + 0x4000 * t + bankStep * k, 63, 12, 0, .rw, .tick⟩
/-! TEN_Q (Table 15.4) -/
def TEN_Q_ENABLE (t k : Nat) : Fld := ⟨0x10000000020 + 0x4000 * t + bankStep * k, 63, 63, 0, .rw, .tick⟩
def TEN_Q_ENABLE_REFUSED (t k : Nat) : Fld := ⟨0x10000000020 + 0x4000 * t + bankStep * k, 62, 62, 0, .ro, .hw⟩
def TEN_Q_VECTOR (t k : Nat) : Fld := ⟨0x10000000020 + 0x4000 * t + bankStep * k, 55, 48, 0, .rw, .tick⟩
def TEN_Q_BIND (t k : Nat) : Fld := ⟨0x10000000020 + 0x4000 * t + bankStep * k, 37, 32, 0, .rw, .tick⟩
def TEN_Q_SIZE_LOG2 (t k : Nat) : Fld := ⟨0x10000000020 + 0x4000 * t + bankStep * k, 4, 0, 6, .rw, .tick⟩
/-! TEN_Q (Table 15.4) -/
def TEN_Q_HEAD (t k : Nat) : Fld := ⟨0x10000000028 + 0x4000 * t + bankStep * k, 47, 32, 0, .ro, .hw⟩
def TEN_Q_TAIL (t k : Nat) : Fld := ⟨0x10000000028 + 0x4000 * t + bankStep * k, 15, 0, 0, .ro, .hw⟩
/-! TEN (Table 15.4) -/
def TEN_RQ_QUOTA (t : Nat) : Fld := ⟨0x10000000030 + 0x4000 * t, 47, 32, 0, .ro, .hw⟩
def TEN_CQ_QUOTA (t : Nat) : Fld := ⟨0x10000000030 + 0x4000 * t, 23, 16, 0, .ro, .hw⟩
def TEN_SQ_QUOTA (t : Nat) : Fld := ⟨0x10000000030 + 0x4000 * t, 7, 0, 0, .ro, .hw⟩
/-! KON_TOKENS (Table 15.5) -/
def KON_TOKENS_TOKENS (t c : Nat) : Fld := ⟨0x10000001000 + 0x4000 * t + 8 * c, 31, 0, 0, .ro, .hw⟩
/-! KON_BUDGET (Table 15.5) -/
def KON_BUDGET_DEPTH (t c : Nat) : Fld := ⟨0x10000001020 + 0x4000 * t + 8 * c, 63, 32, 0, .ro, .hw⟩
def KON_BUDGET_RATE (t c : Nat) : Fld := ⟨0x10000001020 + 0x4000 * t + 8 * c, 31, 8, 0, .ro, .hw⟩
/-! KON_CT (Table 15.5) -/
def KON_CT_ENABLE (t k : Nat) : Fld := ⟨0x10000001040 + 0x4000 * t + 8 * k, 63, 63, 0, .ro, .hw⟩
def KON_CT_BOUND (t k : Nat) : Fld := ⟨0x10000001040 + 0x4000 * t + 8 * k, 22, 0, 0, .ro, .hw⟩
/-! KON (Table 15.5) -/
def KON_COUNT (t n : Nat) : Fld := ⟨0x10000001100 + 0x4000 * t + 8 * n, 63, 0, 0, .ro, .hw⟩
/-! TEN (Table 15.5) -/
def TEN_TRING_BASE (t : Nat) : Fld := ⟨0x10000001180 + 0x4000 * t, 63, 12, 0, .rw, .tick⟩
/-! TEN (Table 15.5) -/
def TEN_TRING_EN (t : Nat) : Fld := ⟨0x10000001188 + 0x4000 * t, 63, 63, 0, .rw, .tick⟩
def TEN_TRING_TAIL (t : Nat) : Fld := ⟨0x10000001188 + 0x4000 * t, 47, 32, 0, .ro, .hw⟩
def TEN_TRING_SIZE_LOG2 (t : Nat) : Fld := ⟨0x10000001188 + 0x4000 * t, 4, 0, 6, .rw, .tick⟩
/-! TEN (Table 15.5) -/
def TEN_TRING_HEAD (t : Nat) : Fld := ⟨0x10000001190 + 0x4000 * t, 15, 0, 0, .rw, .tick⟩
/-! TEN (Table 15.5) -/
def TEN_TRING_LOST (t : Nat) : Fld := ⟨0x10000001198 + 0x4000 * t, 31, 0, 0, .rc, .hw⟩
/-! HST_LINK (Table 15.8) -/
def HST_LINK_TAGS_IN_USE (l : Nat) : Fld := ⟨0x800000 + 8 * l, 45, 32, 0, .ro, .hw⟩
def HST_LINK_DEGRADED (l : Nat) : Fld := ⟨0x800000 + 8 * l, 16, 16, 0, .ro, .hw⟩
def HST_LINK_WIDTH (l : Nat) : Fld := ⟨0x800000 + 8 * l, 15, 8, 0, .ro, .hw⟩
def HST_LINK_SPEED (l : Nat) : Fld := ⟨0x800000 + 8 * l, 7, 4, 0, .ro, .hw⟩
def HST_LINK_FLIT (l : Nat) : Fld := ⟨0x800000 + 8 * l, 3, 3, 0, .ro, .hw⟩
def HST_LINK_TAG_MODE (l : Nat) : Fld := ⟨0x800000 + 8 * l, 2, 1, 0, .ro, .hw⟩
def HST_LINK_LINK_UP (l : Nat) : Fld := ⟨0x800000 + 8 * l, 0, 0, 0, .ro, .hw⟩
/-! HST_IDS (Table 15.8) -/
def HST_IDS_SUBSYS_VENDOR : Fld := ⟨0x800010, 31, 16, 0xec4a, .rw, .reset⟩
def HST_IDS_SUBSYS_ID : Fld := ⟨0x800010, 15, 0, 0, .rw, .reset⟩
/-! HST_MGMT (Table 15.8) -/
def HST_MGMT_PENDING_EVENTS : Fld := ⟨0x800018, 63, 32, 0, .ro, .hw⟩
def HST_MGMT_VECTOR : Fld := ⟨0x800018, 7, 0, 0, .rw, .tick⟩
/-! HST_MGMT (Table 15.8) -/
def HST_MGMT_CAUSE : Fld := ⟨0x800020, 10, 0, 0, .rw1c, .tick⟩
/-! HST_TENANT_SELECT (Table 15.9) -/
def HST_TENANT_SELECT_TID : Fld := ⟨0x800028, 8, 0, 0, .rw, .tick⟩
/-! HST_TEN (Table 15.9) -/
def HST_TEN_IOVA_BASE (k : Nat) : Fld := ⟨0x800030 + bankStep * k, 63, 12, 0, .rw, .epoch⟩
/-! HST_TEN (Table 15.9) -/
def HST_TEN_RX_HOLD_KIB (k : Nat) : Fld := ⟨0x800038 + bankStep * k, 63, 48, 0x40, .rw, .epoch⟩
def HST_TEN_RQ_QUOTA (k : Nat) : Fld := ⟨0x800038 + bankStep * k, 40, 32, 0, .rw, .epoch⟩
def HST_TEN_CQ_QUOTA (k : Nat) : Fld := ⟨0x800038 + bankStep * k, 22, 16, 0, .rw, .epoch⟩
def HST_TEN_SQ_QUOTA (k : Nat) : Fld := ⟨0x800038 + bankStep * k, 6, 0, 0, .rw, .epoch⟩
/-! HST_TEN (Table 15.9) -/
def HST_TEN_TDI_STATE (k : Nat) : Fld := ⟨0x800040 + bankStep * k, 6, 4, 0, .ro, .hw⟩
def HST_TEN_D3 (k : Nat) : Fld := ⟨0x800040 + bankStep * k, 3, 3, 0, .ro, .hw⟩
def HST_TEN_MSE (k : Nat) : Fld := ⟨0x800040 + bankStep * k, 2, 2, 0, .ro, .hw⟩
def HST_TEN_BME (k : Nat) : Fld := ⟨0x800040 + bankStep * k, 1, 1, 0, .ro, .hw⟩
def HST_TEN_FLR_ACTIVE (k : Nat) : Fld := ⟨0x800040 + bankStep * k, 0, 0, 0, .ro, .hw⟩
/-! HST_PCFG (Table 15.9) -/
def HST_PCFG_GO : Fld := ⟨0x800048, 63, 63, 0, .wo, .tick⟩
def HST_PCFG_WRITE : Fld := ⟨0x800048, 62, 62, 0, .rw, .tick⟩
def HST_PCFG_BUSY : Fld := ⟨0x800048, 61, 61, 0, .ro, .hw⟩
def HST_PCFG_CFG_STATUS : Fld := ⟨0x800048, 60, 58, 0, .ro, .hw⟩
def HST_PCFG_BUS : Fld := ⟨0x800048, 35, 28, 0, .rw, .tick⟩
def HST_PCFG_DEV : Fld := ⟨0x800048, 27, 23, 0, .rw, .tick⟩
def HST_PCFG_FN : Fld := ⟨0x800048, 22, 20, 0, .rw, .tick⟩
def HST_PCFG_REG : Fld := ⟨0x800048, 11, 2, 0, .rw, .tick⟩
/-! HST_PCFG (Table 15.9) -/
def HST_PCFG_DATA : Fld := ⟨0x800050, 31, 0, 0, .rw, .tick⟩
/-! HST_RP (Table 15.10) -/
def HST_RP_DMA_SHOAL (n : Nat) : Fld := ⟨0x800100 + 0x20 * n, 63, 60, 0, .rw, .epoch⟩
def HST_RP_HP_CHANNEL (n : Nat) : Fld := ⟨0x800100 + 0x20 * n, 59, 47, 0, .rw, .tick⟩
def HST_RP_HP_MSG_EN (n : Nat) : Fld := ⟨0x800100 + 0x20 * n, 46, 46, 0, .rw, .tick⟩
def HST_RP_PWR_ON_DELAY_MS (n : Nat) : Fld := ⟨0x800100 + 0x20 * n, 15, 0, 0x64, .rw, .tick⟩
/-! HST_RP (Table 15.10) -/
def HST_RP_SPEED (n : Nat) : Fld := ⟨0x800108 + 0x20 * n, 7, 4, 0, .ro, .hw⟩
def HST_RP_PERST_ASSERTED (n : Nat) : Fld := ⟨0x800108 + 0x20 * n, 3, 3, 1, .ro, .hw⟩
def HST_RP_POWERED (n : Nat) : Fld := ⟨0x800108 + 0x20 * n, 2, 2, 0, .ro, .hw⟩
def HST_RP_PRESENT (n : Nat) : Fld := ⟨0x800108 + 0x20 * n, 1, 1, 0, .ro, .hw⟩
def HST_RP_LINK_UP (n : Nat) : Fld := ⟨0x800108 + 0x20 * n, 0, 0, 0, .ro, .hw⟩
/-! HST_RP (Table 15.10) -/
def HST_RP_SURPRISE_REMOVALS (n : Nat) : Fld := ⟨0x800110 + 0x20 * n, 63, 32, 0, .rc, .hw⟩
def HST_RP_POWER_FAULTS (n : Nat) : Fld := ⟨0x800110 + 0x20 * n, 31, 0, 0, .rc, .hw⟩
/-! HST_CNT (Table 15.10) -/
def HST_CNT_COUNT (l m : Nat) : Fld := ⟨0x801000 + 0x100 * l + 8 * m, 63, 0, 0, .ro, .hw⟩
/-! MEM_SOURCE (Table 16.1) -/
def MEM_SOURCE_CORRECTED (i : Nat) : Fld := ⟨0x901000 + 8 * i, 63, 32, 0, .rc, .hw⟩
def MEM_SOURCE_UNCORRECTABLE (i : Nat) : Fld := ⟨0x901000 + 8 * i, 31, 16, 0, .rc, .hw⟩
def MEM_SOURCE_DONE (i : Nat) : Fld := ⟨0x901000 + 8 * i, 3, 3, 0, .wo, .tick⟩
def MEM_SOURCE_HANDLING (i : Nat) : Fld := ⟨0x901000 + 8 * i, 2, 2, 0, .ro, .hw⟩
def MEM_SOURCE_LEVEL (i : Nat) : Fld := ⟨0x901000 + 8 * i, 1, 0, 0, .ro, .hw⟩
/-! MEM_CFG (Table 16.5) -/
def MEM_CFG_RATE_MTS : Fld := ⟨0x900000, 47, 32, 0x1900, .rw, .reset⟩
def MEM_CFG_CHANNELS : Fld := ⟨0x900000, 3, 0, 8, .rw, .reset⟩
/-! MEM_TRAIN (Table 16.5) -/
def MEM_TRAIN_GO : Fld := ⟨0x900008, 63, 63, 0, .wo, .tick⟩
def MEM_TRAIN_HBM_FAIL : Fld := ⟨0x900008, 19, 18, 0, .ro, .hw⟩
def MEM_TRAIN_DDR_FAIL : Fld := ⟨0x900008, 17, 10, 0, .ro, .hw⟩
def MEM_TRAIN_DONE : Fld := ⟨0x900008, 9, 9, 0, .ro, .hw⟩
/-! MEM (Table 16.5) -/
def MEM_DDR_BYTES : Fld := ⟨0x900010, 63, 0, 0, .ro, .hw⟩
/-! MEM (Table 16.5) -/
def MEM_PATROL_EN : Fld := ⟨0x900018, 8, 8, 1, .rw, .epoch⟩
def MEM_PATROL_BURSTS : Fld := ⟨0x900018, 7, 0, 1, .rw, .epoch⟩
/-! MEM_FW_SELECT (Table 16.6) -/
def MEM_FW_SELECT_REGION : Fld := ⟨0x900100, 7, 0, 0, .rw, .tick⟩
/-! MEM_FW (Table 16.6) -/
def MEM_FW_BASE (k : Nat) : Fld := ⟨0x900108 + bankStep * k, 47, 16, 0, .rw, .epoch⟩
/-! MEM_FW (Table 16.6) -/
def MEM_FW_LIMIT (k : Nat) : Fld := ⟨0x900110 + bankStep * k, 47, 16, 0, .rw, .epoch⟩
/-! MEM_FW (Table 16.6) -/
def MEM_FW_OWNER_KIND (k : Nat) : Fld := ⟨0x900118 + bankStep * k, 63, 62, 0, .rw, .epoch⟩
def MEM_FW_TID (k : Nat) : Fld := ⟨0x900118 + bankStep * k, 61, 53, 0, .rw, .epoch⟩
def MEM_FW_SHOALS (k : Nat) : Fld := ⟨0x900118 + bankStep * k, 52, 37, 0, .rw, .epoch⟩
def MEM_FW_EXEC (k : Nat) : Fld := ⟨0x900118 + bankStep * k, 34, 34, 0, .rw, .epoch⟩
def MEM_FW_WRITE (k : Nat) : Fld := ⟨0x900118 + bankStep * k, 33, 33, 0, .rw, .epoch⟩
def MEM_FW_READ (k : Nat) : Fld := ⟨0x900118 + bankStep * k, 32, 32, 0, .rw, .epoch⟩
/-! MEM_FW (Table 16.6) -/
def MEM_FW_FW_REFUSED : Fld := ⟨0x900120, 0, 0, 0, .rw1c, .tick⟩
/-! MEM_FW (Table 16.6) -/
def MEM_FW_CTL (s : Nat) : Fld := ⟨0x900200 + 8 * s, 16, 0, 0, .rw, .epoch⟩
/-! ERR_CTRL (Table 16.7) -/
def ERR_CTRL_MEM_SHOAL : Fld := ⟨0xd00000, 4, 1, 0, .rw, .epoch⟩
def ERR_CTRL_ENABLE : Fld := ⟨0xd00000, 0, 0, 0, .rw, .tick⟩
/-! ERR (Table 16.7) -/
def ERR_RING_BASE : Fld := ⟨0xd00008, 47, 21, 0, .rw, .tick⟩
/-! ERR (Table 16.7) -/
def ERR_RING_HEAD : Fld := ⟨0xd00010, 47, 32, 0, .rw, .tick⟩
def ERR_RING_TAIL : Fld := ⟨0xd00010, 15, 0, 0, .ro, .hw⟩
/-! ERR_STATUS (Table 16.7) -/
def ERR_STATUS_OVERFLOW : Fld := ⟨0xd00018, 63, 32, 0, .rc, .hw⟩
def ERR_STATUS_FIFO_COUNT : Fld := ⟨0xd00018, 10, 2, 0, .ro, .hw⟩
def ERR_STATUS_FATAL : Fld := ⟨0xd00018, 1, 1, 0, .ro, .hw⟩
def ERR_STATUS_FIRST_VALID : Fld := ⟨0xd00018, 0, 0, 0, .rw1c, .tick⟩
/-! ERR (Table 16.7) -/
def ERR_FIRST (w : Nat) : Fld := ⟨0xd00020 + 8 * w, 63, 0, 0, .ro, .hw⟩
/-! ERR (Table 16.7) -/
def ERR_LAST (w : Nat) : Fld := ⟨0xd00040 + 8 * w, 63, 0, 0, .ro, .hw⟩
/-! ERR (Table 16.7) -/
def ERR_KIND_COUNT (k : Nat) : Fld := ⟨0xd00100 + 8 * k, 31, 0, 0, .rc, .hw⟩
/-! HDL_STATUS (Table 17.5) -/
def HDL_STATUS_STAGE : Fld := ⟨0xa00000, 63, 56, 1, .ro, .hw⟩
def HDL_STATUS_FAIL_CAUSE : Fld := ⟨0xa00000, 55, 48, 0, .ro, .hw⟩
def HDL_STATUS_FAIL_SLOT : Fld := ⟨0xa00000, 41, 40, 0, .ro, .hw⟩
def HDL_STATUS_HOLDUP_STOP : Fld := ⟨0xa00000, 15, 15, 0, .ro, .hw⟩
def HDL_STATUS_PF_SUMMARY_VALID : Fld := ⟨0xa00000, 14, 14, 0, .ro, .hw⟩
def HDL_STATUS_FALLBACK : Fld := ⟨0xa00000, 13, 13, 0, .ro, .hw⟩
def HDL_STATUS_BOOT_CONFIRMED : Fld := ⟨0xa00000, 12, 12, 0, .ro, .hw⟩
def HDL_STATUS_APPROVED : Fld := ⟨0xa00000, 11, 11, 0, .ro, .hw⟩
def HDL_STATUS_SELFTEST_FAIL : Fld := ⟨0xa00000, 10, 10, 0, .ro, .hw⟩
def HDL_STATUS_WAIT_STEWARD : Fld := ⟨0xa00000, 9, 9, 0, .ro, .hw⟩
def HDL_STATUS_BOOT_SRC : Fld := ⟨0xa00000, 8, 8, 0, .ro, .hw⟩
def HDL_STATUS_ACTIVE_SLOT : Fld := ⟨0xa00000, 1, 0, 3, .ro, .hw⟩
/-! HDL_CONTROL (Table 17.5) -/
def HDL_CONTROL_ZEROISE : Fld := ⟨0xa00008, 2, 2, 0, .wo, .tick⟩
def HDL_CONTROL_BWK_RELEASE : Fld := ⟨0xa00008, 1, 1, 0, .rw1s, .tick⟩
def HDL_CONTROL_KEY_LOCK : Fld := ⟨0xa00008, 0, 0, 0, .rw1s, .tick⟩
/-! HDL_SHOALS (Table 17.5) -/
def HDL_SHOALS_PENDING : Fld := ⟨0xa00010, 47, 32, 0, .ro, .hw⟩
def HDL_SHOALS_REQ : Fld := ⟨0xa00010, 31, 16, 0, .wo, .tick⟩
def HDL_SHOALS_RELEASE : Fld := ⟨0xa00010, 15, 0, 0, .wo, .tick⟩
/-! HDL_FUSES (Table 17.6) -/
def HDL_FUSES_SHL_COUNTER : Fld := ⟨0xa00020, 40, 32, 0, .ro, .hw⟩
def HDL_FUSES_KEY_REVOKED : Fld := ⟨0xa00020, 19, 16, 0, .ro, .hw⟩
def HDL_FUSES_HDL_COUNTER : Fld := ⟨0xa00020, 8, 0, 0, .ro, .hw⟩
/-! HDL_FUSE_CTL (Table 17.6) -/
def HDL_FUSE_CTL_GO : Fld := ⟨0xa00028, 63, 63, 0, .wo, .tick⟩
def HDL_FUSE_CTL_BUSY : Fld := ⟨0xa00028, 62, 62, 0, .ro, .hw⟩
def HDL_FUSE_CTL_WHICH : Fld := ⟨0xa00028, 61, 60, 0, .rw, .tick⟩
def HDL_FUSE_CTL_RESULT : Fld := ⟨0xa00028, 59, 56, 0, .ro, .hw⟩
def HDL_FUSE_CTL_KEY_SET : Fld := ⟨0xa00028, 1, 0, 0, .rw, .tick⟩
/-! HDL_IMAGE (Table 17.6) -/
def HDL_IMAGE_HDL_SVN : Fld := ⟨0xa00030, 63, 55, 0, .ro, .hw⟩
def HDL_IMAGE_SHL_SVN : Fld := ⟨0xa00030, 54, 46, 0, .ro, .hw⟩
def HDL_IMAGE_KEY_SET : Fld := ⟨0xa00030, 45, 44, 0, .ro, .hw⟩
def HDL_IMAGE_SEQ_LOW : Fld := ⟨0xa00030, 39, 0, 0, .ro, .hw⟩
/-! HDL_BOOT (Table 17.6) -/
def HDL_BOOT_TRIES : Fld := ⟨0xa00038, 15, 8, 0, .ro, .hw⟩
def HDL_BOOT_PF_ACK : Fld := ⟨0xa00038, 2, 2, 0, .wo, .tick⟩
def HDL_BOOT_RELEASE_GO : Fld := ⟨0xa00038, 1, 1, 0, .wo, .tick⟩
def HDL_BOOT_CONFIRM : Fld := ⟨0xa00038, 0, 0, 0, .wo, .tick⟩
/-! HDL_XFER (Table 17.6) -/
def HDL_XFER_ADDR : Fld := ⟨0xa00040, 63, 0, 0, .rw, .tick⟩
/-! HDL_XFER_CTL (Table 17.6) -/
def HDL_XFER_CTL_GO : Fld := ⟨0xa00048, 63, 63, 0, .wo, .tick⟩
def HDL_XFER_CTL_BUSY : Fld := ⟨0xa00048, 62, 62, 0, .ro, .hw⟩
def HDL_XFER_CTL_OP : Fld := ⟨0xa00048, 61, 60, 0, .rw, .tick⟩
def HDL_XFER_CTL_RESULT : Fld := ⟨0xa00048, 59, 56, 0, .ro, .hw⟩
def HDL_XFER_CTL_LENGTH : Fld := ⟨0xa00048, 27, 0, 0, .rw, .tick⟩
/-! HDL_STRAND_SELECT (Table 17.7) -/
def HDL_STRAND_SELECT_WORD : Fld := ⟨0xa00050, 11, 0, 0, .rw, .tick⟩
/-! HDL_STRAND (Table 17.7) -/
def HDL_STRAND_WORN (k : Nat) : Fld := ⟨0xa00058 + bankStep * k, 63, 63, 0, .ro, .hw⟩
def HDL_STRAND_WORN_SOON (k : Nat) : Fld := ⟨0xa00058 + bankStep * k, 62, 62, 0, .ro, .hw⟩
def HDL_STRAND_WEAR (k : Nat) : Fld := ⟨0xa00058 + bankStep * k, 26, 0, 0, .ro, .hw⟩
/-! HDL_STRAND (Table 17.7) -/
def HDL_STRAND_DISCARDED : Fld := ⟨0xa00060, 63, 32, 0, .rc, .hw⟩
def HDL_STRAND_WORN_SOON_SEEN : Fld := ⟨0xa00060, 1, 1, 0, .rw1c, .tick⟩
def HDL_STRAND_STRAND_WORN : Fld := ⟨0xa00060, 0, 0, 0, .rw1c, .tick⟩
/-! MON_SET_SELECT (Table 18.5) -/
def MON_SET_SELECT_SET_TYPE : Fld := ⟨0xc00000, 13, 12, 0, .rw, .tick⟩
def MON_SET_SELECT_SET_INDEX : Fld := ⟨0xc00000, 11, 0, 0, .rw, .tick⟩
/-! MON_SNAP (Table 18.5) -/
def MON_SNAP_SNAP : Fld := ⟨0xc00008, 63, 63, 0, .wo, .tick⟩
def MON_SNAP_CLEAR : Fld := ⟨0xc00008, 62, 62, 0, .wo, .tick⟩
def MON_SNAP_BUF : Fld := ⟨0xc00008, 1, 0, 0, .wo, .tick⟩
/-! MON_GOV (Table 18.5) -/
def MON_GOV_P01 (c : Nat) : Fld := ⟨0xc00040 + 8 * c, 63, 32, 0, .ro, .hw⟩
def MON_GOV_GOV_COUNT (c : Nat) : Fld := ⟨0xc00040 + 8 * c, 31, 0, 0, .ro, .hw⟩
/-! MON_QMON_SELECT (Table 18.5) -/
def MON_QMON_SELECT_QMON : Fld := ⟨0xc00060, 9, 0, 0, .rw, .tick⟩
/-! MON_QMON (Table 18.5) -/
def MON_QMON_ENABLE (k : Nat) : Fld := ⟨0xc00068 + bankStep * k, 63, 63, 0, .rw, .tick⟩
def MON_QMON_QTYPE (k : Nat) : Fld := ⟨0xc00068 + bankStep * k, 31, 28, 0, .rw, .tick⟩
def MON_QMON_QINDEX (k : Nat) : Fld := ⟨0xc00068 + bankStep * k, 23, 0, 0, .rw, .tick⟩
/-! MON_BIST (Table 18.5) -/
def MON_BIST_GO : Fld := ⟨0xc00080, 63, 63, 0, .wo, .tick⟩
def MON_BIST_BUSY : Fld := ⟨0xc00080, 62, 62, 0, .ro, .hw⟩
def MON_BIST_DONE : Fld := ⟨0xc00080, 61, 61, 0, .rw1c, .tick⟩
def MON_BIST_BIST_REFUSED : Fld := ⟨0xc00080, 60, 60, 0, .rw1c, .tick⟩
def MON_BIST_RUNNING_TARGET : Fld := ⟨0xc00080, 39, 32, 0, .ro, .hw⟩
def MON_BIST_TARGET : Fld := ⟨0xc00080, 4, 0, 0, .rw, .tick⟩
/-! MON_BIST (Table 18.5) -/
def MON_BIST_TESTED : Fld := ⟨0xc00088, 55, 32, 0, .ro, .hw⟩
def MON_BIST_PASS : Fld := ⟨0xc00088, 23, 0, 0, .ro, .hw⟩
/-! MON (Table 18.5) -/
def MON_OOB_WRITE_BLOCKS : Fld := ⟨0xc00090, 16, 0, 0, .rw, .tick⟩
/-! MON (Table 18.5) -/
def MON_TAP_ACCESS_SEEN : Fld := ⟨0xc00098, 1, 1, 0, .rw1c, .tick⟩
def MON_DEBUG_EN : Fld := ⟨0xc00098, 0, 0, 0, .rw, .tick⟩
/-! MON_PIN (Table 18.5) -/
def MON_PIN_ENABLE (i : Nat) : Fld := ⟨0xc00100 + 8 * i, 7, 7, 1, .rw, .tick⟩
def MON_PIN_SEEN (i : Nat) : Fld := ⟨0xc00100 + 8 * i, 3, 3, 0, .rw1c, .tick⟩
def MON_PIN_FAULT (i : Nat) : Fld := ⟨0xc00100 + 8 * i, 2, 0, 0, .ro, .hw⟩
/-! MON_TEMP (Table 18.5) -/
def MON_TEMP_TEMP_MAX (i : Nat) : Fld := ⟨0xc00400 + 8 * i, 47, 32, 0x8000, .rc, .hw⟩
def MON_TEMP_TEMP (i : Nat) : Fld := ⟨0xc00400 + 8 * i, 15, 0, 0, .ro, .hw⟩
/-! MON (Table 18.5) -/
def MON_POWER (g : Nat) : Fld := ⟨0xc00500 + 8 * g, 15, 0, 0, .ro, .hw⟩
/-! MON_SIG (Table 18.5) -/
def MON_SIG_SIG (t w : Nat) : Fld := ⟨0xc02000 + 0x20 * t + 8 * w, 63, 0, 0, .ro, .hw⟩
/-! MON_BUF (Table 18.6) -/
def MON_BUF_READY (b : Nat) : Fld := ⟨0xc01000 + 0x400 * b, 63, 63, 0, .ro, .hw⟩
def MON_BUF_SET_TYPE (b : Nat) : Fld := ⟨0xc01000 + 0x400 * b, 45, 44, 0, .ro, .hw⟩
def MON_BUF_SET_INDEX (b : Nat) : Fld := ⟨0xc01000 + 0x400 * b, 43, 32, 0, .ro, .hw⟩
def MON_BUF_SNAP_AT (b : Nat) : Fld := ⟨0xc01000 + 0x400 * b, 31, 0, 0, .ro, .hw⟩
/-! MON_BUF (Table 18.6) -/
def MON_BUF_COUNT (b : Nat) : Fld := ⟨0xc01008 + 0x400 * b, 63, 0, 0, .ro, .hw⟩
/-! MON_BUF (Table 18.6) -/
def MON_BUF_SUM (b : Nat) : Fld := ⟨0xc01010 + 0x400 * b, 63, 0, 0, .ro, .hw⟩
/-! MON_BUF (Table 18.6) -/
def MON_BUF_MAX (b : Nat) : Fld := ⟨0xc01018 + 0x400 * b, 63, 32, 0, .ro, .hw⟩
def MON_BUF_MIN (b : Nat) : Fld := ⟨0xc01018 + 0x400 * b, 31, 0, 0xffffffff, .ro, .hw⟩
/-! MON_BUF (Table 18.6) -/
def MON_BUF_ENV_LATE (b : Nat) : Fld := ⟨0xc01020 + 0x400 * b, 63, 32, 0, .ro, .hw⟩
def MON_BUF_LATE (b : Nat) : Fld := ⟨0xc01020 + 0x400 * b, 31, 0, 0, .ro, .hw⟩
/-! MON_BUF (Table 18.6) -/
def MON_BUF_MIN_MARGIN (b : Nat) : Fld := ⟨0xc01028 + 0x400 * b, 63, 32, 0x7fffffff, .ro, .hw⟩
/-! MON_BUF (Table 18.6) -/
def MON_BUF_LAT_BIN (b i : Nat) : Fld := ⟨0xc01100 + 0x400 * b + 8 * i, 63, 0, 0, .ro, .hw⟩
/-! MON_BUF (Table 18.6) -/
def MON_BUF_MARGIN_BIN (b i : Nat) : Fld := ⟨0xc01200 + 0x400 * b + 8 * i, 63, 0, 0, .ro, .hw⟩
/-! CAL_GATE_ENTRY (Table 4.4) -/
def CAL_GATE_ENTRY_W (p e : Nat) : Fld := ⟨0x50000 + 0x2000 * p + 8 * e, 63, 0, 0, .rw, .epoch⟩
/-! PRS_STATE (Table 10.3) -/
def PRS_STATE_W (s w : Nat) : Fld := ⟨0x310000 + 0x20 * s + 8 * w, 63, 0, 0, .rw, .epoch⟩
/-! PRS_TRANS (Table 10.4) -/
def PRS_TRANS_W (i : Nat) : Fld := ⟨0x320000 + 8 * i, 63, 0, 0, .rw, .epoch⟩
/-! PRS_CNT (Table 10.13) -/
def PRS_CNT_COUNT (n : Nat) : Fld := ⟨0x300900 + 8 * n, 63, 0, 0, .ro, .hw⟩
/-! PRS_CNT (Table 10.13) -/
def PRS_CNT_EXC_SENT (r : Nat) : Fld := ⟨0x300800 + 8 * r, 63, 0, 0, .ro, .hw⟩
/-! PRS_CNT (Table 10.13) -/
def PRS_CNT_EXC_DROP (r : Nat) : Fld := ⟨0x300880 + 8 * r, 63, 0, 0, .ro, .hw⟩
/-! PRS_CNT (Table 10.13) -/
def PRS_CNT_MIRRORED (m : Nat) : Fld := ⟨0x300a00 + 8 * m, 63, 0, 0, .ro, .hw⟩
/-! PRS_CNT (Table 10.13) -/
def PRS_CNT_MIRROR_DROP (m : Nat) : Fld := ⟨0x300c00 + 8 * m, 63, 0, 0, .ro, .hw⟩
/-! REEF_CNT (Table 11.5) -/
def REEF_CNT_COUNT (n : Nat) : Fld := ⟨0x400800 + 8 * n, 63, 0, 0, .ro, .hw⟩
/-! SWH_TMPL (Table R331) -/
def SWH_TMPL_W (t w : Nat) : Fld := ⟨0x580000 + 0x80 * t + 8 * w, 63, 0, 0, .rw, .epoch⟩
/-! SWH_CNT (Table 12.11) -/
def SWH_CNT_COUNT (n : Nat) : Fld := ⟨0x500200 + 8 * n, 63, 0, 0, .ro, .hw⟩
/-! STG_CNT (Table 13.10) -/
def STG_CNT_COUNT (n : Nat) : Fld := ⟨0x600100 + 8 * n, 63, 0, 0, .ro, .hw⟩
/-! CRY_CNT (Table 14.8) -/
def CRY_CNT_COUNT (n : Nat) : Fld := ⟨0x700800 + 8 * n, 63, 0, 0, .ro, .hw⟩

end Reg

open Reg in
/-- The registers of chapter 01. -/
def regs01 : List RegSpec := [
  ⟨0, 1, 0, 1, 0, .none, [DEV_IDENT_VENDOR, DEV_IDENT_PART_CODE, DEV_IDENT_STEP_LETTER, DEV_IDENT_STEP_NUMBER]⟩,
  ⟨8, 1, 0, 1, 0, .none, [DEV_FAMILY0_SHOALS, DEV_FAMILY0_CORES_PER_SHOAL, DEV_FAMILY0_THREADS_PER_CORE, DEV_FAMILY0_LANES, DEV_FAMILY0_PORTS_MAX, DEV_FAMILY0_HOST_LINKS, DEV_FAMILY0_FUNCS_PER_LINK, DEV_FAMILY0_HBM_STACKS, DEV_FAMILY0_DDR_CHANNELS, DEV_FAMILY0_ROOT_PORTS]⟩,
  ⟨0x10, 1, 0, 1, 0, .none, [DEV_FAMILY1_FLOW_LOG2, DEV_FAMILY1_PREFIX_LOG2, DEV_FAMILY1_CONN_LOG2, DEV_FAMILY1_WINDOW_LOG2, DEV_FAMILY1_DEADLINE_LOG2, DEV_FAMILY1_KEY_SLOT_LOG2, DEV_FAMILY1_WRAPPED_KEY_LOG2, DEV_FAMILY1_CHANNEL_LOG2]⟩,
  ⟨0x18, 1, 0, 1, 0, .none, [DEV_FAMILY2_SRAM_KIB_PER_SHOAL, DEV_FAMILY2_PKTBUF_MIB, DEV_FAMILY2_TCACHE_MIB, DEV_FAMILY2_HBM_STACK_GIB, DEV_FAMILY2_CIPHER_PER_SHOAL, DEV_FAMILY2_STRAND_LOG2, DEV_FAMILY2_LANE_GBPS]⟩,
  ⟨0x20, 1, 0, 1, 0, .none, [DEV_TIMING_CORE_MHZ, DEV_TIMING_TICK_CLOCKS, DEV_TIMING_SLOT_TICKS, DEV_TIMING_EPOCH_SLOTS]⟩,
  ⟨0x28, 1, 0, 1, 0, .none, [DEV_CAPS_TDISP, DEV_CAPS_IDE, DEV_CAPS_NVME, DEV_CAPS_SWASH, DEV_CAPS_INLINE_CIPHER, DEV_CAPS_LOOKASIDE_CIPHER]⟩,
  ⟨0x30, 1, 0, 1, 0, .none, [DEV_DIE_DIE_NUMBER]⟩,
  ⟨0x38, 1, 0, 1, 0, .none, [DEV_STATUS_SHOAL_RUN, DEV_STATUS_TEST_MODE, DEV_STATUS_BREAKWATER_LOST, DEV_STATUS_BREAKWATER_RELEASED, DEV_STATUS_KEY_LOCKED]⟩]

open Reg in
/-- The registers of chapter 02. -/
def regs02 : List RegSpec := [
  ⟨0x10000, 1, 0, 1, 0, .none, [TIDE_TIME_TIME]⟩,
  ⟨0x10008, 1, 0, 1, 0, .none, [TIDE_SLOT_SEQ_SLOT_SEQ]⟩,
  ⟨0x10010, 1, 0, 1, 0, .none, [TIDE_STATUS_ADMIT_HOLD, TIDE_STATUS_STEP_PENDING, TIDE_STATUS_PPS_IN_PRESENT, TIDE_STATUS_REF10M_PRESENT, TIDE_STATUS_REF10M_LOST, TIDE_STATUS_SOURCE_LOST, TIDE_STATUS_STEP_REFUSED, TIDE_STATUS_STATE]⟩,
  ⟨0x10018, 1, 0, 1, 0, .none, [TIDE_CONTROL_KP_SHIFT, TIDE_CONTROL_KI_SHIFT, TIDE_CONTROL_PTP_DOMAIN, TIDE_CONTROL_PTP_PORT, TIDE_CONTROL_PTP_ROLE, TIDE_CONTROL_DELAY_P2P, TIDE_CONTROL_PROFILE_AS, TIDE_CONTROL_TRANSPORT, TIDE_CONTROL_FREQ_REF, TIDE_CONTROL_SOURCE]⟩,
  ⟨0x10020, 1, 0, 1, 0, .none, [TIDE_LIMITS_SOURCE_TIMEOUT, TIDE_LIMITS_LOCK_COUNT, TIDE_LIMITS_LOCK_THRESH, TIDE_LIMITS_STEP_LIMIT]⟩,
  ⟨0x10028, 1, 0, 1, 0, .none, [TIDE_MEAS_OFFSET]⟩,
  ⟨0x10030, 1, 0, 1, 0, .none, [TIDE_OFFSET_LAST_OFFSET]⟩,
  ⟨0x10038, 1, 0, 1, 0, .none, [TIDE_RATE_INTEG, TIDE_RATE_RATE]⟩,
  ⟨0x10040, 1, 0, 1, 0, .none, [TIDE_FORCE_STEP_GO, TIDE_FORCE_STEP_USE_SOURCE, TIDE_FORCE_STEP_AMOUNT]⟩,
  ⟨0x10048, 1, 0, 1, 0, .none, [TIDE_COUNTS_PPS_IGNORED, TIDE_COUNTS_STEP_REFUSED]⟩,
  ⟨0x10050, 1, 0, 1, 0, .none, [TIDE_PPS_OUT_ENABLE, TIDE_PPS_OUT_SQUELCH_HOLDOVER, TIDE_PPS_OUT_WIDTH_MS, TIDE_PPS_OUT_OFFSET]⟩,
  ⟨0x10058, 1, 0, 1, 0, .none, [TIDE_PPS_IN_TS_EDGE_TIME]⟩,
  ⟨0x10060, 1, 0, 1, 0, .none, [TIDE_TIME_INIT_INIT]⟩]

open Reg in
/-- The registers of chapter 03. -/
def regs03 : List RegSpec := [
  ⟨0x20000, 1, 0, 1, 0, .none, [BWK_ENV_SPRING_OFFERED, BWK_ENV_HOST_READ_BOUND]⟩,
  ⟨0x20008, 1, 0, 1, 0, .none, [BWK_CT_SELECT_TID, BWK_CT_SELECT_KIND, BWK_CT_SELECT_CLASS]⟩,
  ⟨0x20010, 1, 0, 1, 0, .ct, [BWK_CT_DATA_ENABLE 0, BWK_CT_DATA_WRITE_REFUSED 0, BWK_CT_DATA_BOUND 0]⟩,
  ⟨0x20018, 1, 0, 1, 0, .none, [BWK_BUDGET_SELECT_TID, BWK_BUDGET_SELECT_CLASS]⟩,
  ⟨0x20020, 1, 0, 1, 0, .budget, [BWK_BUDGET_DATA_DEPTH 0, BWK_BUDGET_DATA_RATE 0]⟩,
  ⟨0x20028, 1, 0, 1, 0, .none, [BWK_BUDGET_TOKENS_TOKENS]⟩,
  ⟨0x20030, 1, 0, 1, 0, .none, [BWK_GOV_POLICY_F_MAX, BWK_GOV_POLICY_F_MIN, BWK_GOV_POLICY_H_MAX, BWK_GOV_POLICY_H_MIN, BWK_GOV_POLICY_MARGIN_TARGET, BWK_GOV_POLICY_T_LIMIT, BWK_GOV_POLICY_T_START]⟩,
  ⟨0x20038, 1, 0, 1, 0, .none, [BWK_GOV_APPLY_F, BWK_GOV_APPLY_H_SPRING, BWK_GOV_APPLY_H_FLOOD, BWK_GOV_APPLY_H_NEAP]⟩,
  ⟨0x20040, 1, 0, 1, 0, .none, [BWK_GOV_STATUS_F_EFF, BWK_GOV_STATUS_F_HW, BWK_GOV_STATUS_H_SPRING_EFF, BWK_GOV_STATUS_H_FLOOD_EFF, BWK_GOV_STATUS_H_NEAP_EFF, BWK_GOV_STATUS_T_MAX, BWK_GOV_STATUS_GOV_STALE, BWK_GOV_STATUS_CLAMPED]⟩,
  ⟨0x20048, 1, 0, 1, 0, .none, [BWK_ADMIT_PARAMS_DECIDE_PER_TICK, BWK_ADMIT_PARAMS_WAIT_MAX, BWK_ADMIT_PARAMS_HORIZON_SLOTS]⟩,
  ⟨0x20050, 2, 0x10000, 1, 0, .none, [BWK_DEADLINES_HIGH_WATER 0, BWK_DEADLINES_IN_FLIGHT 0]⟩,
  ⟨0x20080, 3, 0x40, 8, 8, .none, [BWK_COUNT_COUNT 0 0]⟩]

open Reg in
/-- The registers of chapter 04. -/
def regs04 : List RegSpec := [
  ⟨0x40000, 1, 0, 1, 0, .none, [CAL_INSPECT_SLOT_AHEAD, CAL_INSPECT_DIR, CAL_INSPECT_RES, CAL_INSPECT_INSTANCE]⟩,
  ⟨0x40008, 1, 0, 1, 0, .none, [CAL_BOOKED_GATE_STANDING, CAL_BOOKED_SPRING, CAL_BOOKED_FLOOD, CAL_BOOKED_NEAP]⟩,
  ⟨0x40010, 1, 0, 1, 0, .none, [CAL_CAPACITY_UNIT, CAL_CAPACITY_CAPACITY]⟩,
  ⟨0x40018, 1, 0, 1, 0, .none, [CAL_SHOAL_ST_FRONT_COST, CAL_SHOAL_ST_BACK_COST, CAL_SHOAL_COPY_COST, CAL_SHOAL_BOOKED_THREADS]⟩,
  ⟨0x40020, 1, 0, 1, 0, .none, [CAL_RESERVES_HBM_REEF_RESERVE, CAL_RESERVES_PKT_BOOKED_MIB, CAL_RESERVES_RETX_SHARE]⟩,
  ⟨0x40028, 1, 0, 1, 0, .none, [CAL_PKT_SPACE_SPACE_IN_USE_KIB]⟩,
  ⟨0x40030, 1, 0, 1, 0, .none, [CAL_TENANT_SELECT_TID]⟩,
  ⟨0x40038, 1, 0, 1, 0, .calTenant, [CAL_TENANT_TENANT_WEIGHT 0]⟩,
  ⟨0x40040, 1, 0, 1, 0, .none, [CAL_LEAF_SELECT_LEAF]⟩,
  ⟨0x40048, 1, 0, 1, 0, .calLeaf, [CAL_LEAF_WEIGHT 0, CAL_LEAF_SHAPE_RATE 0, CAL_LEAF_SHAPE_BURST 0]⟩,
  ⟨0x40050, 1, 0, 1, 0, .none, [CAL_QUEUE_SELECT_PORT, CAL_QUEUE_SELECT_QUEUE]⟩,
  ⟨0x40058, 1, 0, 1, 0, .calQueue, [CAL_QUEUE_SHAPER_RATE 0, CAL_QUEUE_SHAPER_BURST 0]⟩,
  ⟨0x40060, 1, 0, 1, 0, .none, [CAL_GATE_SELECT_PORT]⟩,
  ⟨0x40068, 1, 0, 1, 0, .gatePort, [CAL_GATE_CTRL_COMMIT 0, CAL_GATE_CTRL_ADMIN_ENABLE 0, CAL_GATE_CTRL_PENDING 0, CAL_GATE_CTRL_OPER_ENABLE 0, CAL_GATE_CTRL_OPER_LEN 0, CAL_GATE_CTRL_ADMIN_LEN 0]⟩,
  ⟨0x40070, 1, 0, 1, 0, .gatePort, [CAL_GATE_ADMIN_BASE 0]⟩,
  ⟨0x40078, 1, 0, 1, 0, .gatePort, [CAL_GATE_CYCLE_OPER_CYCLE_NS 0, CAL_GATE_CYCLE_ADMIN_CYCLE_NS 0]⟩,
  ⟨0x40080, 1, 0, 1, 0, .none, [CAL_POL_SELECT_POLICER]⟩,
  ⟨0x40088, 1, 0, 1, 0, .policer, [CAL_POL_ENABLE 0, CAL_POL_ACTIVE 0, CAL_POL_MODE 0, CAL_POL_COLOUR_AWARE 0, CAL_POL_YELLOW_DROP 0, CAL_POL_RED_SLACK 0, CAL_POL_CLASS 0, CAL_POL_PORT 0, CAL_POL_TID 0]⟩,
  ⟨0x40090, 1, 0, 1, 0, .policer, [CAL_POL_CIR 0, CAL_POL_EIR_PIR 0]⟩,
  ⟨0x40098, 1, 0, 1, 0, .policer, [CAL_POL_CBS 0, CAL_POL_EBS_PBS 0]⟩,
  ⟨0x400a0, 1, 0, 1, 0, .policer, [CAL_POL_GREEN 0]⟩,
  ⟨0x400a8, 1, 0, 1, 0, .policer, [CAL_POL_YELLOW 0]⟩,
  ⟨0x400b0, 1, 0, 1, 0, .policer, [CAL_POL_RED 0]⟩,
  ⟨0x400b8, 1, 0, 1, 0, .none, [CAL_QSAMPLE_QTYPE, CAL_QSAMPLE_QINDEX]⟩,
  ⟨0x400c0, 1, 0, 1, 0, .none, [CAL_QSAMPLE_DEPTH, CAL_QSAMPLE_DELAY]⟩,
  ⟨0x400c8, 1, 0, 1, 0, .qsample, [CAL_QSAMPLE_MAX_DEPTH 0, CAL_QSAMPLE_MAX_DELAY 0]⟩,
  ⟨0x400d0, 1, 0, 1, 0, .none, [CAL_STATUS_GATE_REFUSED, CAL_STATUS_POL_NO_ROOM, CAL_STATUS_POL_REFUSED]⟩,
  ⟨0x50000, 16, 0x2000, 1024, 8, .none, [CAL_GATE_ENTRY_W 0 0]⟩]

open Reg in
/-- The registers of chapter 05. -/
def regs05 : List RegSpec := [
  ⟨0x20200, 2, 0x10000, 1, 0, .none, [BWK_UNIT_STATUS_FAIL_CAUSE 0, BWK_UNIT_STATUS_LAPSES 0, BWK_UNIT_STATUS_COPY_PROGRESS 0, BWK_UNIT_STATUS_STATE 0]⟩,
  ⟨0x20208, 2, 0x10000, 1, 0, .none, [BWK_UNIT_CTRL_RECOVER 0, BWK_UNIT_CTRL_SWAP 0, BWK_UNIT_CTRL_RESET_UNIT 0]⟩,
  ⟨0x20210, 2, 0x10000, 1, 0, .none, [BWK_UNIT_COUNTS_TAKEOVERS 0, BWK_UNIT_COUNTS_LINK_ERRORS 0, BWK_UNIT_COUNTS_CORRECTED 0]⟩,
  ⟨0x20218, 2, 0x10000, 1, 0, .none, [BWK_UNIT_JOURNAL_LAST_TICK 0]⟩,
  ⟨0x20220, 2, 0x10000, 1, 0, .none, [BWK_UNIT_ALERT_LOST 0, BWK_UNIT_ALERT_SWAP_REFUSED 0, BWK_UNIT_ALERT_RECOVER_REFUSED 0, BWK_UNIT_ALERT_SYNC_DONE 0, BWK_UNIT_ALERT_LAPSED 0, BWK_UNIT_ALERT_FAILED 0, BWK_UNIT_ALERT_TOOK_OVER 0]⟩]

open Reg in
/-- The registers of chapter 06. -/
def regs06 : List RegSpec := [
  ⟨0x100000, 16, 0x10000, 1, 0, .none, [SHL_STATUS_BOOKED_IN_FORCE 0, SHL_STATUS_DRAINED 0, SHL_STATUS_DRAIN_ACTIVE 0, SHL_STATUS_IN_RESET 0, SHL_STATUS_RELEASED 0]⟩,
  ⟨0x100008, 16, 0x10000, 1, 0, .none, [SHL_CTRL_CLAIM_CH_BASE 0, SHL_CTRL_SHOAL_RESET 0, SHL_CTRL_DRAIN 0]⟩,
  ⟨0x100010, 16, 0x10000, 1, 0, .none, [SHL_DL_CTRL_DL_ENABLE 0, SHL_DL_CTRL_WINDOW 0]⟩,
  ⟨0x100018, 16, 0x10000, 1, 0, .none, [SHL_FAULT_DEADLOCK 0, SHL_FAULT_MEM 0, SHL_FAULT_CH_MISUSE 0, SHL_FAULT_RESET_REFUSED 0, SHL_FAULT_HALT_REFUSED 0]⟩,
  ⟨0x100020, 16, 0x10000, 8, 8, .none, [SHL_GROUP_MEMBERS 0 0]⟩,
  ⟨0x100060, 16, 0x10000, 1, 0, .none, [SHL_DL_INFO_CAPTURED_AT 0, SHL_DL_INFO_ENTRIES 0, SHL_DL_INFO_TRUNCATED 0, SHL_DL_INFO_LATER_LOST 0, SHL_DL_INFO_GROUP 0]⟩,
  ⟨0x100100, 16, 0x10000, 64, 8, .none, [SHL_DL_SNAP_VALID 0 0, SHL_DL_SNAP_THREAD 0 0, SHL_DL_SNAP_DIR 0 0, SHL_DL_SNAP_CHANNEL 0 0, SHL_DL_SNAP_PEER 0 0, SHL_DL_SNAP_PEER_STATE 0 0, SHL_DL_SNAP_PEER_WAITING 0 0]⟩,
  ⟨0x100068, 16, 0x10000, 1, 0, .none, [SHL_DBG_SELECT_THREAD 0, SHL_DBG_SELECT_ITEM 0]⟩,
  ⟨0x100070, 16, 0x10000, 1, 0, .none, [SHL_DBG_DATA 0]⟩,
  ⟨0x100400, 16, 0x10000, 8, 0x20, .none, [SHL_CORE_VECTOR 0 0]⟩,
  ⟨0x100408, 16, 0x10000, 8, 0x20, .none, [SHL_CORE_CORE_RESET 0 0, SHL_CORE_START_MASK 0 0]⟩,
  ⟨0x100410, 16, 0x10000, 8, 0x20, .none, [SHL_CORE_THREAD_STATE 0 0]⟩,
  ⟨0x100418, 16, 0x10000, 8, 0x20, .none, [SHL_CORE_ISSUED_256 0 0, SHL_CORE_EMPTY_256 0 0]⟩,
  ⟨0x100800, 16, 0x10000, 64, 0x20, .none, [SHL_THR_STEP 0 0, SHL_THR_RESUME 0 0, SHL_THR_HALT 0 0, SHL_THR_RESET 0 0, SHL_THR_START 0 0, SHL_THR_PRIORITY 0 0]⟩,
  ⟨0x100808, 16, 0x10000, 64, 0x20, .none, [SHL_THR_OWED_TICKS 0 0, SHL_THR_BOOKED 0 0, SHL_THR_WAITING 0 0, SHL_THR_ARMED 0 0, SHL_THR_EFF_PRIORITY 0 0, SHL_THR_STATE 0 0]⟩,
  ⟨0x100810, 16, 0x10000, 64, 0x20, .none, [SHL_THR_PC 0 0]⟩,
  ⟨0x100818, 16, 0x10000, 64, 0x20, .none, [SHL_THR_WAIT_COUNT 0 0, SHL_THR_WAIT_OVERFLOW 0 0, SHL_THR_WAIT_DIR 0 0, SHL_THR_WAIT_CH3 0 0, SHL_THR_WAIT_CH2 0 0, SHL_THR_WAIT_CH1 0 0, SHL_THR_WAIT_CH0 0 0]⟩,
  ⟨0x102000, 16, 0x10000, 512, 0x10, .none, [SHL_CH_ENABLE 0 0, SHL_CH_CLAIM 0 0, SHL_CH_PRODUCER 0 0, SHL_CH_CONSUMER 0 0]⟩,
  ⟨0x102008, 16, 0x10000, 512, 0x10, .none, [SHL_CH_DISCARDED 0 0, SHL_CH_COUNT 0 0]⟩]

open Reg in
/-- The registers of chapter 09. -/
def regs09 : List RegSpec := [
  ⟨0x203f00, 1, 0, 1, 0, .none, [MAC_LANE_MODE_MODE_IN_FORCE, MAC_LANE_MODE_LANE_MODE]⟩,
  ⟨0x200000, 16, 0x4000, 1, 0, .none, [MAC_PORT_CTL_MAX_FRAME 0, MAC_PORT_CTL_ONE_STEP 0, MAC_PORT_CTL_TC_ENABLE 0, MAC_PORT_CTL_PFC_MODE 0, MAC_PORT_CTL_DELIVER_BAD 0, MAC_PORT_CTL_ENABLE 0]⟩,
  ⟨0x200008, 16, 0x4000, 1, 0, .none, [MAC_STATUS_PAUSED 0, MAC_STATUS_LANE_CHANGED 0, MAC_STATUS_TRAIN_FAIL 0, MAC_STATUS_LINK_DOWN_SEEN 0, MAC_STATUS_LINK_STATE 0]⟩,
  ⟨0x200010, 16, 0x4000, 1, 0, .none, [MAC_LANES_LANE_LOCK 0, MAC_LANES_RX_ORDER 0, MAC_LANES_TX_POL_INV 0, MAC_LANES_RX_POL_INV 0]⟩,
  ⟨0x200018, 16, 0x4000, 1, 0, .none, [MAC_BAD_BAD_TID 0, MAC_BAD_BAD_QUEUE 0]⟩,
  ⟨0x200020, 16, 0x4000, 1, 0, .none, [MAC_SLACK_SLACK_LIMIT_KIB 0]⟩,
  ⟨0x200028, 16, 0x4000, 1, 0, .none, [MAC_FLUSH_FLUSH_QUEUES 0]⟩,
  ⟨0x200030, 16, 0x4000, 1, 0, .none, [MAC_PFC_XOFF_KIB 0, MAC_PFC_XON_KIB 0, MAC_PFC_QUANTA 0, MAC_PFC_ENABLE_PRI 0]⟩,
  ⟨0x200038, 16, 0x4000, 1, 0, .none, [MAC_PFC_PFC_MAP 0]⟩,
  ⟨0x200040, 16, 0x4000, 1, 0, .none, [MAC_PTP_TX_LATENCY 0, MAC_PTP_RX_LATENCY 0]⟩,
  ⟨0x200048, 16, 0x4000, 1, 0, .none, [MAC_PTP_LINK_DELAY 0]⟩,
  ⟨0x200050, 16, 0x4000, 1, 0, .none, [MAC_TS_TX_TS_TIME 0]⟩,
  ⟨0x200058, 16, 0x4000, 1, 0, .none, [MAC_TS_SEQUENCE_ID 0, MAC_TS_DOMAIN 0, MAC_TS_MSG_TYPE 0, MAC_TS_FRACTION 0, MAC_TS_COUNT 0]⟩,
  ⟨0x200060, 16, 0x4000, 1, 0, .none, [MAC_TS_TX_TS_POP 0]⟩,
  ⟨0x200100, 16, 0x4000, 18, 8, .none, [MAC_CNT_COUNT 0 0]⟩]

open Reg in
/-- The registers of chapter 10. -/
def regs10 : List RegSpec := [
  ⟨0x300000, 1, 0, 1, 0, .none, [PRS_PROG_CTRL_COMMIT, PRS_PROG_CTRL_PROG_GEN]⟩,
  ⟨0x300008, 1, 0, 1, 0, .none, [PRS_STATUS_PAT_PENDING, PRS_STATUS_PAT_REFUSED, PRS_STATUS_PROG_REFUSED]⟩,
  ⟨0x300010, 1, 0, 1, 0, .none, [PRS_EXC_ENABLE, PRS_EXC_CHANNEL]⟩,
  ⟨0x300018, 1, 0, 1, 0, .none, [PRS_CFG_HOLD_LIMIT_KIB, PRS_CFG_SCAN_MAX, PRS_CFG_DSCP_BYTE]⟩,
  ⟨0x300020, 1, 0, 1, 0, .none, [PRS_COLOUR_MAP_LO]⟩,
  ⟨0x300028, 1, 0, 1, 0, .none, [PRS_COLOUR_MAP_HI]⟩,
  ⟨0x300030, 1, 0, 1, 0, .none, [PRS_PAT_ADDR]⟩,
  ⟨0x300038, 1, 0, 1, 0, .none, [PRS_PAT_COMMIT, PRS_PAT_LENGTH]⟩,
  ⟨0x300040, 1, 0, 1, 0, .none, [PRS_TX_SELECT_TX_TID]⟩,
  ⟨0x300048, 1, 0, 1, 0, .txTid, [PRS_TX_TX_MIRROR_EN 0, PRS_TX_TX_SESSION 0]⟩,
  ⟨0x300080, 16, 8, 1, 0, .none, [PRS_PORT_PROFILE 0]⟩,
  ⟨0x300100, 16, 8, 1, 0, .none, [PRS_REASON_BURST 0, PRS_REASON_RATE 0]⟩,
  ⟨0x300200, 64, 8, 1, 0, .none, [PRS_MIRROR_ENABLE 0, PRS_MIRROR_DEST_KIND 0, PRS_MIRROR_SAMPLE_LOG2 0, PRS_MIRROR_TRUNCATE 0, PRS_MIRROR_RATE 0, PRS_MIRROR_TARGET 0]⟩,
  ⟨0x300400, 16, 0x20, 1, 0, .none, [PRS_PROFILE_START_STATE 0, PRS_PROFILE_STAGES 0]⟩,
  ⟨0x300408, 16, 0x20, 2, 8, .none, [PRS_PROFILE_DEFAULT 0 0]⟩,
  ⟨0x300600, 64, 8, 1, 0, .none, [PRS_TEMPLATE 0]⟩,
  ⟨0x310000, 256, 0x20, 4, 8, .none, [PRS_STATE_W 0 0]⟩,
  ⟨0x320000, 2048, 8, 1, 0, .none, [PRS_TRANS_W 0]⟩,
  ⟨0x300900, 14, 8, 1, 0, .none, [PRS_CNT_COUNT 0]⟩,
  ⟨0x300800, 16, 8, 1, 0, .none, [PRS_CNT_EXC_SENT 0]⟩,
  ⟨0x300880, 16, 8, 1, 0, .none, [PRS_CNT_EXC_DROP 0]⟩,
  ⟨0x300a00, 64, 8, 1, 0, .none, [PRS_CNT_MIRRORED 0]⟩,
  ⟨0x300c00, 64, 8, 1, 0, .none, [PRS_CNT_MIRROR_DROP 0]⟩]

open Reg in
/-- The registers of chapter 11. -/
def regs11 : List RegSpec := [
  ⟨0x400000, 1, 0, 1, 0, .none, [REEF_CTRL_HASH_SEED, REEF_CTRL_INS_AGES, REEF_CTRL_MAX_KICKS]⟩,
  ⟨0x400008, 1, 0, 1, 0, .none, [REEF_AGE_AGE_ENABLE, REEF_AGE_AGE_LIMIT]⟩,
  ⟨0x400010, 1, 0, 1, 0, .none, [REEF_STATUS_EM_ENTRIES, REEF_STATUS_PFX_ENTRIES]⟩,
  ⟨0x400018, 1, 0, 1, 0, .none, [REEF_STATUS_PFX_PATH_BUSY, REEF_STATUS_EM_PATH_BUSY, REEF_STATUS_LEARNED_ENTRIES]⟩,
  ⟨0x400020, 1, 0, 1, 0, .none, [REEF_TENANT_SELECT_TID]⟩,
  ⟨0x400028, 1, 0, 1, 0, .reefTid, [REEF_TENANT_LIMIT 0, REEF_TENANT_COUNT 0]⟩,
  ⟨0x400100, 1, 0, 1, 0, .none, [REEF_CMD_GO, REEF_CMD_OP, REEF_CMD_STATIC, REEF_CMD_TABLE, REEF_CMD_KEY_LEN, REEF_CMD_PREFIX_LEN]⟩,
  ⟨0x400108, 5, 8, 1, 0, .none, [REEF_CMD_KEY 0]⟩,
  ⟨0x400130, 2, 8, 1, 0, .none, [REEF_CMD_ACT 0]⟩,
  ⟨0x400140, 1, 0, 1, 0, .none, [REEF_CMD_BUSY, REEF_CMD_STATUS, REEF_CMD_RESULT, REEF_CMD_ARG]⟩,
  ⟨0x400148, 2, 8, 1, 0, .none, [REEF_CMD_RESULT_ACT 0]⟩,
  ⟨0x400400, 16, 0x20, 1, 0, .none, [REEF_LEARN_PORT_LIMIT 0, REEF_LEARN_LEARN_TID 0, REEF_LEARN_PORT_SUBST 0, REEF_LEARN_EXCESS 0, REEF_LEARN_STAGE 0, REEF_LEARN_ENABLE 0]⟩,
  ⟨0x400408, 16, 0x20, 1, 0, .none, [REEF_LEARN_LEARN_ACTION0 0]⟩,
  ⟨0x400410, 16, 0x20, 1, 0, .none, [REEF_LEARN_LEARN_ACTION1 0]⟩,
  ⟨0x400418, 16, 0x20, 1, 0, .none, [REEF_LEARN_PORT_COUNT 0]⟩,
  ⟨0x400800, 16, 8, 1, 0, .none, [REEF_CNT_COUNT 0]⟩]

open Reg in
/-- The registers of chapter 12. -/
def regs12 : List RegSpec := [
  ⟨0x500000, 1, 0, 1, 0, .none, [SWH_CTRL_UDP_PORT, SWH_CTRL_SPORT_BASE, SWH_CTRL_CC_PERIOD, SWH_CTRL_PARTIAL_TIMEOUT]⟩,
  ⟨0x500008, 1, 0, 1, 0, .none, [SWH_RTO_INIT, SWH_RTO_MIN, SWH_RTO_MAX]⟩,
  ⟨0x500010, 1, 0, 1, 0, .none, [SWH_CONN_SELECT_CONN]⟩,
  ⟨0x500018, 1, 0, 1, 0, .conn, [SWH_C_TID 0, SWH_C_PORT 0, SWH_C_QUEUE 0, SWH_C_PMTU 0, SWH_C_PATHS_LOG2 0, SWH_C_CC_MODE 0, SWH_C_PLACE_CLASS 0, SWH_C_PLACE_DEV 0, SWH_C_TEMPLATE 0, SWH_C_PEER_CONN 0]⟩,
  ⟨0x500020, 1, 0, 1, 0, .conn, [SWH_C_INC 0, SWH_C_PEER_INC 0, SWH_C_INIT_PSN 0, SWH_C_PEER_INIT_PSN 0]⟩,
  ⟨0x500028, 1, 0, 1, 0, .conn, [SWH_C_NOTIFY_RQ 0, SWH_C_TX_KEY_SLOT 0, SWH_C_RX_KEY_SLOT 0, SWH_C_TX_KEY_EN 0, SWH_C_RX_KEY_EN 0]⟩,
  ⟨0x500030, 1, 0, 1, 0, .conn, [SWH_C_PLACE_BYTES 0, SWH_C_PLACE_BURST 0]⟩,
  ⟨0x500038, 1, 0, 1, 0, .conn, [SWH_C_RATE_MAX 0, SWH_C_RATE_MIN 0, SWH_C_AI 0]⟩,
  ⟨0x500040, 1, 0, 1, 0, .conn, [SWH_C_DELAY_TARGET 0, SWH_C_SALT 0]⟩,
  ⟨0x500048, 1, 0, 1, 0, .conn, [SWH_C_CLOSE 0, SWH_C_OPEN 0]⟩,
  ⟨0x500050, 1, 0, 1, 0, .conn, [SWH_C_STATE 0, SWH_C_PLACE_ACTIVE 0, SWH_C_NEXT_PSN 0, SWH_C_NEXT_MSN 0]⟩,
  ⟨0x500058, 1, 0, 1, 0, .conn, [SWH_C_OUTSTANDING 0, SWH_C_ALPHA 0, SWH_C_RATE 0]⟩,
  ⟨0x500060, 1, 0, 1, 0, .conn, [SWH_C_SRTT 0, SWH_C_RTTVAR 0]⟩,
  ⟨0x500100, 1, 0, 1, 0, .none, [SWH_WIN_SELECT_WINDOW]⟩,
  ⟨0x500108, 1, 0, 1, 0, .window, [SWH_W_BASE 0]⟩,
  ⟨0x500110, 1, 0, 1, 0, .window, [SWH_W_LENGTH 0]⟩,
  ⟨0x500118, 1, 0, 1, 0, .window, [SWH_W_KEY 0, SWH_W_OWNER 0, SWH_W_READ 0, SWH_W_WRITE 0, SWH_W_DEV_MEM 0]⟩,
  ⟨0x500120, 1, 0, 1, 0, .window, [SWH_W_REVOKE 0, SWH_W_REWRITE 0]⟩,
  ⟨0x500128, 1, 0, 1, 0, .window, [SWH_W_GEN 0, SWH_W_STATE 0, SWH_W_DONE 0]⟩,
  ⟨0x500130, 1, 0, 1, 0, .none, [SWH_TENANT_SELECT_TID]⟩,
  ⟨0x500138, 1, 0, 1, 0, .swhTid, [SWH_WIN_QUOTA 0, SWH_WIN_COUNT 0]⟩,
  ⟨0x500140, 1, 0, 1, 0, .none, [SWH_ALERT_CFG_REFUSED, SWH_ALERT_WIN_REFUSED, SWH_ALERT_PLACE_NO_ROOM, SWH_ALERT_PLACE_REFUSED, SWH_ALERT_CONN_FAILED]⟩,
  ⟨0x580000, 4096, 0x80, 16, 8, .none, [SWH_TMPL_W 0 0]⟩,
  ⟨0x500200, 19, 8, 1, 0, .none, [SWH_CNT_COUNT 0]⟩]

open Reg in
/-- The registers of chapter 13. -/
def regs13 : List RegSpec := [
  ⟨0x600000, 1, 0, 1, 0, .none, [STG_ACT_LIMIT_MS, STG_ADMIN_SHOAL]⟩,
  ⟨0x600008, 1, 0, 1, 0, .none, [STG_STATUS_ACT_HOLD, STG_STATUS_ACT_FAILED]⟩,
  ⟨0x600010, 1, 0, 1, 0, .none, [STG_FN_SELECT_TID]⟩,
  ⟨0x600018, 1, 0, 1, 0, .stgTid, [STG_NVME_EN 0, STG_FW_RIGHTS 0]⟩,
  ⟨0x600020, 1, 0, 1, 0, .stgTid, [STG_FN_IO_QUEUES 0, STG_FN_DST_RUNNING 0, STG_FN_PERSONALITY 0, STG_FN_RDY 0, STG_FN_EN 0]⟩,
  ⟨0x600028, 1, 0, 1, 0, .none, [STG_NS_SELECT_TID, STG_NS_SELECT_NSID_M1]⟩,
  ⟨0x600030, 1, 0, 1, 0, .ns, [STG_NS_ENABLE 0, STG_NS_STRICT 0, STG_NS_CLASS 0, STG_NS_LBA_4K 0, STG_NS_SHOAL 0, STG_NS_STAGE_MEM 0, STG_NS_CIPHER 0, STG_NS_KEY_SLOT 0, STG_NS_BACKEND 0]⟩,
  ⟨0x600038, 1, 0, 1, 0, .ns, [STG_NS_SIZE_LBAS 0]⟩,
  ⟨0x600040, 1, 0, 1, 0, .none, [STG_BE_SELECT_BACKEND]⟩,
  ⟨0x600048, 1, 0, 1, 0, .backend, [STG_BE_AVAILABLE 0, STG_BE_KIND 0, STG_BE_SLOT 0, STG_BE_CONN 0]⟩,
  ⟨0x600050, 1, 0, 1, 0, .backend, [STG_BE_BOUND_NS 0, STG_BE_TIMEOUT_MS 0]⟩,
  ⟨0x600100, 12, 8, 1, 0, .none, [STG_CNT_COUNT 0]⟩]

open Reg in
/-- The registers of chapter 14. -/
def regs14 : List RegSpec := [
  ⟨0x700000, 1, 0, 1, 0, .none, [CRY_SEAL_ETYPE]⟩,
  ⟨0x700008, 1, 0, 1, 0, .none, [CRY_STATUS_TAMPER, CRY_STATUS_SLOT_CFG_REFUSED, CRY_STATUS_OPEN_REFUSED, CRY_STATUS_WRAP_KEY_VALID]⟩,
  ⟨0x700010, 1, 0, 1, 0, .none, [CRY_TENANT_SELECT_TID]⟩,
  ⟨0x700018, 1, 0, 1, 0, .cryTid, [CRY_TENANT_TQ_VALID 0, CRY_TENANT_RX_OPEN 0, CRY_TENANT_RX_OPEN_IN_FORCE 0, CRY_TENANT_TQ 0]⟩,
  ⟨0x700020, 1, 0, 1, 0, .none, [CRY_SLOT_SELECT_SLOT]⟩,
  ⟨0x700028, 1, 0, 1, 0, .keySlot, [CRY_SLOT_STATE 0, CRY_SLOT_MODE 0, CRY_SLOT_KEY_256 0, CRY_SLOT_USE 0, CRY_SLOT_OWNER_KIND 0, CRY_SLOT_OWNER 0, CRY_SLOT_PEER_ID 0]⟩,
  ⟨0x700030, 1, 0, 1, 0, .keySlot, [CRY_SLOT_SALT 0]⟩,
  ⟨0x700038, 1, 0, 1, 0, .keySlot, [CRY_SLOT_LIMIT 0]⟩,
  ⟨0x700040, 1, 0, 1, 0, .keySlot, [CRY_SLOT_COUNT 0]⟩,
  ⟨0x700048, 1, 0, 1, 0, .keySlot, [CRY_SLOT_DRAIN 0]⟩,
  ⟨0x700100, 4, 0x80, 1, 0, .none, [CRY_CHAN_STEWARD 0, CRY_CHAN_HEADLAND 0]⟩,
  ⟨0x700108, 4, 0x80, 1, 0, .none, [CRY_CHAN_CMD_GO 0, CRY_CHAN_CMD_CMD 0, CRY_CHAN_CMD_SLOT 0, CRY_CHAN_CMD_RECORD 0]⟩,
  ⟨0x700110, 4, 0x80, 1, 0, .none, [CRY_CHAN_BUSY 0, CRY_CHAN_RESULT 0]⟩,
  ⟨0x700140, 4, 0x80, 8, 8, .none, [CRY_CHAN_DATA 0 0]⟩,
  ⟨0x700800, 10, 8, 1, 0, .none, [CRY_CNT_COUNT 0]⟩]

open Reg in
/-- The registers of chapter 15. -/
def regs15 : List RegSpec := [
  ⟨0x10000000000, 512, 0x4000, 1, 0, .none, [TEN_ID_TDI_STATE 0, TEN_ID_NVME 0, TEN_ID_STEWARD 0, TEN_ID_LINK 0, TEN_ID_TID 0]⟩,
  ⟨0x10000000008, 512, 0x4000, 1, 0, .none, [TEN_STATUS_LOST_COMPLETIONS 0, TEN_STATUS_POST_DROPPED 0, TEN_STATUS_RX_TOO_LONG 0, TEN_STATUS_DOORBELL_BAD 0, TEN_STATUS_QUEUES_STALE 0]⟩,
  ⟨0x10000000010, 512, 0x4000, 1, 0, .none, [TEN_QSEL_QTYPE 0, TEN_QSEL_QINDEX 0]⟩,
  ⟨0x10000000018, 512, 0x4000, 1, 0, .tenQ, [TEN_Q_QBASE 0 0]⟩,
  ⟨0x10000000020, 512, 0x4000, 1, 0, .tenQ, [TEN_Q_ENABLE 0 0, TEN_Q_ENABLE_REFUSED 0 0, TEN_Q_VECTOR 0 0, TEN_Q_BIND 0 0, TEN_Q_SIZE_LOG2 0 0]⟩,
  ⟨0x10000000028, 512, 0x4000, 1, 0, .tenQ, [TEN_Q_HEAD 0 0, TEN_Q_TAIL 0 0]⟩,
  ⟨0x10000000030, 512, 0x4000, 1, 0, .none, [TEN_RQ_QUOTA 0, TEN_CQ_QUOTA 0, TEN_SQ_QUOTA 0]⟩,
  ⟨0x10000001000, 512, 0x4000, 3, 8, .none, [KON_TOKENS_TOKENS 0 0]⟩,
  ⟨0x10000001020, 512, 0x4000, 3, 8, .none, [KON_BUDGET_DEPTH 0 0, KON_BUDGET_RATE 0 0]⟩,
  ⟨0x10000001040, 512, 0x4000, 21, 8, .none, [KON_CT_ENABLE 0 0, KON_CT_BOUND 0 0]⟩,
  ⟨0x10000001100, 512, 0x4000, 12, 8, .none, [KON_COUNT 0 0]⟩,
  ⟨0x10000001180, 512, 0x4000, 1, 0, .none, [TEN_TRING_BASE 0]⟩,
  ⟨0x10000001188, 512, 0x4000, 1, 0, .none, [TEN_TRING_EN 0, TEN_TRING_TAIL 0, TEN_TRING_SIZE_LOG2 0]⟩,
  ⟨0x10000001190, 512, 0x4000, 1, 0, .none, [TEN_TRING_HEAD 0]⟩,
  ⟨0x10000001198, 512, 0x4000, 1, 0, .none, [TEN_TRING_LOST 0]⟩,
  ⟨0x800000, 2, 8, 1, 0, .none, [HST_LINK_TAGS_IN_USE 0, HST_LINK_DEGRADED 0, HST_LINK_WIDTH 0, HST_LINK_SPEED 0, HST_LINK_FLIT 0, HST_LINK_TAG_MODE 0, HST_LINK_LINK_UP 0]⟩,
  ⟨0x800010, 1, 0, 1, 0, .none, [HST_IDS_SUBSYS_VENDOR, HST_IDS_SUBSYS_ID]⟩,
  ⟨0x800018, 1, 0, 1, 0, .none, [HST_MGMT_PENDING_EVENTS, HST_MGMT_VECTOR]⟩,
  ⟨0x800020, 1, 0, 1, 0, .none, [HST_MGMT_CAUSE]⟩,
  ⟨0x800028, 1, 0, 1, 0, .none, [HST_TENANT_SELECT_TID]⟩,
  ⟨0x800030, 1, 0, 1, 0, .hstTid, [HST_TEN_IOVA_BASE 0]⟩,
  ⟨0x800038, 1, 0, 1, 0, .hstTid, [HST_TEN_RX_HOLD_KIB 0, HST_TEN_RQ_QUOTA 0, HST_TEN_CQ_QUOTA 0, HST_TEN_SQ_QUOTA 0]⟩,
  ⟨0x800040, 1, 0, 1, 0, .hstTid, [HST_TEN_TDI_STATE 0, HST_TEN_D3 0, HST_TEN_MSE 0, HST_TEN_BME 0, HST_TEN_FLR_ACTIVE 0]⟩,
  ⟨0x800048, 1, 0, 1, 0, .none, [HST_PCFG_GO, HST_PCFG_WRITE, HST_PCFG_BUSY, HST_PCFG_CFG_STATUS, HST_PCFG_BUS, HST_PCFG_DEV, HST_PCFG_FN, HST_PCFG_REG]⟩,
  ⟨0x800050, 1, 0, 1, 0, .none, [HST_PCFG_DATA]⟩,
  ⟨0x800100, 8, 0x20, 1, 0, .none, [HST_RP_DMA_SHOAL 0, HST_RP_HP_CHANNEL 0, HST_RP_HP_MSG_EN 0, HST_RP_PWR_ON_DELAY_MS 0]⟩,
  ⟨0x800108, 8, 0x20, 1, 0, .none, [HST_RP_SPEED 0, HST_RP_PERST_ASSERTED 0, HST_RP_POWERED 0, HST_RP_PRESENT 0, HST_RP_LINK_UP 0]⟩,
  ⟨0x800110, 8, 0x20, 1, 0, .none, [HST_RP_SURPRISE_REMOVALS 0, HST_RP_POWER_FAULTS 0]⟩,
  ⟨0x801000, 2, 0x100, 11, 8, .none, [HST_CNT_COUNT 0 0]⟩]

open Reg in
/-- The registers of chapter 16. -/
def regs16 : List RegSpec := [
  ⟨0x901000, 116, 8, 1, 0, .none, [MEM_SOURCE_CORRECTED 0, MEM_SOURCE_UNCORRECTABLE 0, MEM_SOURCE_DONE 0, MEM_SOURCE_HANDLING 0, MEM_SOURCE_LEVEL 0]⟩,
  ⟨0x900000, 1, 0, 1, 0, .none, [MEM_CFG_RATE_MTS, MEM_CFG_CHANNELS]⟩,
  ⟨0x900008, 1, 0, 1, 0, .none, [MEM_TRAIN_GO, MEM_TRAIN_HBM_FAIL, MEM_TRAIN_DDR_FAIL, MEM_TRAIN_DONE]⟩,
  ⟨0x900010, 1, 0, 1, 0, .none, [MEM_DDR_BYTES]⟩,
  ⟨0x900018, 1, 0, 1, 0, .none, [MEM_PATROL_EN, MEM_PATROL_BURSTS]⟩,
  ⟨0x900100, 1, 0, 1, 0, .none, [MEM_FW_SELECT_REGION]⟩,
  ⟨0x900108, 1, 0, 1, 0, .region, [MEM_FW_BASE 0]⟩,
  ⟨0x900110, 1, 0, 1, 0, .region, [MEM_FW_LIMIT 0]⟩,
  ⟨0x900118, 1, 0, 1, 0, .region, [MEM_FW_OWNER_KIND 0, MEM_FW_TID 0, MEM_FW_SHOALS 0, MEM_FW_EXEC 0, MEM_FW_WRITE 0, MEM_FW_READ 0]⟩,
  ⟨0x900120, 1, 0, 1, 0, .none, [MEM_FW_FW_REFUSED]⟩,
  ⟨0x900200, 16, 8, 1, 0, .none, [MEM_FW_CTL 0]⟩,
  ⟨0xd00000, 1, 0, 1, 0, .none, [ERR_CTRL_MEM_SHOAL, ERR_CTRL_ENABLE]⟩,
  ⟨0xd00008, 1, 0, 1, 0, .none, [ERR_RING_BASE]⟩,
  ⟨0xd00010, 1, 0, 1, 0, .none, [ERR_RING_HEAD, ERR_RING_TAIL]⟩,
  ⟨0xd00018, 1, 0, 1, 0, .none, [ERR_STATUS_OVERFLOW, ERR_STATUS_FIFO_COUNT, ERR_STATUS_FATAL, ERR_STATUS_FIRST_VALID]⟩,
  ⟨0xd00020, 4, 8, 1, 0, .none, [ERR_FIRST 0]⟩,
  ⟨0xd00040, 4, 8, 1, 0, .none, [ERR_LAST 0]⟩,
  ⟨0xd00100, 256, 8, 1, 0, .none, [ERR_KIND_COUNT 0]⟩]

open Reg in
/-- The registers of chapter 17. -/
def regs17 : List RegSpec := [
  ⟨0xa00000, 1, 0, 1, 0, .none, [HDL_STATUS_STAGE, HDL_STATUS_FAIL_CAUSE, HDL_STATUS_FAIL_SLOT, HDL_STATUS_HOLDUP_STOP, HDL_STATUS_PF_SUMMARY_VALID, HDL_STATUS_FALLBACK, HDL_STATUS_BOOT_CONFIRMED, HDL_STATUS_APPROVED, HDL_STATUS_SELFTEST_FAIL, HDL_STATUS_WAIT_STEWARD, HDL_STATUS_BOOT_SRC, HDL_STATUS_ACTIVE_SLOT]⟩,
  ⟨0xa00008, 1, 0, 1, 0, .none, [HDL_CONTROL_ZEROISE, HDL_CONTROL_BWK_RELEASE, HDL_CONTROL_KEY_LOCK]⟩,
  ⟨0xa00010, 1, 0, 1, 0, .none, [HDL_SHOALS_PENDING, HDL_SHOALS_REQ, HDL_SHOALS_RELEASE]⟩,
  ⟨0xa00020, 1, 0, 1, 0, .none, [HDL_FUSES_SHL_COUNTER, HDL_FUSES_KEY_REVOKED, HDL_FUSES_HDL_COUNTER]⟩,
  ⟨0xa00028, 1, 0, 1, 0, .none, [HDL_FUSE_CTL_GO, HDL_FUSE_CTL_BUSY, HDL_FUSE_CTL_WHICH, HDL_FUSE_CTL_RESULT, HDL_FUSE_CTL_KEY_SET]⟩,
  ⟨0xa00030, 1, 0, 1, 0, .none, [HDL_IMAGE_HDL_SVN, HDL_IMAGE_SHL_SVN, HDL_IMAGE_KEY_SET, HDL_IMAGE_SEQ_LOW]⟩,
  ⟨0xa00038, 1, 0, 1, 0, .none, [HDL_BOOT_TRIES, HDL_BOOT_PF_ACK, HDL_BOOT_RELEASE_GO, HDL_BOOT_CONFIRM]⟩,
  ⟨0xa00040, 1, 0, 1, 0, .none, [HDL_XFER_ADDR]⟩,
  ⟨0xa00048, 1, 0, 1, 0, .none, [HDL_XFER_CTL_GO, HDL_XFER_CTL_BUSY, HDL_XFER_CTL_OP, HDL_XFER_CTL_RESULT, HDL_XFER_CTL_LENGTH]⟩,
  ⟨0xa00050, 1, 0, 1, 0, .none, [HDL_STRAND_SELECT_WORD]⟩,
  ⟨0xa00058, 1, 0, 1, 0, .strand, [HDL_STRAND_WORN 0, HDL_STRAND_WORN_SOON 0, HDL_STRAND_WEAR 0]⟩,
  ⟨0xa00060, 1, 0, 1, 0, .none, [HDL_STRAND_DISCARDED, HDL_STRAND_WORN_SOON_SEEN, HDL_STRAND_STRAND_WORN]⟩]

open Reg in
/-- The registers of chapter 18. -/
def regs18 : List RegSpec := [
  ⟨0xc00000, 1, 0, 1, 0, .none, [MON_SET_SELECT_SET_TYPE, MON_SET_SELECT_SET_INDEX]⟩,
  ⟨0xc00008, 1, 0, 1, 0, .none, [MON_SNAP_SNAP, MON_SNAP_CLEAR, MON_SNAP_BUF]⟩,
  ⟨0xc00040, 3, 8, 1, 0, .none, [MON_GOV_P01 0, MON_GOV_GOV_COUNT 0]⟩,
  ⟨0xc00060, 1, 0, 1, 0, .none, [MON_QMON_SELECT_QMON]⟩,
  ⟨0xc00068, 1, 0, 1, 0, .qmon, [MON_QMON_ENABLE 0, MON_QMON_QTYPE 0, MON_QMON_QINDEX 0]⟩,
  ⟨0xc00080, 1, 0, 1, 0, .none, [MON_BIST_GO, MON_BIST_BUSY, MON_BIST_DONE, MON_BIST_BIST_REFUSED, MON_BIST_RUNNING_TARGET, MON_BIST_TARGET]⟩,
  ⟨0xc00088, 1, 0, 1, 0, .none, [MON_BIST_TESTED, MON_BIST_PASS]⟩,
  ⟨0xc00090, 1, 0, 1, 0, .none, [MON_OOB_WRITE_BLOCKS]⟩,
  ⟨0xc00098, 1, 0, 1, 0, .none, [MON_TAP_ACCESS_SEEN, MON_DEBUG_EN]⟩,
  ⟨0xc00100, 6, 8, 1, 0, .none, [MON_PIN_ENABLE 0, MON_PIN_SEEN 0, MON_PIN_FAULT 0]⟩,
  ⟨0xc00140, 8, 0x40, 7, 8, .none, [MON_PIN_ENABLE 8, MON_PIN_SEEN 8, MON_PIN_FAULT 8]⟩,
  ⟨0xc00380, 4, 8, 1, 0, .none, [MON_PIN_ENABLE 80, MON_PIN_SEEN 80, MON_PIN_FAULT 80]⟩,
  ⟨0xc00400, 24, 8, 1, 0, .none, [MON_TEMP_TEMP_MAX 0, MON_TEMP_TEMP 0]⟩,
  ⟨0xc00500, 5, 8, 1, 0, .none, [MON_POWER 0]⟩,
  ⟨0xc02000, 24, 0x20, 4, 8, .none, [MON_SIG_SIG 0 0]⟩,
  ⟨0xc01000, 4, 0x400, 1, 0, .none, [MON_BUF_READY 0, MON_BUF_SET_TYPE 0, MON_BUF_SET_INDEX 0, MON_BUF_SNAP_AT 0]⟩,
  ⟨0xc01008, 4, 0x400, 1, 0, .none, [MON_BUF_COUNT 0]⟩,
  ⟨0xc01010, 4, 0x400, 1, 0, .none, [MON_BUF_SUM 0]⟩,
  ⟨0xc01018, 4, 0x400, 1, 0, .none, [MON_BUF_MAX 0, MON_BUF_MIN 0]⟩,
  ⟨0xc01020, 4, 0x400, 1, 0, .none, [MON_BUF_ENV_LATE 0, MON_BUF_LATE 0]⟩,
  ⟨0xc01028, 4, 0x400, 1, 0, .none, [MON_BUF_MIN_MARGIN 0]⟩,
  ⟨0xc01100, 4, 0x400, 32, 8, .none, [MON_BUF_LAT_BIN 0 0]⟩,
  ⟨0xc01200, 4, 0x400, 32, 8, .none, [MON_BUF_MARGIN_BIN 0 0]⟩]

/-- Whether an address belongs to a register, and its distance from the first of its array. -/
def RegSpec.covers (r : RegSpec) (a : Nat) : Bool :=
  a ≥ r.base &&
  (let x := a - r.base
   if r.s1 == 0 then x == 0
   else if r.s2 == 0 then x % r.s1 == 0 && x / r.s1 < r.n1
   else x / r.s1 < r.n1 && x % r.s1 % r.s2 == 0 && x % r.s1 / r.s2 < r.n2)

/-- Every register of the device. -/
def allRegs : List RegSpec :=
  regs01 ++ regs02 ++ regs03 ++ regs04 ++ regs05 ++ regs06 ++ regs09 ++ regs10 ++ regs11 ++ regs12 ++ regs13 ++ regs14 ++ regs15 ++ regs16 ++ regs17 ++ regs18

end Sys2Proof.Machine
end

