-- ==== Sys2Proof/Machine/Operands.lean ====
section
/-! DEFINITION. What the operands of commands are: agents, descriptors, packets, NVMe commands and Limoon instructions. -/

namespace Sys2Proof

/-- The agents that reach control space (R31): the steward, Headland, a privileged thread, out-of-band management
and JTAG. -/
inductive Agent where
  | steward
  | headland
  | thread (t : BitVec 10)
  | oob
  | jtag
deriving DecidableEq, Repr

/-- A native descriptor (Table 3.7) without its KIND and the parts of TARGET that name the row. The field bad says that
a reserved field or flag is nonzero; pages are the pages of an NVMe command's buffer after its first. -/
structure Desc where
  tag : BitVec 16 := 0
  cls : BitVec 2 := 3
  bad : Bool := false
  ordered : Bool := false
  mirror : Bool := false
  cipher : Bool := false
  notify : Bool := false
  interrupt : Bool := false
  devMem : Bool := false
  length : BitVec 32 := 0
  reqBound : BitVec 32 := 0
  addr0 : BitVec 64 := 0
  addr1 : BitVec 64 := 0
  target : BitVec 32 := 0
  keySlot : BitVec 14 := 0
  addr2 : BitVec 64 := 0
  windowKey : BitVec 32 := 0
  window : BitVec 22 := 0
  pages : List (BitVec 64) := []
deriving DecidableEq, Repr


/-- A received Swash packet, as it stands behind its UDP header (Table 12.3): the port it came in by, the connection that
the classification names, its IP source address, whether it arrived with ECN CE, its twelve header words, the bytes that
follow them, and whether the lengths of its IP and UDP headers agree with its frame. -/
structure SwPacket where
  port : BitVec 4
  target : BitVec 20
  src : List Byte
  ce : Bool := false
  words : List (BitVec 32)
  body : List Byte := []
  lenOk : Bool := true
deriving DecidableEq, Repr

/-- An NVMe I/O command as its submission entry gives it (R336): function, queue, CID, NSID, starting LBA (of Dataset Management
command dwords 10 and 11, whose bit 34 is AD), NLB (or NR of Dataset Management), the first page of its buffer and those after it, and whether a field that must be zero is not. -/
structure NvCmd where
  tid : BitVec 9
  sq : BitVec 7
  cid : BitVec 16
  nsid : BitVec 32
  lba : BitVec 64 := 0
  blocks : BitVec 16 := 0
  prp1 : BitVec 64 := 0
  pages : List (BitVec 64) := []
  bad : Bool := false
deriving DecidableEq, Repr

/-- An NVMe admin command: function, CID, NSID, the pages of its buffer, command dwords 10 to 12, and the data it carries. -/
structure NvAdmin where
  tid : BitVec 9
  cid : BitVec 16
  nsid : BitVec 32 := 0
  prp1 : BitVec 64 := 0
  prp2 : BitVec 64 := 0
  d10 : BitVec 32 := 0
  d11 : BitVec 32 := 0
  d12 : BitVec 32 := 0
  data : List Byte := []
deriving DecidableEq, Repr

/-- Who read a line that shows an error (R417, R418, R299): a thread with the number of its access, an operation, a shoal's data
mover or pattern engine, a Swash read response of a connection, the patrol scrub, a Reef lookup in a tag line, an entry or a prefix
entry, or a unit of Breakwater in its own tables. -/
inductive ReadBy where
  | thread (t : BitVec 10) (access : Nat)
  | op (id : Nat)
  | mover (shoal : BitVec 4)
  | scan (shoal : BitVec 4)
  | resp (conn : BitVec 20) (offset : Nat)
  | patrol
  | reefTag (bucket : Nat)
  | reefEntry (pos : Nat)
  | reefPrefix (ix : Nat)
  | unit (u : BitVec 1)
deriving DecidableEq, Repr

/-! Limoon (chapters 07 and 08) -/

/-- The guard and the issuing thread of a Limoon instruction (R22, R173): the thread by global number, N and P. -/
structure Issue where
  th : BitVec 10
  n : Bool := false
  p : BitVec 3 := 0
deriving DecidableEq, Repr

/-- The ALU operations (Table 7.3). -/
inductive AluOp where
  | add | sub | and | or | xor | andn | sll | srl | sra | ror | min | max | minu | maxu | clz | ctz | popc | bswap
deriving DecidableEq, Repr

/-- The multiply and divide operations (Table 7.4). -/
inductive MulOp where
  | mul | mulhs | mulhu | div | divu | rem | remu
deriving DecidableEq, Repr

/-- The immediate operations of format I but SHFI (R179). -/
inductive ImmOp where
  | add | and | or | xor
deriving DecidableEq, Repr

/-- The shifts of SHFI (R179). -/
inductive ShfOp where
  | sll | srl | sra | ror
deriving DecidableEq, Repr

/-- The compare conditions (Table 7.5). -/
inductive CmpCond where
  | eq | ne | lt | ge | ltu | geu | any | none
deriving DecidableEq, Repr

/-- The operations on predicates (R181). -/
inductive PlogOp where
  | and | or | xor | andn | orn | mov
deriving DecidableEq, Repr

/-- The atomic operations (Table 7.6). -/
inductive AtomOp where
  | swp | add | and | or | xor | smax | umax | cas
deriving DecidableEq, Repr

/-- The sizes of an access (R183). -/
inductive MemSize where
  | b | h | w | d
deriving DecidableEq, Repr

/-- The engine commands (Table 8.7). -/
inductive EngOp where
  | book | reefLook | reefIns | reefDel | cySub0 | cySub1 | patSub | movSub
deriving DecidableEq, Repr

/-- A Limoon instruction without its guard (Tables 7.1 to 7.7, 8.1 to 8.7), by format. -/
inductive LimOp where
  /-- ALU; w selects the W form. -/
  | alu (op : AluOp) (w : Bool) (d a b : BitVec 5)
  /-- MUL and its kin. -/
  | mul (op : MulOp) (w : Bool) (d a b : BitVec 5)
  /-- ADDI, ANDI, ORI, XORI. -/
  | imm (op : ImmOp) (d a : BitVec 5) (imm : BitVec 12)
  /-- SHFI. -/
  | shfi (op : ShfOp) (w : Bool) (d a : BitVec 5) (amount : BitVec 6)
  /-- LIM. -/
  | lim (d : BitVec 5) (imm : BitVec 17)
  /-- SHI. -/
  | shi (d : BitVec 5) (imm : BitVec 16)
  /-- CMP. -/
  | cmp (cc : CmpCond) (pd : BitVec 3) (a b : BitVec 5)
  /-- CMPI. -/
  | cmpi (cc : CmpCond) (pd : BitVec 3) (a : BitVec 5) (imm : BitVec 11)
  /-- PLOG. -/
  | plog (op : PlogOp) (pd pa pb : BitVec 3)
  /-- LDB to LDWS. -/
  | load (size : MemSize) (sext : Bool) (d a : BitVec 5) (imm : BitVec 12)
  /-- STB to STD. -/
  | store (size : MemSize) (d a : BitVec 5) (imm : BitVec 12)
  /-- LDX. -/
  | ldx (size : MemSize) (sext : Bool) (scale : BitVec 2) (d a b : BitVec 5)
  /-- STX. -/
  | stx (size : MemSize) (scale : BitVec 2) (d a b : BitVec 5)
  /-- ATOM; order bit 0 acquire, bit 1 release. -/
  | atom (op : AtomOp) (wide : Bool) (order : BitVec 2) (d a b : BitVec 5)
  /-- BR. -/
  | br (off : BitVec 22)
  /-- CALL. -/
  | call (off : BitVec 22)
  /-- JMPR. -/
  | jmpr (a : BitVec 5)
  /-- CALLR. -/
  | callr (a : BitVec 5)
  /-- FENCE with its kind: bit 4 INV, 3 PL, 2 PS, 1 SL, 0 SS. -/
  | fence (kind : BitVec 5)
  /-- DCINV. -/
  | dcinv (a : BitVec 5)
  /-- DCINVALL. -/
  | dcinvall
  /-- ICINV. -/
  | icinv
  /-- TRAP with its detail. -/
  | trap (b : BitVec 5)
  /-- BRK. -/
  | brk
  /-- XRET. -/
  | xret
  /-- STOP. -/
  | stop
  /-- MFS. -/
  | mfs (d : BitVec 5) (sr : BitVec 12)
  /-- MTS. -/
  | mts (a : BitVec 5) (sr : BitVec 12)
  /-- CH.PUT: channel in a, word in b. -/
  | chPut (a b : BitVec 5)
  /-- CH.SEAL. -/
  | chSeal (pd : BitVec 3) (a : BitVec 5)
  /-- CH.TRY. -/
  | chTry (pd : BitVec 3) (a : BitVec 5)
  /-- CH.GET of n words. -/
  | chGet (pd : BitVec 3) (d a n : BitVec 5)
  /-- DLCHK. -/
  | dlchk (pd : BitVec 3) (a b : BitVec 5)
  /-- DLLEFT. -/
  | dlleft (d a : BitVec 5)
  /-- PW.OPEN of window w. -/
  | pwOpen (w : Bool) (d a : BitVec 5)
  /-- PW.CLOSE of window w. -/
  | pwClose (w : Bool)
  /-- PW.FREE. -/
  | pwFree (a : BitVec 5)
  /-- An engine command: token to d, block at a, reply channel in b. -/
  | eng (op : EngOp) (d a b : BitVec 5)
deriving DecidableEq, Repr

end Sys2Proof
end

