-- ==== Sys2Proof/Syntax.lean ====
section
/-! DEFINITION. The commands of the block: one constructor of Instr for each row of the table of operations and
events, with the row's operands. -/

namespace Sys2Proof

/-- The commands. Each constructor is the row of the table named in its line, with the rule that governs it. Those that an agent
writes and a thread issues stand last. -/
inductive Instr where
  /-- SLOT_BOUNDARY (R101). At each slot boundary calendars retire and enter slots, buckets, shapers and policers refill, queues are sampled and the claim dispatcher hands out booked shoal work. -/
  | slotBoundary
  /-- EPOCH_BOUNDARY (R11). At each epoch boundary EPOCH-class fields commit from their shadows, F_HW and the governor epoch margins are computed and the servo integ may be set from REF10M_IN. -/
  | epochBoundary
  /-- PORST_N_RISE (R487). The release of PORST_N samples the straps and starts power-on reset with Tide time at 0 and Headland entering SELFTEST. -/
  | porstNRise (bootSrc testMode : Bool) (oobAddr : BitVec 2)
  /-- PORST_N_FALL (R488). A fall of PORST_N while running is a power-on reset that loses all volatile state. -/
  | porstNFall
  /-- PPS_IN_EDGE (R56). A rising edge of PPS_IN is timestamped, ignored if under 0.5 s after the last, and otherwise recorded and used as a measurement. -/
  | ppsInEdge (edge : BitVec 80)
  /-- SOURCE_TIMEOUT (R48). SOURCE_TIMEOUT expires without a consumed measurement and the servo enters HOLDOVER with SOURCE_LOST set. -/
  | sourceTimeout
  /-- REF10M_LOSS (R58). Ten missing cycles of REF10M_IN set REF10M_LOST and freeze integ. -/
  | ref10mLoss
  /-- FORCED_STEP_HOLD (R52). At the first epoch boundary after the request ADMIT_HOLD sets and new admissions are refused. -/
  | forcedStepHold
  /-- FORCED_STEP_APPLY (R52). At the next epoch boundary the rounded step is added in the step tick, holds clear and the servo enters ACQUIRE. -/
  | forcedStepApply
  /-- PPS_OUT_EDGE (R57). PPS_OUT rises at each whole second plus OFFSET and falls after WIDTH_MS when driving is allowed. -/
  | ppsOutEdge
  /-- TX (R82). A TX native descriptor sampled at Breakwater is put through the admission test and booked or refused. -/
  | tx (tid : BitVec 9) (ring : BitVec 6) (head : BitVec 16) (desc : Desc)
  /-- RX_POST (R390). An RX_POST descriptor posts a buffer to a receive queue, or is forgotten if the queue is disabled, and releases frames waiting for a buffer. -/
  | rxPost (tid : BitVec 9) (ring : BitVec 6) (head : BitVec 16) (desc : Desc)
  /-- SWW (R304). An SWW descriptor is checked against its connection and admitted as a Swash remote write. -/
  | sww (tid : BitVec 9) (ring : BitVec 6) (head : BitVec 16) (desc : Desc)
  /-- SWR (R304). An SWR descriptor is checked against its connection and admitted as a Swash remote read. -/
  | swr (tid : BitVec 9) (ring : BitVec 6) (head : BitVec 16) (desc : Desc)
  /-- ST_FLUSH (R344). A native ST Flush is admitted and completes once every earlier write of its namespace has completed. -/
  | stFlush (tid : BitVec 9) (ring : BitVec 6) (head : BitVec 16) (desc : Desc)
  /-- ST_WRITE (R337). A native ST Write is admitted and its data staged and handed to the namespace's backend. -/
  | stWrite (tid : BitVec 9) (ring : BitVec 6) (head : BitVec 16) (desc : Desc)
  /-- ST_READ (R337). A native ST Read is admitted and served from the namespace's backend. -/
  | stRead (tid : BitVec 9) (ring : BitVec 6) (head : BitVec 16) (desc : Desc)
  /-- ST_WRITE_ZEROES (R337). A native ST Write Zeroes is admitted and zeroes LENGTH bytes on the backend. -/
  | stWriteZeroes (tid : BitVec 9) (ring : BitVec 6) (head : BitVec 16) (desc : Desc)
  /-- ST_DATASET_MANAGEMENT (R337). A native ST Dataset Management deallocates the ranges listed at ADDR0. -/
  | stDatasetManagement (tid : BitVec 9) (ring : BitVec 6) (head : BitVec 16) (desc : Desc)
  /-- CY_ENCRYPT (R359). A native CY encrypt descriptor is admitted and queued on its tenant's look-aside queue. -/
  | cyEncrypt (tid : BitVec 9) (ring : BitVec 6) (head : BitVec 16) (desc : Desc)
  /-- CY_DECRYPT (R359). A native CY decrypt descriptor is admitted and queued on its tenant's look-aside queue. -/
  | cyDecrypt (tid : BitVec 9) (ring : BitVec 6) (head : BitVec 16) (desc : Desc)
  /-- CY_MAC_GENERATE (R359). A native CY MAC generate descriptor is admitted and queued on its tenant's look-aside queue. -/
  | cyMacGenerate (tid : BitVec 9) (ring : BitVec 6) (head : BitVec 16) (desc : Desc)
  /-- CY_MAC_VERIFY (R359). A native CY MAC verify descriptor is admitted and queued on its tenant's look-aside queue. -/
  | cyMacVerify (tid : BitVec 9) (ring : BitVec 6) (head : BitVec 16) (desc : Desc)
  /-- DECISION_TAKE_EFFECT (R131). At the boundary ending the deciding tick the decisions and releases become visible once the standby has acknowledged the journal. -/
  | decisionTakeEffect
  /-- JOURNAL_APPLY (R130). The standby checks and applies the active unit's journal of the tick and acknowledges it. -/
  | journalApply (codeError : Bool)
  /-- STANDBY_LAPSE (R132). A missing acknowledgement or a code error in a journal puts the unit into LAPSED. -/
  | standbyLapse
  /-- LAPSED_RECOPY (R133). At the first epoch boundary after lapsing a unit starts COPY, or enters FAILED on a third lapse. -/
  | lapsedRecopy (unit : BitVec 1)
  /-- ACTIVE_CHECK_FAIL (R137). The active unit fails a self-check, voids its journal and the standby takes over with the tick's inputs replayed. -/
  | activeCheckFail (cause : BitVec 3)
  /-- SWAP_EXCHANGE (R138). At the next slot boundary the two units exchange roles. -/
  | swapExchange
  /-- UNIT_BIST_DONE (R141). A unit's BIST ends and the unit enters COPY, OFF or FAILED. -/
  | unitBistDone (unit : BitVec 1) (pass : Bool)
  /-- UNIT_COPY_DONE (R141). A unit finishes copying the snapshot and enters CATCHUP. -/
  | unitCopyDone (unit : BitVec 1)
  /-- UNIT_STANDBY_ENTER (R141). A caught-up unit enters STANDBY at the next epoch boundary and SYNC_DONE sets. -/
  | unitStandbyEnter (unit : BitVec 1)
  /-- RECOVER_ACTIVATE (R140). At the next epoch boundary the recovering unit becomes ACTIVE with empty tables and standing amounts re-entered. -/
  | recoverActivate (unit : BitVec 1)
  /-- BREAKWATER_LOST_CLEAR (R140). At the following epoch boundary BREAKWATER_LOST clears and admissions resume. -/
  | breakwaterLostClear
  /-- HOST_READ_BOUND_EXPIRY (R76). A host read passes HOST_READ_BOUND without completion and its operation's assumption fails. -/
  | hostReadBoundExpiry (link : BitVec 1) (tag : BitVec 14)
  /-- BACKEND_BOUND_EXPIRY (R76). A storage backend's declared bound runs out before its answer and the command's assumption fails. -/
  | backendBoundExpiry (op : Nat)
  /-- WORK_ITEM_START (R107). Ready work starts on an engine with capacity, chosen by the claim order of the slot. -/
  | workItemStart (kind inst : BitVec 8) (rx : Bool)
  /-- WORK_ITEM_FINISH (R84). Work finishes a stage and releases the booked capacity it no longer needs. -/
  | workItemFinish (op : Nat) (kind inst : BitVec 8) (rx : Bool)
  /-- TX_FRAME_START (R109). A frame whole in the packet buffer starts on the wire as planned or chosen by the transmit hierarchy. -/
  | txFrameStart (port : BitVec 4) (sub : BitVec 19)
  /-- TX_FRAME_END (R253). A frame's last bit leaves the PMA, counting it and delivering its TX operation. -/
  | txFrameEnd (port : BitVec 4)
  /-- GATE_TRANSITION (R116). A gate list interval ends and the port's gate states change. -/
  | gateTransition (port : BitVec 4)
  /-- GATE_LIST_PEND (R118). At E0 the admin list is checked and copied to pending, or refused with GATE_REFUSED. -/
  | gateListPend (port : BitVec 4)
  /-- GATE_LIST_OPERATIONAL (R118). At E1 the pending list becomes operational. -/
  | gateListOperational (port : BitVec 4)
  /-- POLICER_CHECK (R124). At the epoch boundary after an enable or change a policer is checked and its standing amounts booked all or nothing. -/
  | policerCheck (policer : BitVec 12)
  /-- GOV_STALE (R96). With no BWK_GOV_APPLY write for 64 epochs GOV_STALE sets and fallback values apply. -/
  | govStale
  /-- SHOAL_DRAINED (R153). A draining shoal holds no booking and no owed ticks and DRAINED sets. -/
  | shoalDrained (shoal : BitVec 4)
  /-- UNIT_POST (R158). A unit posts a held message to a channel when it has room, retrying each tick. -/
  | unitPost (channel : BitVec 13)
  /-- DEADLOCK (R163). A group's stuck count reaches WINDOW and DEADLOCK is raised with a snapshot. -/
  | deadlock (shoal : BitVec 4) (group : BitVec 3)
  /-- LOAD_RETURN (R197). An outstanding memory access returns its data or a delayed fault. -/
  | loadReturn (thread : BitVec 10) (access : Nat)
  /-- RUN_RELEASE (R216). At the boundary after PW.FREE the run's windows close, GEN advances and its cells return. -/
  | runRelease (shoal : BitVec 4) (cell : BitVec 21)
  /-- BOOK_DECISION (R225). Breakwater posts the 2-word decision of a BOOK when it becomes visible. -/
  | bookDecision
  /-- PAT_REPLY (R230). The pattern engine posts its matches once the scan ends. -/
  | patReply (shoal : BitVec 4)
  /-- MOV_REPLY (R231). The data mover posts its reply once every write is performed. -/
  | movReply (shoal : BitVec 4)
  /-- LINK_TRAINED (R235). Every lane of a port trains with its peer and the port enters ALIGNING. -/
  | linkTrained (port : BitVec 4) (rxInverted : BitVec 8) (rxOrder : BitVec 24)
  /-- TX_POLARITY_FLIP (R236). A lane without peer receiver lock in 2 ms has its transmit data inverted and retrains. -/
  | txPolarityFlip (port : BitVec 4) (lane : BitVec 3)
  /-- TRAIN_FAIL (R235). Training fails to succeed in 500 ms, TRAIN_FAIL sets and training restarts. -/
  | trainFail (port : BitVec 4)
  /-- ALIGN_TIMEOUT (R235). Alignment is lost or 50 ms pass in ALIGNING and the port returns to TRAINING. -/
  | alignTimeout (port : BitVec 4) (lost : Bool)
  /-- LINK_UP (R237). Alignment and FEC lock held for 1 ms bring the port UP and held frames are sent. -/
  | linkUp (port : BitVec 4)
  /-- LINK_DOWN (R237). A port leaves UP, failing the link assumption of its operations and cutting off receive. -/
  | linkDown (port : BitVec 4) (cut : Option (List Byte))
  /-- FRAME_RECEIVE (R241). A frame's last bit and FCS are checked and the frame passes to a pipeline, or is counted bad and dropped or delivered. -/
  | frameReceive (port : BitVec 4) (bytes : List Byte) (align : Bool) (sfd : Nat)
  /-- PFC_SEND_REPEAT (R246). The PFC frame is repeated every QUANTA/2 while occupancy stays above XON_KIB, or a zero pause is sent once it falls. -/
  | pfcSendRepeat (port : BitVec 4)
  /-- PFC_FRAME_RECEIVE (R245). A received PFC frame pauses the mapped queues under PFC_MODE. -/
  | pfcFrameReceive (port : BitVec 4) (bytes : List Byte)
  /-- PFC_PAUSE_EXPIRY (R245). A priority's pause time runs out and its queues resume. -/
  | pfcPauseExpiry (port : BitVec 4) (priority : BitVec 3)
  /-- PIPELINE_PASS (R255). A good frame is sampled at its pipeline and parsed into the field vector. -/
  | pipelinePass (port : BitVec 4)
  /-- REEF_LOOKUP (R282). A pipeline stage lookup is applied at Reef, hitting and refreshing an entry or missing or being shed. -/
  | reefLookup (port : BitVec 4) (stage : BitVec 2)
  /-- ACTION_SETTLE (R262). At P+80 the frame's action is settled, the policer colours it and mirror, exception and learning are charged. -/
  | actionSettle (port : BitVec 4)
  /-- FRAME_HAND_ON (R255). At P+88 the frame goes to the host write path, a port queue, Swash receive or a shoal's pattern engine. -/
  | frameHandOn (port : BitVec 4)
  /-- HANDOFF_POST (R267). The pattern engine writes the headroom, scans if asked and posts the handoff message when the channel has room. -/
  | handoffPost (shoal : BitVec 4)
  /-- PROG_CHECK (R256). At the epoch boundary the admin program is checked and made operational, or PROG_REFUSED sets. -/
  | progCheck
  /-- PAT_IMAGE_CHECK (R270). At E0 the engines read and check the image and build the shadow memory, or PAT_REFUSED sets. -/
  | patImageCheck
  /-- PAT_IMAGE_ACTIVATE (R269). At E1 the new pattern memory takes effect in all engines. -/
  | patImageActivate
  /-- REEF_PATH_STEP (R286). One write of a running exact-match relocation path is made, the last writing the new key and posting the reply. -/
  | reefPathStep
  /-- PFX_MOVE (R297). One move of a running prefix path is made, the last writing the new entry and posting the reply. -/
  | pfxMove
  /-- AGEING_SWEEP_VISIT (R291). The sweep visits one entry per HBM group and removes it if stale or poisoned. -/
  | ageingSweepVisit
  /-- LEARN_COMMIT (R294). Up to two queued learn requests are committed as inserts. -/
  | learnCommit
  /-- CONN_OPEN_CHECK (R306). At E0 an opening connection is checked and its placement booked, entering OPEN or returning to CLOSED. -/
  | connOpenCheck (conn : BitVec 20)
  /-- CONN_CLOSE_EFFECT (R307). At the epoch boundary the connection enters CLOSING or CLOSED and its standing amounts are released. -/
  | connCloseEffect (conn : BitVec 20)
  /-- CONN_CLOSED (R305). A CLOSING connection with nothing outstanding becomes CLOSED. -/
  | connClosed (conn : BitVec 20)
  /-- SWASH_PACKET_TRANSMIT (R311). A Swash packet is built from the template and transmitted in its booked slot or at the congestion rate. -/
  | swashPacketTransmit (port : BitVec 4)
  /-- WRITE (R315). A received WRITE packet is deduplicated, checked against the window and placed or NAKed. -/
  | write (pkt : SwPacket)
  /-- READ_REQ (R324). A received READ_REQ is checked and queued to be answered with READ_RESP packets. -/
  | readReq (pkt : SwPacket)
  /-- READ_RESP (R324). A received READ_RESP is checked against the outstanding read, metered and placed. -/
  | readResp (pkt : SwPacket)
  /-- ACK (R325). A received ACK answers a PSN, samples the RTT and may complete the operation. -/
  | ack (pkt : SwPacket)
  /-- NAK (R326). A received NAK answers a PSN, stops the message's unsent packets and records the reason. -/
  | nak (pkt : SwPacket)
  /-- PLACEMENT_DONE (R316). A packet's last placement write is handed and its ACK is sent, or a tag failure returns its entry to NONE. -/
  | placementDone (conn : BitVec 20) (psn : BitVec 24)
  /-- MSG_ABANDONED (R318). A tracker entry without packets for PARTIAL_TIMEOUT epochs is freed. -/
  | msgAbandoned (conn : BitVec 20) (msn : BitVec 24)
  /-- RETX_TIMEOUT (R325). A PSN's timer expires and the packet is retransmitted, or after the 7th retransmission the connection fails. -/
  | retxTimeout (conn : BitVec 20) (psn : BitVec 24)
  /-- CC_PERIOD_STEP (R328). Every CC_PERIOD slots the congestion law updates each active connection's rate. -/
  | ccPeriodStep
  /-- WINDOW_INSTALL (R322). Once no placement or read remains, staged values install, GEN advances and DONE sets. -/
  | windowInstall (window : BitVec 22)
  /-- SQ_TAIL_DOORBELL (R391). A submission tail doorbell starts fetching descriptors from the ring, or is discarded. -/
  | sqTailDoorbell (tid : BitVec 9) (ring : BitVec 6) (index : BitVec 16) (tee : Bool)
  /-- CQ_HEAD_DOORBELL (R391). A completion head doorbell frees room in a completion ring. -/
  | cqHeadDoorbell (tid : BitVec 9) (ring : BitVec 6) (index : BitVec 16) (tee : Bool)
  /-- DESCRIPTOR_FETCH (R391). Up to 16 further descriptors per ring are fetched in a tick until the tail is reached. -/
  | descriptorFetch (tid : BitVec 9) (ring : BitVec 6)
  /-- HOST_READ_COMPLETION (R395). A host read completion returns data, or ends its operation with HOST_ABORT or POISON. -/
  | hostReadCompletion (link : BitVec 1) (tag : BitVec 14) (status : Fin 4) (data : List Byte)
  /-- COMPLETION_TIMEOUT (R395). A host read times out, freeing its tag and ending its operation with HOST_ABORT. -/
  | completionTimeout (link : BitVec 1) (tag : BitVec 14)
  /-- COMPLETION_WRITE (R391). A completion waiting for room in its ring is written once the ring has room. -/
  | completionWrite (tid : BitVec 9) (ring : BitVec 7) (nvme : Bool)
  /-- NVME_SQ_DOORBELL (R336). An NVMe submission doorbell starts fetching entries from the queue. -/
  | nvmeSqDoorbell (tid : BitVec 9) (sq : BitVec 7) (index : BitVec 16) (tee : Bool)
  /-- NVME_ENTRY_FETCH (R336). Up to 16 further NVMe entries per queue are fetched in a tick until the tail is reached. -/
  | nvmeEntryFetch (tid : BitVec 9) (sq : BitVec 7)
  /-- DELETE_IO_SQ (R349). Delete I/O SQ aborts queued commands and completes when none remain. -/
  | deleteIoSq (cmd : NvAdmin)
  /-- DELETE_IO_CQ (R349). Delete I/O CQ removes a completion queue. -/
  | deleteIoCq (cmd : NvAdmin)
  /-- CREATE_IO_SQ (R335). Create I/O SQ creates a submission queue. -/
  | createIoSq (cmd : NvAdmin)
  /-- CREATE_IO_CQ (R335). Create I/O CQ creates a completion queue. -/
  | createIoCq (cmd : NvAdmin)
  /-- GET_LOG_PAGE (R335). Get Log Page returns a supported log. -/
  | getLogPage (cmd : NvAdmin)
  /-- IDENTIFY (R335). Identify returns controller or namespace data. -/
  | identify (cmd : NvAdmin)
  /-- ABORT (R347). NVMe Abort catches a fetched command not yet handed to its backend or reports why not. -/
  | abort (cmd : NvAdmin)
  /-- SET_FEATURES (R335). Set Features sets a supported feature. -/
  | setFeatures (cmd : NvAdmin)
  /-- GET_FEATURES (R335). Get Features returns a supported feature. -/
  | getFeatures (cmd : NvAdmin)
  /-- FIRMWARE_IMAGE_DOWNLOAD (R350). Firmware Image Download stages a piece of an image in device memory. -/
  | firmwareImageDownload (cmd : NvAdmin)
  /-- FIRMWARE_COMMIT_ACTION_0 (R350). Firmware Commit action 0 writes the image to the inactive slot without marking it. -/
  | firmwareCommitAction0 (cmd : NvAdmin)
  /-- FIRMWARE_COMMIT_ACTION_1 (R350). Firmware Commit action 1 writes and marks the image for activation at the next power-on reset. -/
  | firmwareCommitAction1 (cmd : NvAdmin)
  /-- FIRMWARE_COMMIT_ACTION_2 (R350). Firmware Commit action 2 marks the image for activation at the next power-on reset. -/
  | firmwareCommitAction2 (cmd : NvAdmin)
  /-- FIRMWARE_COMMIT_ACTION_3 (R350). Firmware Commit action 3 sets ACT_HOLD and waits for storage to quiesce to activate at once. -/
  | firmwareCommitAction3 (cmd : NvAdmin)
  /-- ACTIVATION_QUIESCED (R350). No storage command remains, the new image starts and ACT_HOLD clears on ready. -/
  | activationQuiesced
  /-- ACT_FAILED (R350). ACT_LIMIT_MS passes first, the old image continues and the Commit fails. -/
  | actFailed
  /-- DEVICE_SELF_TEST_SHORT (R352). Device Self-test STC short starts a short test in unbooked capacity. -/
  | deviceSelfTestShort (cmd : NvAdmin)
  /-- DEVICE_SELF_TEST_EXTENDED (R352). Device Self-test STC extended starts an extended test. -/
  | deviceSelfTestExtended (cmd : NvAdmin)
  /-- DEVICE_SELF_TEST_ABORT (R352). Device Self-test STC 0xF aborts the running test. -/
  | deviceSelfTestAbort (cmd : NvAdmin)
  /-- SELF_TEST_END (R352). A self-test completes or fails a read and records its result in log page 0x06. -/
  | selfTestEnd (tid : BitVec 9) (failed : Option (BitVec 64))
  /-- FLUSH (R344). NVMe Flush is admitted and completes once earlier writes of the namespace have completed. -/
  | flush (cmd : NvCmd)
  /-- NVME_WRITE (R345). NVMe Write is admitted and written durably and atomically per 128 KiB piece. -/
  | nvmeWrite (cmd : NvCmd)
  /-- NVME_READ (R346). NVMe Read is admitted and served from the backend. -/
  | nvmeRead (cmd : NvCmd)
  /-- WRITE_ZEROES (R345). NVMe Write Zeroes is admitted and zeroes the named LBAs. -/
  | writeZeroes (cmd : NvCmd)
  /-- DATASET_MANAGEMENT (R335). NVMe Dataset Management deallocates up to 256 ranges. -/
  | datasetManagement (cmd : NvCmd)
  /-- CC_EN_SET (R334). A host write setting CC.EN enables the NVMe controller. -/
  | ccEnSet (tid : BitVec 9) (cc : BitVec 32) (tee : Bool)
  /-- CC_EN_CLEAR (R349). Clearing CC.EN squashes queued commands and lets running ones end before CSTS.RDY clears. -/
  | ccEnClear (tid : BitVec 9) (cc : BitVec 32) (tee : Bool)
  /-- CC_SHN_SET (R349). Setting CC.SHN stops fetching and sets SHST once no command remains. -/
  | ccShnSet (tid : BitVec 9) (cc : BitVec 32) (tee : Bool)
  /-- BACKEND_HAND (R342). The storage layer hands a command to its backend, starting its bound and timeout. -/
  | backendHand (op : Nat)
  /-- BACKEND_RESPONSE (R341). A backend's answer completes its command, or is discarded if the command was squashed or detached. -/
  | backendResponse (op : Nat) (status : Fin 3) (data : List Byte)
  /-- BACKEND_TIMEOUT (R342). A backend fails to answer in TIMEOUT_MS, the command fails with MEDIA_ERROR and AVAILABLE clears. -/
  | backendTimeout (op : Nat)
  /-- LOOKASIDE_REQUEST_START (R371). A look-aside engine starts a queued request, reading its block and drawing an invocation. -/
  | lookasideRequestStart (engine : BitVec 5)
  /-- SUSPEND (R362). A request is suspended at its next block boundary for a waiting tighter-class request. -/
  | suspend (engine : BitVec 5) (pos : BitVec 32)
  /-- RESUME (R363). A suspended request resumes once no tighter request waits. -/
  | resume (engine : BitVec 5)
  /-- LOOKASIDE_REQUEST_DONE (R364). A look-aside request ends, its tag checked, and its completion or CY.SUB reply posted. -/
  | lookasideRequestDone (engine : BitVec 5)
  /-- SLOT_EMPTY (R372). A draining slot with nothing naming it is zeroed, or wrapped into its record, and becomes EMPTY. -/
  | slotEmpty (slot : BitVec 14)
  /-- RX_OPEN_CHECK (R367). At the epoch boundary a change of RX_OPEN rechecks the tenant's policers with inline amounts. -/
  | rxOpenCheck (tid : BitVec 9)
  /-- TAMPER_ALARM (R376). A tamper source erases every key, the wrapping key and contexts and ends operations naming slots. -/
  | tamperAlarm (source : Fin 5)
  /-- HOST_LINK_RESET (R383). A hot reset, link disable or data link loss resets every function of the link. -/
  | hostLinkReset (link : BitVec 1)
  /-- PERST_ASSERT (R489). PERST_A_N or PERST_B_N asserted resets its link under the link reset rule. -/
  | perstAssert (link : BitVec 1)
  /-- HOST_LINK_UP (R382). A host link trains and sets DEGRADED if below 64.0 GT/s x16. -/
  | hostLinkUp (link : BitVec 1) (speed : BitVec 4) (width : BitVec 8) (flit : Bool)
  /-- VF_ENABLE_SET (R386). Setting VF Enable brings the VFs into their after-FLR state. -/
  | vfEnableSet (pf : BitVec 9)
  /-- VF_ENABLE_CLEAR (R386). Clearing VF Enable initiates an FLR of each VF. -/
  | vfEnableClear (pf : BitVec 9)
  /-- RING_ENABLE (R390). ENABLE of a ring draws it from the pool and zeroes HEAD and TAIL, or is refused. -/
  | ringEnable (tid : BitVec 9) (qtype : BitVec 2) (qindex vector : BitVec 8) (bind : BitVec 6) (size : BitVec 5) (tee : Bool)
  /-- RING_DISABLE (R390). Clearing ENABLE stops fetching, discards completions or forgets buffers of the ring. -/
  | ringDisable (tid : BitVec 9) (qtype : BitVec 2) (qindex : BitVec 8) (tee : Bool)
  /-- BUS_MASTER_ENABLE_CLEAR (R396). Clearing Bus Master Enable stops requests and ends the function's host-bound operations with HOST_ABORT. -/
  | busMasterEnableClear (tid : BitVec 9)
  /-- BUS_MASTER_ENABLE_SET (R397). Setting Bus Master Enable lets the function issue again and sends held steward interrupts. -/
  | busMasterEnableSet (tid : BitVec 9)
  /-- MEMORY_SPACE_ENABLE_CLEAR (R397). Clearing Memory Space Enable makes BAR requests complete with UR. -/
  | memorySpaceEnableClear (tid : BitVec 9) (vfs : Bool)
  /-- MEMORY_SPACE_ENABLE_SET (R397). Setting Memory Space Enable lets BAR requests reach the function. -/
  | memorySpaceEnableSet (tid : BitVec 9) (vfs : Bool)
  /-- D3HOT_ENTRY (R397). Entry to D3hot acts as clearing both enables. -/
  | d3hotEntry (tid : BitVec 9)
  /-- D0_RETURN (R397). Return to D0 restores the enables the Command register holds. -/
  | d0Return (tid : BitVec 9)
  /-- INITIATE_FLR (R399). An FLR ends queued operations, detaches backend commands and revokes the tenant's Swash resources. -/
  | initiateFlr (tid : BitVec 9)
  /-- FLR_COMPLETE (R400). With no engine step or tag left, or 90 ms passed, the function returns to reset values. -/
  | flrComplete (tid : BitVec 9)
  /-- QUEUES_STALE_CLEAR (R396). Clearing QUEUES_STALE lets the function fetch and complete again. -/
  | queuesStaleClear (tid : BitVec 9) (tee : Bool)
  /-- ATS_INVALIDATION_REQUEST (R402). An ATS invalidation stops new use of the translation. -/
  | atsInvalidationRequest (link : BitVec 1) (itag : BitVec 5) (tid : BitVec 9) (addr : BitVec 64) (len : BitVec 64)
  /-- ATS_INVALIDATION_COMPLETE (R402). Once every use of the entry has finished the Invalidation Completion is sent. -/
  | atsInvalidationComplete (link : BitVec 1) (itag : BitVec 5)
  /-- GET_VERSION (R403). SPDM GET_VERSION is answered over DOE or MCTP. -/
  | getVersion (link : Fin 3)
  /-- GET_CAPABILITIES (R403). SPDM GET_CAPABILITIES is answered. -/
  | getCapabilities (link : Fin 3)
  /-- NEGOTIATE_ALGORITHMS (R403). SPDM NEGOTIATE_ALGORITHMS fixes the algorithms. -/
  | negotiateAlgorithms (link : Fin 3) (offered : Bool)
  /-- GET_DIGESTS (R403). SPDM GET_DIGESTS returns certificate digests. -/
  | getDigests (link : Fin 3)
  /-- GET_CERTIFICATE (R403). SPDM GET_CERTIFICATE returns the certificate chain. -/
  | getCertificate (link : Fin 3)
  /-- CHALLENGE (R403). SPDM CHALLENGE is signed with the identity key. -/
  | challenge (link : Fin 3)
  /-- GET_MEASUREMENTS (R403). SPDM GET_MEASUREMENTS returns Headland's measurements. -/
  | getMeasurements (link : Fin 3)
  /-- KEY_EXCHANGE (R403). SPDM KEY_EXCHANGE starts a secure session. -/
  | keyExchange (link : Fin 3) (session : BitVec 32)
  /-- FINISH (R403). SPDM FINISH completes session setup. -/
  | finish (link : Fin 3)
  /-- HEARTBEAT (R403). SPDM HEARTBEAT keeps a session alive. -/
  | heartbeat (link : Fin 3)
  /-- KEY_UPDATE (R403). SPDM KEY_UPDATE updates session keys. -/
  | keyUpdate (link : Fin 3)
  /-- END_SESSION (R403). SPDM END_SESSION ends a session. -/
  | endSession (link : Fin 3)
  /-- IDE_KM (R404). An IDE_KM message within a session programs the keys of a selective stream. -/
  | ideKm (link : BitVec 1) (stream : BitVec 3) (what : Fin 3) (sub : BitVec 3) (key : List Byte)
  /-- LOCK_INTERFACE_REQUEST (R404). TDISP LOCK_INTERFACE_REQUEST moves a TDI to CONFIG_LOCKED and freezes its resources. -/
  | lockInterfaceRequest (tid : BitVec 9)
  /-- START_INTERFACE_REQUEST (R404). TDISP START_INTERFACE_REQUEST moves a TDI to RUN. -/
  | startInterfaceRequest (tid : BitVec 9)
  /-- STOP_INTERFACE_REQUEST (R404). TDISP STOP_INTERFACE_REQUEST returns a TDI to CONFIG_UNLOCKED. -/
  | stopInterfaceRequest (tid : BitVec 9)
  /-- GET_DEVICE_INTERFACE_REPORT (R404). TDISP GET_DEVICE_INTERFACE_REPORT returns the function's MMIO ranges and contract. -/
  | getDeviceInterfaceReport (tid : BitVec 9)
  /-- IDE_CHECK_FAILED (R404). A TLP failing its integrity check is dropped, the stream goes Insecure and its TDIs enter ERROR. -/
  | ideCheckFailed (link : BitVec 1) (stream : BitVec 3)
  /-- MGMT_INTERRUPT_SEND (R405). The steward's management MSI-X message is sent once sending is possible. -/
  | mgmtInterruptSend
  /-- SLOT_POWER_ON (R408). Power Controller Control written 0 drives SLOTn_PWREN high. -/
  | slotPowerOn (slot : BitVec 3)
  /-- SLOT_PERST_RELEASE (R408). PWR_ON_DELAY_MS after power-on SLOTn_PERST_N is released. -/
  | slotPerstRelease (slot : BitVec 3)
  /-- SLOT_POWER_OFF (R408). Power Controller Control written 1 asserts SLOTn_PERST_N. -/
  | slotPowerOff (slot : BitVec 3)
  /-- SLOT_PWREN_OFF (R408). 1 ms after PERST assertion SLOTn_PWREN is driven low. -/
  | slotPwrenOff (slot : BitVec 3)
  /-- ATTENTION_BUTTON_PRESSED (R408). SLOTn_BTN_N low for 20 ms sets Attention Button Pressed. -/
  | attentionButtonPressed (slot : BitVec 3)
  /-- SLOT_SURPRISE_REMOVAL (R409). Loss of presence, data link or power fault powers the slot down and fails its backend's commands. -/
  | slotSurpriseRemoval (slot : BitVec 3) (what : Fin 3)
  /-- SSD_INTERRUPT (R407). An SSD write to the interrupt range is posted as a message to a channel. -/
  | ssdInterrupt (slot : BitVec 3) (offset : BitVec 16) (data : BitVec 32)
  /-- SSD_DMA_REQUEST (R407). An SSD memory request is checked against DMA_SHOAL's grants and served. -/
  | ssdDmaRequest (slot : BitVec 3) (addr : BitVec 64) (len : BitVec 13) (data : Option (List Byte))
  /-- PCFG_CYCLE_END (R410). A configuration cycle answers or gets no answer in 50 ms and BUSY clears. -/
  | pcfgCycleEnd (status : Fin 4) (data : BitVec 32)
  /-- MEM_TRAIN_DONE (R413). Training ends, DONE sets and failed units are reported. -/
  | memTrainDone (ddrFail : BitVec 8) (hbmFail : BitVec 2) (ddrBytes : BitVec 42)
  /-- MEMORY_READ_ERROR (R416). A read's syndromes show a correctable, misdirected, poisoned or uncorrectable line. -/
  | memoryReadError (addr : BitVec 48) (stored : List Byte) (who : ReadBy)
  /-- PATROL_SCRUB (R418). The patrol scrub reads PATROL_BURSTS bursts per slot in each channel and group. -/
  | patrolScrub
  /-- FIREWALL_REGION_CHECK (R422). At the epoch boundary the region set is checked and applied, or FW_REFUSED sets. -/
  | firewallRegionCheck
  /-- ERROR_RING_WRITE (R426). Up to 4 records per tick move from the FIFO to the DDR ring while it has room. -/
  | errorRingWrite
  /-- SELFTEST_FAIL (R435). A continuous health test fails after start, zeroising keys and disabling sealed channels. -/
  | selftestFail (algorithm : BitVec 16)
  /-- BOOT_SELECT (R441). Headland chooses and verifies a bundle slot or enters RECOVERY. -/
  | bootSelect (readErr : BitVec 2)
  /-- CONFIGURE (R443). Headland loads components, register lists, firewall and vectors and runs Breakwater BIST before locking keys. -/
  | configure
  /-- FUSE_COMMIT_DONE (R448). The fuse blows end, RESULT is set and FUSE_COMMIT logged. -/
  | fuseCommitDone (failed : Bool)
  /-- UPDATE_DONE (R449). An update finishes its verification, programming, readback and mark and sets RESULT. -/
  | updateDone (flashOk : Bool)
  /-- STRAND_WRITE_PERSIST (R451). An accepted strand write becomes persistent within 200 ns, advancing the word's wear. -/
  | strandWritePersist
  /-- HOLDUP_WARN_N_FALL (R455). A fall of HOLDUP_WARN_N stops admissions and backend handing and starts the power-fail summary. -/
  | holdupWarnNFall
  /-- HOLDUP_WARN_ARMED (R473). HOLDUP_WARN_N reads high for 1 ms after reset and is armed. -/
  | holdupWarnArmed
  /-- BIST_DONE (R470). BIST ends with signatures and PASS, and DONE sets. -/
  | bistDone (sigs : List (BitVec 128))
  /-- PIN_DRIVE_MISMATCH (R472). An output mismatching its driven level for 1 µs is reported as a short. -/
  | pinDriveMismatch (pin : BitVec 7) (drivenHigh : Bool)
  /-- PIN_BIAS_TEST (R472). An input is biased up and down and reported OPEN or shorted. -/
  | pinBiasTest (pin : BitVec 7) (staysLow staysHigh : Bool)
  /-- REFCLK_POLARITY_CHECK (R472). A reference pair lagging half a period is reported REVERSED. -/
  | refclkPolarityCheck (pair : BitVec 2) (reversed : Bool)
  /-- SENSOR_READ (R474). Junction sensors are read every 32 slots. -/
  | sensorRead (sensor : BitVec 5) (reading : BitVec 16)
  /-- SET_ENDPOINT_ID (R475). MCTP Set Endpoint ID assigns the endpoint's EID on a binding. -/
  | setEndpointId (binding : Fin 3) (eid : BitVec 8)
  /-- ENTDAA (R475). ENTDAA assigns an I3C dynamic address and moves the endpoint to I3C. -/
  | entdaa (address : BitVec 7)
  /-- RSTDAA (R475). RSTDAA returns the endpoint to SMBus. -/
  | rstdaa
  /-- OOB_REGISTER_READ (R476). An out-of-band register read returns a control register. -/
  | oobRegisterRead (offset : BitVec 32)
  /-- OOB_REGISTER_WRITE (R476). An out-of-band register write is applied if its block is allowed, or refused. -/
  | oobRegisterWrite (offset : BitVec 32) (value : BitVec 64)
  /-- EXTEST (R478). JTAG EXTEST drives boundary cells in test mode, or acts as BYPASS. -/
  | extest
  /-- SAMPLE_PRELOAD (R477). JTAG SAMPLE/PRELOAD samples or preloads the boundary register. -/
  | samplePreload (pins preload : Nat)
  /-- IDCODE (R477). JTAG IDCODE selects the identification register. -/
  | idcode
  /-- CLAMP (R478). JTAG CLAMP holds outputs in test mode, or acts as BYPASS. -/
  | clamp
  /-- HIGHZ (R478). JTAG HIGHZ floats outputs in test mode, or acts as BYPASS. -/
  | highz
  /-- EXTEST_PULSE (R478). JTAG EXTEST_PULSE tests AC-coupled lanes in test mode. -/
  | extestPulse
  /-- EXTEST_TRAIN (R478). JTAG EXTEST_TRAIN tests AC-coupled lanes with a train in test mode. -/
  | extestTrain
  /-- BYPASS (R477). JTAG BYPASS selects the one-bit bypass register. -/
  | bypass
  /-- CTLACC (R478). A CTLACC update makes a control-space access with out-of-band rights while DEBUG_EN is set. -/
  | ctlacc (write : Bool) (offset : BitVec 28) (data : BitVec 64)
  /-- TAP_RESET (R477). A TAP reset resets the TAP without resetting the device. -/
  | tapReset
  /-- REF10M_RETURN (R58). REF10M_IN toggles again after a loss, REF10M_PRESENT sets and the servo again takes integ from the reference. -/
  | ref10mReturn
  /-- TENANT_PAGE_WRITE (R388). A host write to a tenant page control, status or contract status register, such as QBASE, VECTOR, TRING_EN or TRING_HEAD, is applied at rank 6. -/
  | tenantPageWrite (tid : BitVec 9) (bar2 : Bool) (offset : BitVec 16) (size : BitVec 4) (value : BitVec 64) (tee : Bool)
  /-- CONFIG_SPACE_WRITE (R394). A host configuration write, such as a change of PF0's tag enables or of a locked TDI's BARs, is applied with its effect on tag pool size or TDI state. -/
  | configSpaceWrite (tid : BitVec 9) (reg : BitVec 10) (be : BitVec 4) (value : BitVec 32)
  /-- PRESENCE_DETECT_CHANGED (R409). SLOTn_PRSNT_N falls as a card is inserted, Slot Status changes and the hot-plug cause and message are raised. -/
  | presenceDetectChanged (slot : BitVec 3)
  /-- ROOT_PORT_LINK_UP (R409). A root port's data link comes up with its SSD, LINK_UP sets and Slot Status changes. -/
  | rootPortLinkUp (slot : BitVec 3) (speed : BitVec 4)
  /-- DRAINING_UNIT_CHECK_FAIL (R139). The draining unit fails one of checks 1 to 3 in breakwater lost, logs BWK_FAILED, raises the management interrupt and keeps draining. -/
  | drainingUnitCheckFail (cause : BitVec 3)
  /-- REGISTER_WRITE (R63). A control-space write to a register with no row of its own is checked for size, requester and block, then stored or discarded and takes effect by its class. -/
  | registerWrite (ag : Agent) (offset : BitVec 28) (size : BitVec 4) (value : BitVec 64)
  /-- TIDE_TIME_INIT (R498). A write loads Tide time rounded down to 256 ns while Breakwater is not released, and is only stored afterwards. -/
  | tideTimeInit (ag : Agent) (init : BitVec 64)
  /-- TIDE_MEAS (R46). A PTP offset measurement is consumed by the servo law at rank 3 of its sampling tick. -/
  | tideMeas (ag : Agent) (offset : BitVec 64)
  /-- TIDE_FORCE_STEP (R51). A steward write with GO requests a forced step by AMOUNT or LAST_OFFSET. -/
  | tideForceStep (ag : Agent) (go : Bool) (useSource : Bool) (amount : BitVec 62)
  /-- SWAP (R138). A steward SWAP request to the active unit is accepted when the peer is STANDBY, or refused. -/
  | swap (ag : Agent) (unit : BitVec 1)
  /-- RESET_UNIT (R141). A write to a FAILED or LAPSED unit resets it and starts its BIST. -/
  | resetUnit (ag : Agent) (unit : BitVec 1)
  /-- RECOVER (R140). A steward RECOVER to a unit in OFF with IN_FLIGHT zero is accepted, or refused. -/
  | recover (ag : Agent) (unit : BitVec 1)
  /-- GATE_COMMIT (R118). A COMMIT write requests that the admin gate list be committed. -/
  | gateCommit (ag : Agent) (half : Fin 3) (value : BitVec 64)
  /-- GOV_APPLY (R93). A governor write of F and H values is stored clamped to the policy and applies at the epoch boundary. -/
  | govApply (ag : Agent) (half : Fin 3) (value : BitVec 64)
  /-- BWK_CT_DATA (R99). A contract write is checked against the floors and stored or discarded with WRITE_REFUSED. -/
  | bwkCtData (ag : Agent) (half : Fin 3) (value : BitVec 64)
  /-- BWK_BUDGET_DATA (R79). A budget write sets RATE and DEPTH from the epoch boundary, clamping the bucket. -/
  | bwkBudgetData (ag : Agent) (half : Fin 3) (value : BitVec 64)
  /-- CHANNEL_CONFIG (R159). A channel register write sets endpoints while disabled, or clears ENABLE discarding held messages. -/
  | channelConfig (ag : Agent) (channel : BitVec 13) (half : Fin 3) (value : BitVec 64)
  /-- SHOAL_RELEASE (R446). Headland's RELEASE bit releases a shoal and starts the threads of START_MASK at the core vectors. -/
  | shoalRelease (ag : Agent) (shoal : BitVec 4)
  /-- SHOAL_REQ (R446). A steward request makes Headland reload a reset shoal's components and release it. -/
  | shoalReq (ag : Agent) (shoal : BitVec 4)
  /-- SHOAL_RESET (R167). SHOAL_RESET holds every core in reset and discards the shoal's channel messages, unless refused. -/
  | shoalReset (ag : Agent) (shoal : BitVec 4)
  /-- CORE_RESET (R167). CORE_RESET = 1 resets the core's threads and invalidates its caches, unless refused. -/
  | coreReset (ag : Agent) (core : BitVec 7)
  /-- CORE_RESET_RELEASE (R167). CORE_RESET written 0 starts the START_MASK threads at the vector at the next tick. -/
  | coreResetRelease (ag : Agent) (core : BitVec 7)
  /-- THREAD_RESET (R166). A thread reset enters OFF at the next boundary clearing registers, staging, wait set and DL_ARM. -/
  | threadReset (ag : Agent) (thread : BitVec 10)
  /-- THREAD_START (R165). START starts an OFF or STOPPED thread at the core vector. -/
  | threadStart (ag : Agent) (thread : BitVec 10)
  /-- THREAD_HALT (R169). HALT stops the thread at the next boundary, unless refused for a booked thread. -/
  | threadHalt (ag : Agent) (thread : BitVec 10)
  /-- THREAD_RESUME (R169). RESUME returns a HALTED thread to RUN at its PC. -/
  | threadResume (ag : Agent) (thread : BitVec 10)
  /-- THREAD_STEP (R169). STEP issues exactly one instruction of a halted thread and halts again. -/
  | threadStep (ag : Agent) (thread : BitVec 10)
  /-- DEBUG_DATA_WRITE (R169). A write through SHL_DBG_DATA changes a halted thread's register, predicate or PC. -/
  | debugDataWrite (ag : Agent) (shoal : BitVec 4) (half : Fin 3) (value : BitVec 64)
  /-- ADD (R177). ALU ADD writes A + B to D. -/
  | add (i : Issue) (w : Bool) (d a b : BitVec 5)
  /-- SUB (R177). ALU SUB writes A − B to D. -/
  | sub (i : Issue) (w : Bool) (d a b : BitVec 5)
  /-- AND (R177). ALU AND writes A & B to D. -/
  | and (i : Issue) (d a b : BitVec 5)
  /-- OR (R177). ALU OR writes A | B to D. -/
  | or (i : Issue) (d a b : BitVec 5)
  /-- XOR (R177). ALU XOR writes A ^ B to D. -/
  | xor (i : Issue) (d a b : BitVec 5)
  /-- ANDN (R177). ALU ANDN writes A & ~B to D. -/
  | andn (i : Issue) (d a b : BitVec 5)
  /-- SLL (R177). ALU SLL shifts A left by B[5:0]. -/
  | sll (i : Issue) (w : Bool) (d a b : BitVec 5)
  /-- SRL (R177). ALU SRL shifts A right with zero fill. -/
  | srl (i : Issue) (w : Bool) (d a b : BitVec 5)
  /-- SRA (R177). ALU SRA shifts A right with sign fill. -/
  | sra (i : Issue) (w : Bool) (d a b : BitVec 5)
  /-- ROR (R177). ALU ROR rotates A right by B[5:0]. -/
  | ror (i : Issue) (d a b : BitVec 5)
  /-- MIN (R177). ALU MIN writes the signed minimum. -/
  | min (i : Issue) (d a b : BitVec 5)
  /-- MAX (R177). ALU MAX writes the signed maximum. -/
  | max (i : Issue) (d a b : BitVec 5)
  /-- MINU (R177). ALU MINU writes the unsigned minimum. -/
  | minu (i : Issue) (d a b : BitVec 5)
  /-- MAXU (R177). ALU MAXU writes the unsigned maximum. -/
  | maxu (i : Issue) (d a b : BitVec 5)
  /-- CLZ (R177). ALU CLZ writes the leading zero count of A. -/
  | clz (i : Issue) (d a : BitVec 5)
  /-- CTZ (R177). ALU CTZ writes the trailing zero count of A. -/
  | ctz (i : Issue) (d a : BitVec 5)
  /-- POPC (R177). ALU POPC writes the number of 1 bits in A. -/
  | popc (i : Issue) (d a : BitVec 5)
  /-- BSWAP (R177). ALU BSWAP reverses the 8 bytes of A. -/
  | bswap (i : Issue) (d a : BitVec 5)
  /-- MUL (R177). MUL writes the low 64 bits of A × B. -/
  | mul (i : Issue) (w : Bool) (d a b : BitVec 5)
  /-- MULHS (R177). MULHS writes the high 64 bits of the signed product. -/
  | mulhs (i : Issue) (d a b : BitVec 5)
  /-- MULHU (R177). MULHU writes the high 64 bits of the unsigned product. -/
  | mulhu (i : Issue) (d a b : BitVec 5)
  /-- DIV (R178). DIV writes the signed quotient with defined results for zero and overflow. -/
  | div (i : Issue) (w : Bool) (d a b : BitVec 5)
  /-- DIVU (R178). DIVU writes the unsigned quotient. -/
  | divu (i : Issue) (w : Bool) (d a b : BitVec 5)
  /-- REM (R178). REM writes the signed remainder. -/
  | rem (i : Issue) (w : Bool) (d a b : BitVec 5)
  /-- REMU (R178). REMU writes the unsigned remainder. -/
  | remu (i : Issue) (w : Bool) (d a b : BitVec 5)
  /-- ADDI (R179). ADDI adds the sign-extended immediate. -/
  | addi (i : Issue) (d a : BitVec 5) (imm : BitVec 12)
  /-- ANDI (R179). ANDI ands with the sign-extended immediate. -/
  | andi (i : Issue) (d a : BitVec 5) (imm : BitVec 12)
  /-- ORI (R179). ORI ors with the sign-extended immediate. -/
  | ori (i : Issue) (d a : BitVec 5) (imm : BitVec 12)
  /-- XORI (R179). XORI xors with the sign-extended immediate. -/
  | xori (i : Issue) (d a : BitVec 5) (imm : BitVec 12)
  /-- SHFI (R179). SHFI shifts or rotates by an immediate amount. -/
  | shfi (i : Issue) (op : ShfOp) (w : Bool) (d a : BitVec 5) (amount : BitVec 6)
  /-- LIM (R179). LIM loads a sign-extended 17-bit immediate. -/
  | lim (i : Issue) (d : BitVec 5) (imm : BitVec 17)
  /-- SHI (R179). SHI shifts D left 16 and inserts 16 immediate bits. -/
  | shi (i : Issue) (d : BitVec 5) (imm : BitVec 16)
  /-- CMP (R180). CMP compares two registers under CC into a predicate. -/
  | cmp (i : Issue) (cc : CmpCond) (pd : BitVec 3) (a b : BitVec 5)
  /-- CMPI (R180). CMPI compares a register with an immediate under CC into a predicate. -/
  | cmpi (i : Issue) (cc : CmpCond) (pd : BitVec 3) (a : BitVec 5) (imm : BitVec 11)
  /-- PLOG_AND (R181). PLOG AND combines two predicates. -/
  | plogAnd (i : Issue) (pd pa pb : BitVec 3)
  /-- PLOG_OR (R181). PLOG OR combines two predicates. -/
  | plogOr (i : Issue) (pd pa pb : BitVec 3)
  /-- PLOG_XOR (R181). PLOG XOR combines two predicates. -/
  | plogXor (i : Issue) (pd pa pb : BitVec 3)
  /-- PLOG_ANDN (R181). PLOG ANDN writes PA & !PB. -/
  | plogAndn (i : Issue) (pd pa pb : BitVec 3)
  /-- PLOG_ORN (R181). PLOG ORN writes PA | !PB. -/
  | plogOrn (i : Issue) (pd pa pb : BitVec 3)
  /-- PLOG_MOV (R181). PLOG MOV copies PA to PD. -/
  | plogMov (i : Issue) (pd pa : BitVec 3)
  /-- LDB (R182). LDB loads a byte zero-extended. -/
  | ldb (i : Issue) (d a : BitVec 5) (imm : BitVec 12)
  /-- LDH (R182). LDH loads a halfword zero-extended. -/
  | ldh (i : Issue) (d a : BitVec 5) (imm : BitVec 12)
  /-- LDW (R182). LDW loads a word zero-extended. -/
  | ldw (i : Issue) (d a : BitVec 5) (imm : BitVec 12)
  /-- LDD (R182). LDD loads a doubleword. -/
  | ldd (i : Issue) (d a : BitVec 5) (imm : BitVec 12)
  /-- LDBS (R182). LDBS loads a byte sign-extended. -/
  | ldbs (i : Issue) (d a : BitVec 5) (imm : BitVec 12)
  /-- LDHS (R182). LDHS loads a halfword sign-extended. -/
  | ldhs (i : Issue) (d a : BitVec 5) (imm : BitVec 12)
  /-- LDWS (R182). LDWS loads a word sign-extended. -/
  | ldws (i : Issue) (d a : BitVec 5) (imm : BitVec 12)
  /-- STB (R182). STB stores the low byte of D. -/
  | stb (i : Issue) (d a : BitVec 5) (imm : BitVec 12)
  /-- STH (R182). STH stores the low halfword of D. -/
  | sth (i : Issue) (d a : BitVec 5) (imm : BitVec 12)
  /-- STW (R182). STW stores the low word of D. -/
  | stw (i : Issue) (d a : BitVec 5) (imm : BitVec 12)
  /-- STD (R182). STD stores D. -/
  | std (i : Issue) (d a : BitVec 5) (imm : BitVec 12)
  /-- LDX (R183). LDX loads at A + (B << SCALE) with size and extension from FN. -/
  | ldx (i : Issue) (size : MemSize) (sext : Bool) (scale : BitVec 2) (d a b : BitVec 5)
  /-- STX (R183). STX stores at A + (B << SCALE) with size from FN. -/
  | stx (i : Issue) (size : MemSize) (scale : BitVec 2) (d a b : BitVec 5)
  /-- ATOM_SWP (R185). An atomic swap at the memory returns the old value. -/
  | atomSwp (i : Issue) (wide : Bool) (order : BitVec 2) (d a b : BitVec 5)
  /-- ATOM_ADD (R185). An atomic add at the memory returns the old value. -/
  | atomAdd (i : Issue) (wide : Bool) (order : BitVec 2) (d a b : BitVec 5)
  /-- ATOM_AND (R185). An atomic and at the memory returns the old value. -/
  | atomAnd (i : Issue) (wide : Bool) (order : BitVec 2) (d a b : BitVec 5)
  /-- ATOM_OR (R185). An atomic or at the memory returns the old value. -/
  | atomOr (i : Issue) (wide : Bool) (order : BitVec 2) (d a b : BitVec 5)
  /-- ATOM_XOR (R185). An atomic xor at the memory returns the old value. -/
  | atomXor (i : Issue) (wide : Bool) (order : BitVec 2) (d a b : BitVec 5)
  /-- ATOM_SMAX (R185). An atomic signed maximum returns the old value. -/
  | atomSmax (i : Issue) (wide : Bool) (order : BitVec 2) (d a b : BitVec 5)
  /-- ATOM_UMAX (R185). An atomic unsigned maximum returns the old value. -/
  | atomUmax (i : Issue) (wide : Bool) (order : BitVec 2) (d a b : BitVec 5)
  /-- ATOM_CAS (R185). An atomic compare and swap writes B if the old value equals D and returns the old value. -/
  | atomCas (i : Issue) (wide : Bool) (order : BitVec 2) (d a b : BitVec 5)
  /-- BR (R187). BR branches by a signed word offset. -/
  | br (i : Issue) (off : BitVec 22)
  /-- CALL (R187). CALL branches and writes the return address to g31. -/
  | call (i : Issue) (off : BitVec 22)
  /-- JMPR (R187). JMPR jumps to the address in A. -/
  | jmpr (i : Issue) (a : BitVec 5)
  /-- CALLR (R187). CALLR jumps to A and writes the return address to g31. -/
  | callr (i : Issue) (a : BitVec 5)
  /-- FENCE (R203). FENCE orders the thread's selected prior and later accesses, optionally invalidating the data cache. -/
  | fence (i : Issue) (kind : BitVec 5)
  /-- DCINV (R189). DCINV invalidates the data-cache line holding A. -/
  | dcinv (i : Issue) (a : BitVec 5)
  /-- DCINVALL (R189). DCINVALL invalidates the core's whole data cache. -/
  | dcinvall (i : Issue)
  /-- ICINV (R189). ICINV invalidates the core's instruction cache. -/
  | icinv (i : Issue)
  /-- TRAP (R194). TRAP raises the TRAP exception with detail B. -/
  | trap (i : Issue) (b : BitVec 5)
  /-- BRK (R189). BRK raises BREAK or halts the thread when BRK_HALT is set. -/
  | brk (i : Issue)
  /-- XRET (R199). XRET returns from an exception restoring PC and privilege. -/
  | xret (i : Issue)
  /-- STOP (R189). STOP puts the thread in STOPPED once its accesses complete. -/
  | stop (i : Issue)
  /-- MFS (R190). MFS copies a special register into D. -/
  | mfs (i : Issue) (d : BitVec 5) (sr : BitVec 12)
  /-- MTS (R190). MTS copies A into a writable special register. -/
  | mts (i : Issue) (a : BitVec 5) (sr : BitVec 12)
  /-- CH_PUT (R155). CH.PUT appends one register to the send staging. -/
  | chPut (i : Issue) (a b : BitVec 5)
  /-- CH_SEAL (R155). CH.SEAL commits the staging as one message or fails on a full channel. -/
  | chSeal (i : Issue) (pd : BitVec 3) (a : BitVec 5)
  /-- CH_TRY (R156). CH.TRY tests for a message and reports its length. -/
  | chTry (i : Issue) (pd : BitVec 3) (a : BitVec 5)
  /-- CH_GET (R207). CH.GET removes the head message into registers. -/
  | chGet (i : Issue) (pd : BitVec 3) (d a n : BitVec 5)
  /-- DLCHK (R210). DLCHK tests whether at least b ns remain before a deadline. -/
  | dlchk (i : Issue) (pd : BitVec 3) (a b : BitVec 5)
  /-- DLLEFT (R210). DLLEFT writes the signed time left before a deadline. -/
  | dlleft (i : Issue) (d a : BitVec 5)
  /-- PW_OPEN (R214). PW.OPEN opens a window on a held run and returns its address. -/
  | pwOpen (i : Issue) (w : Bool) (d a : BitVec 5)
  /-- PW_CLOSE (R214). PW.CLOSE closes a window leaving the run held. -/
  | pwClose (i : Issue) (w : Bool)
  /-- PW_FREE (R214). PW.FREE requests release of a held run. -/
  | pwFree (i : Issue) (a : BitVec 5)
  /-- BOOK (R223). BOOK submits a descriptor from a shoal thread to Breakwater for admission. -/
  | book (i : Issue) (d a b : BitVec 5)
  /-- REEF_LOOK (R228). REEF.LOOK looks up a key for a thread. -/
  | reefLook (i : Issue) (d a b : BitVec 5)
  /-- REEF_INS (R285). REEF.INS inserts or replaces a key for a thread. -/
  | reefIns (i : Issue) (d a b : BitVec 5)
  /-- REEF_DEL (R298). REEF.DEL deletes a key for a thread. -/
  | reefDel (i : Issue) (d a b : BitVec 5)
  /-- REEF_REPLY (R227). Reef posts the 3-word reply of a thread command. -/
  | reefReply
  /-- CY_SUB0 (R379). CY.SUB0 submits a look-aside request to the shoal's cipher engine 0. -/
  | cySub0 (i : Issue) (d a b : BitVec 5)
  /-- CY_SUB1 (R379). CY.SUB1 submits a look-aside request to the shoal's cipher engine 1. -/
  | cySub1 (i : Issue) (d a b : BitVec 5)
  /-- PAT_SUB (R230). PAT.SUB submits a pattern scan to the shoal's pattern engine. -/
  | patSub (i : Issue) (d a b : BitVec 5)
  /-- MOV_SUB (R231). MOV.SUB submits a copy to the shoal's data mover. -/
  | movSub (i : Issue) (d a b : BitVec 5)
  /-- MAC_FLUSH (R244). A FLUSH_QUEUES write removes unstarted frames from the named queues. -/
  | macFlush (ag : Agent) (port : BitVec 4) (half : Fin 3) (value : BitVec 64)
  /-- TX_TS_POP (R251). A write removes the head of the transmit timestamp FIFO. -/
  | txTsPop (ag : Agent) (port : BitVec 4) (half : Fin 3) (value : BitVec 64)
  /-- PROG_COMMIT (R256). A COMMIT write requests that the admin parser program become operational. -/
  | progCommit (ag : Agent) (half : Fin 3) (value : BitVec 64)
  /-- PAT_COMMIT (R269). A PAT_COMMIT write requests loading of the pattern image. -/
  | patCommit (ag : Agent) (half : Fin 3) (value : BitVec 64)
  /-- REEF_CMD_LOOK (R300). A steward GO with OP LOOK looks up a key. -/
  | reefCmdLook (ag : Agent) (static : Bool) (table : BitVec 2) (keyLen plen : BitVec 8) (reserved : Bool)
  /-- REEF_CMD_INS (R300). A steward GO with OP INS inserts a key. -/
  | reefCmdIns (ag : Agent) (static : Bool) (table : BitVec 2) (keyLen plen : BitVec 8) (reserved : Bool)
  /-- REEF_CMD_DEL (R300). A steward GO with OP DEL deletes a key. -/
  | reefCmdDel (ag : Agent) (static : Bool) (table : BitVec 2) (keyLen plen : BitVec 8) (reserved : Bool)
  /-- OPEN (R306). An OPEN write moves a CLOSED connection to OPENING. -/
  | openConn (ag : Agent)
  /-- CLOSE (R307). A CLOSE write requests the connection be closed at its epoch boundary. -/
  | closeConn (ag : Agent)
  /-- CONN_RATE_WRITE (R329). A write of RATE replaces the congestion rate at the next slot boundary. -/
  | connRateWrite (ag : Agent) (half : Fin 3) (value : BitVec 64)
  /-- REWRITE (R322). REWRITE revokes a window so that its staged values can be installed after the drain. -/
  | rewrite (ag : Agent)
  /-- REVOKE (R322). REVOKE revokes a window so that it becomes FREE after the drain. -/
  | revoke (ag : Agent)
  /-- GENERATE (R373). Sealed-channel GENERATE puts a fresh DRBG key in an EMPTY slot. -/
  | generate (ag : Agent) (chan : BitVec 2) (slot : BitVec 14) (record : BitVec 21)
  /-- LOAD (R373). Sealed-channel LOAD puts a key from DATA0–7 in an EMPTY slot. -/
  | load (ag : Agent) (chan : BitVec 2) (slot : BitVec 14) (record : BitVec 21)
  /-- UNWRAP (R374). Sealed-channel UNWRAP moves a wrapped record into an EMPTY slot. -/
  | unwrap (ag : Agent) (chan : BitVec 2) (slot : BitVec 14) (record : BitVec 21)
  /-- WRAP (R374). Sealed-channel WRAP drains a slot so that its key can be wrapped into a record. -/
  | wrap (ag : Agent) (chan : BitVec 2) (slot : BitVec 14) (record : BitVec 21)
  /-- ZERO (R373). Sealed-channel ZERO empties a slot at once and ends its operations. -/
  | zero (ag : Agent) (chan : BitVec 2) (slot : BitVec 14) (record : BitVec 21)
  /-- CHANNEL_LOCK (R373). Setting a sealed channel's HEADLAND or STEWARD bit fixes its owner until power-on reset. -/
  | channelLock (ag : Agent) (chan : BitVec 2) (steward headland : Bool)
  /-- SLOT_DRAIN (R372). DRAIN puts a key slot in DRAINING, refusing new admissions. -/
  | slotDrain (ag : Agent)
  /-- SLOT_WINDOW_ACCESS (R407). A control-space access to a slot window reaches the SSD, or returns all ones if the link is down. -/
  | slotWindowAccess (ag : Agent) (slot : BitVec 3) (offset : BitVec 16) (store : Option (BitVec 64))
  /-- PCFG_READ (R410). A GO with WRITE 0 issues a private configuration read. -/
  | pcfgRead (ag : Agent) (bus : BitVec 8) (dev : BitVec 5) (fn : BitVec 3) (reg : BitVec 10)
  /-- PCFG_WRITE (R410). A GO with WRITE 1 issues a private configuration write. -/
  | pcfgWrite (ag : Agent) (bus : BitVec 8) (dev : BitVec 5) (fn : BitVec 3) (reg : BitVec 10)
  /-- MEM_TRAIN_GO (R413). MEM_TRAIN.GO starts training of DDR channels and HBM stacks. -/
  | memTrainGo (ag : Agent)
  /-- MEM_SOURCE_DONE (R427). DONE returns a memory source to CLEAR unless an error of the same tick escalated it. -/
  | memSourceDone (ag : Agent) (source : BitVec 7)
  /-- KEY_LOCK (R444). Headland sets KEY_LOCK, closing the root and derived key registers. -/
  | keyLock (ag : Agent)
  /-- BWK_RELEASE (R445). Headland releases Breakwater, starting the units, TIDE_SLOT_SEQ, the MAC block and taking the seed and UDP port. -/
  | bwkRelease (ag : Agent)
  /-- ZEROISE (R436). A steward ZEROISE erases every key and the SPDM identity key. -/
  | zeroise (ag : Agent)
  /-- RELEASE_GO (R443). The steward ends LOCKED under WAIT_STEWARD so that Breakwater is released. -/
  | releaseGo (ag : Agent)
  /-- FUSE_COMMIT_HDL (R448). A fuse commit with WHICH 0 advances HDL_COUNTER to the running SVN. -/
  | fuseCommitHdl (ag : Agent)
  /-- FUSE_COMMIT_SHL (R448). A fuse commit with WHICH 1 advances SHL_COUNTER to the running SVN. -/
  | fuseCommitShl (ag : Agent)
  /-- FUSE_COMMIT_REVOKE (R448). A fuse commit with WHICH 2 blows the revoke bit of a key set. -/
  | fuseCommitRevoke (ag : Agent) (keySet : BitVec 2)
  /-- XFER_HOST_BOOT (R440). HDL_XFER_CTL OP 0 reads a bundle from the host and boots it. -/
  | xferHostBoot (ag : Agent) (length : BitVec 28) (bundle : Option (List Byte))
  /-- XFER_WRITE_SLOT (R449). HDL_XFER_CTL OP 1 writes a verified bundle to the inactive slot. -/
  | xferWriteSlot (ag : Agent) (length : BitVec 28)
  /-- XFER_WRITE_AND_MARK (R449). HDL_XFER_CTL OP 2 writes a verified bundle and marks it preferred. -/
  | xferWriteAndMark (ag : Agent) (length : BitVec 28)
  /-- CONFIRM (R450). CONFIRM resets the booted slot's TRIES and sets BOOT_CONFIRMED. -/
  | confirm (ag : Agent)
  /-- PF_ACK (R458). PF_ACK clears the power-fail summary's REASON and PF_SUMMARY_VALID. -/
  | pfAck (ag : Agent)
  /-- STRAND_WRITE (R451). A strand word write is accepted, or discarded for region or wear. -/
  | strandWrite (ag : Agent) (word : BitVec 12) (half : Fin 3) (value : BitVec 64)
  /-- SNAP (R466). SNAP copies a set into a snapshot buffer at the end of the sampling tick. -/
  | snap (ag : Agent) (buf : BitVec 2)
  /-- SNAP_CLEAR (R466). SNAP with CLEAR copies a set and returns it to reset values in the same step. -/
  | snapClear (ag : Agent) (buf : BitVec 2)
  /-- QUEUE_MONITOR_BIND (R468). A change of a queue monitor's binding or ENABLE resets it. -/
  | queueMonitorBind (ag : Agent) (monitor : BitVec 10) (enable : Bool) (qtype : BitVec 4) (qindex : BitVec 24)
  /-- BIST_START (R470). A steward GO starts BIST of a target, or is refused with BIST_REFUSED. -/
  | bistStart (ag : Agent) (target : BitVec 5)
  /-- RC_READ (R8). A read of a register holding RC fields returns them and clears the fields wholly within the addressed half. -/
  | rcRead (ag : Agent) (page : Option (BitVec 9 × Bool)) (offset : BitVec 28) (size : BitVec 4) (tee : Bool)
deriving DecidableEq, Repr

end Sys2Proof
end

