-- ==== Sys2Proof/Machine/Types.lean ====
section
/-! DEFINITION. The data of the delivery machinery: resources, bookings, operations, requests, the deadline table, the
pair, calendars, rings and links (chapters 03 to 05, 09 and 15). -/

namespace Sys2Proof.Machine

open Sys2Proof

/-- A resource instance (Table 4.1): the detail's high byte, the instance, and the inbound or receive direction. -/
structure Res where
  kind : Nat
  inst : Nat
  rx : Bool := false
deriving DecidableEq, Repr

/-- An amount of a resource. -/
structure Need where
  res : Res
  amt : Nat
deriving DecidableEq, Repr

/-- A stage (Table 3.4): its number, what it takes, and the wait after it in ns. -/
structure Stage where
  no : Nat
  needs : List Need
  wait : Nat := 0
deriving DecidableEq, Repr

/-- A booking: a resource, the stage, the slot as TIDE_SLOT_SEQ, the amount. -/
structure Hold where
  res : Res
  stage : Nat
  slot : Nat
  amt : Nat
deriving DecidableEq, Repr

/-- How an operation came in (R24): a tenant's submission ring with the head after its descriptor, an NVMe queue with
the command's CID, a shoal thread's BOOK or cipher command with its reply channel and token, or the wire. -/
inductive Origin where
  | ring (r : Nat) (head : Nat)
  | nvme (sq : Nat) (cid : Nat)
  | book (thread : Nat) (channel : Nat) (token : Nat)
  | sub (thread : Nat) (channel : Nat) (token : Nat)
  | wire (port : Nat)
deriving DecidableEq, Repr

/-- A request for admission: its number, contract kind, operation code (NVMe opcode or cipher operation), class, tenant,
source number, origin, descriptor, sampling tick and time, whether its class is known; and, for a storage command, what its namespace
gives it as it is sampled (R338, R354): the backend, the backend's declared bound and timeout in ns, STRICT, and SIZE_LBAS; and HOST_READ_BOUND as
it was in force then (R13). -/
structure Req where
  id : Nat
  kind : Nat
  code : Nat := 0
  cls : Nat
  tid : Nat
  src : Nat
  org : Origin
  desc : Desc
  tick : Nat
  time : Nat
  clsKnown : Bool := true
  backend : Nat := 0
  bound : Nat := 0
  strict : Bool := false
  timeout : Nat := 0
  readBound : Nat := 1500
  lbas : Nat := 0
deriving DecidableEq, Repr

/-- An entry of the deadline table. -/
structure Entry where
  ix : Nat
  op : Nat
  kind : Nat
  cls : Nat
  tid : Nat
  src : Nat
  tag : Nat
  admitted : Nat
  promise : Nat
  holds : List Hold
  space : Nat
  org : Origin
  ordered : Bool
  ns : Nat
deriving DecidableEq, Repr

/-- A decision that is not yet visible (R131): deadline entry where accepted, Slack, promise, status and detail. -/
structure Decision where
  req : Req
  entry : Option Nat
  slack : Bool
  promise : Nat
  status : Nat
  detail : Nat
  plan : List Stage
deriving DecidableEq, Repr

/-- The admission state that each Breakwater unit holds (R127): the deadline table with its bookings, the token
buckets, the counters, HIGH_WATER, the requests that await decision, and how many were decided in this tick. -/
structure Adm where
  entries : List Entry := []
  tokens : Tab Nat := []
  counts : Tab Nat := []
  high : Nat := 0
  waiting : List Req := []
  decided : Nat := 0
deriving DecidableEq, Repr

/-- An input of Breakwater, as its journal records it (R130): the slot and epoch steps, a request, and a release of a
stage or of a whole operation with the count it makes, and an operation admitted by rate (R502). -/
inductive AdmInput where
  | slotStep
  | epochStep
  | request (r : Req)
  | releaseStage (op : Nat) (stage : Nat)
  | releaseFuture (op : Nat)
  | releaseSpace (op : Nat)
  | close (op : Nat) (count : Option Nat)
  | byRate (r : Req) (promise : Nat) (space : Nat)
deriving DecidableEq, Repr

/-- The pair (chapter 05): the peer's copy, this tick's inputs and decisions, whether the peer has acknowledged this
tick's journal, whether this tick's journal is void and with which cause, the cause of the failure that takes effect as the next tick begins,
the inputs to apply again, the requests to refuse then, the draining unit, and the epochs in which each unit lapsed. -/
structure Pair where
  other : Adm := {}
  inputs : List AdmInput := []
  decisions : List Decision := []
  acked : Bool := false
  void : Option Nat := none
  failing : Option Nat := none
  replay : List AdmInput := []
  refuse : List Req := []
  draining : Option Nat := none
  lapses : List (Nat × Nat) := []
deriving DecidableEq, Repr

/-- A gate list (R116): BASE and the entries of Table 4.4; none where the list says that every gate is open. -/
structure GateList where
  base : Nat := 0
  entries : List Nat := []
deriving DecidableEq, Repr

/-- A policer as it acts (R120, R124): its settings of the last passed check and its buckets in 1/256 byte. -/
structure Policer where
  active : Bool := false
  trtcm : Bool := false
  aware : Bool := false
  yellowDrop : Bool := false
  redSlack : Bool := false
  cls : Nat := 0
  port : Nat := 0
  tid : Nat := 0
  cir : Nat := 0
  eir : Nat := 0
  cbs : Nat := 0
  ebs : Nat := 0
  inline : Bool := false
  tc : Nat := 0
  te : Nat := 0
deriving DecidableEq, Repr

/-- A WFQ scheduler (R113): the virtual time, the start and finish tags of its children, and for each backlogged child the
number of its head item plus one. -/
structure Wfq where
  v : Nat := 0
  start : Tab Nat := []
  finish : Tab Nat := []
  heads : Tab Nat := []
deriving DecidableEq, Repr

/-- The capacity settings of the slots from one on: threads that serve booked work, bursts kept for Reef, shoals that drain (R106,
R153). -/
structure CapEra where
  start : Nat := 0
  threads : Nat := 16
  reef : Nat := 150
  drain : List Nat := []
deriving DecidableEq, Repr

/-- What the calendars hold beside the bookings (chapter 04): the capacity settings of the slots of the horizon, the latest first
(R106, R153), the operational and pending gate lists (a pending list without entries opens every gate), the gate states
(bit q: queue q open, bit 16: exclusive window; all open where nothing is listed), the policers, the levels of the leaf
and queue shapers that shape (which may be negative, R115), the schedulers, the queue samples (depth, delay), and the
retransmission bytes of this slot by port (R313), and the time at which each engine is free, in 2^-16 ns, by the number of its
scheduler (R504). -/
structure Cal where
  caps : List CapEra := [{}]
  oper : Tab (Option GateList) := []
  pend : Tab (Option GateList) := []
  gates : Tab Nat := []
  policers : Tab Policer := []
  leafShapers : Tab (Option Int) := []
  queueShapers : Tab (Option Int) := []
  wfq : Tab Wfq := []
  samples : Tab (Nat × Nat) := []
  retxUsed : Tab Nat := []
  busy : Tab Nat := []
deriving DecidableEq, Repr

/-- An operation that Breakwater has accepted or queued as Slack, until its completion is written: what it is (Req), its
times, whether it is Slack, promised by rate, hit by a failed assumption (R76) or rebased (R54), its deadline entry, its
remaining stages with the needs not yet served, the items now on engines with the times at which they end (2^-16 ns) and those a
scheduler has picked and not yet finished, what is booked for it and not yet served (R107), host reads outstanding, the bytes carried
(R505), how it must end, the data it has gathered and whether its reads have begun, its delivery, its place among what
waits for its port and the time at which it came there, the frames it has sent, the bytes it holds against the receive hold quota (R506), and for a TX frame whether it has been sealed (1) and has
made its last pipeline pass (2); and for a storage command of a remote backend what the storage layer chose at its peer (R341). -/
structure Op where
  req : Req
  admitted : Nat
  promise : Nat
  slack : Bool
  envFail : Bool := false
  rebased : Bool := false
  entry : Option Nat := none
  plan : List Stage := []
  going : List Res := []
  ends : Tab Nat := []
  picked : List Nat := []
  booked : List Hold := []
  reads : Nat := 0
  waiting : Bool := false
  carried : Nat := 0
  status : Nat := 0
  detail : Nat := 0
  tagFail : Bool := false
  rxFlags : Nat := 0
  aux : Nat := 0
  postIndex : Nat := 0
  dest : Option (Nat × Nat) := none
  data : List Byte := []
  handed : Option Nat := none
  detached : Bool := false
  fetched : Bool := false
  ended : Bool := false
  delivered : Option Nat := none
  queued : Nat := 0
  since : Nat := 0
  sent : Nat := 0
  held : Nat := 0
  built : Nat := 0
  peer : Nat := 0
deriving DecidableEq, Repr

/-- What a host read fetches (R391, R336, R81): descriptors of a ring, entries of an NVMe queue, an operation's data, a
thread's load, a data mover's copy, or the data of a Swash read (R324). -/
inductive ReadUse where
  | descs (ring : Nat) (first : Nat) (n : Nat)
  | entries (sq : Nat) (first : Nat) (n : Nat)
  | data (op : Nat) (offset : Nat)
  | thread (t : Nat) (load : Nat)
  | mover (shoal : Nat) (offset : Nat)
  | resp (conn : Nat) (offset : Nat)
deriving DecidableEq, Repr

/-- A host read outstanding (R394): link, tag, tenant, address, length, use, the tick it was handed in, whether its
HOST_READ_BOUND has passed, whether it was booked, and whether its data is to be discarded (R396). -/
structure HostRead where
  link : Nat
  tag : Nat
  tid : Nat
  addr : Nat
  len : Nat
  use : ReadUse
  time : Nat
  booked : Bool
  late : Bool := false
  absorbed : Bool := false
deriving DecidableEq, Repr

/-- A completion that waits for room in its ring (R391): the operation whose delivery event it is, or the words of a
completion, but for PHASE, and whether it raises MSI-X. -/
inductive Waiting where
  | op (id : Nat)
  | words (ws : List Nat) (interrupt : Bool)
deriving DecidableEq, Repr

/-- A completion that waits, with its tenant and ring. -/
structure WaitingCompletion where
  tid : Nat
  ring : Nat
  what : Waiting
deriving DecidableEq, Repr

/-- What leaves the device, in order, since the last tick began (R393): posted writes and reads to a host, MSI-X messages, frames and
control frames on a port, MCTP and SPDM responses, what a register read returns, configuration cycles of the private hierarchy, ATS completions,
commands to backends, the NVMe commands that
those are on an SSD (R339, R340: slot, operation, opcode, FUA, the first byte of the operation and the number of them that it moves, the staging memory, and
a write's data in it), and slots' pins. -/
inductive Out where
  | hostWrite (tid : Nat) (addr : Nat) (data : List Byte)
  | hostRead (link : Nat) (tag : Nat) (tid : Nat) (addr : Nat) (len : Nat)
  | msix (tid : Nat) (vector : Nat)
  | frame (port : Nat) (bytes : List Byte)
  | pfc (port : Nat) (priorities : Nat) (quanta : Nat)
  | answer (link : Nat) (code : Nat) (value : Nat)
  | ats (link : Nat) (itag : Nat)
  | cfg (write : Bool) (bus : Nat) (dev : Nat) (fn : Nat) (reg : Nat) (data : Nat)
  | backend (backend : Nat) (op : Nat)
  | ssd (slot : Nat) (op : Nat) (opcode : Nat) (fua : Bool) (offset : Nat) (len : Nat) (hbm : Bool) (data : List Byte)
  | slotWrite (slot : Nat) (offset : Nat) (data : Nat)
  | slotRead (slot : Nat) (offset : Nat)
  | oob (code : Nat) (value : Nat)
  | readBack (offset : Nat) (value : Nat)
  | ssdData (slot : Nat) (data : List Byte)
deriving DecidableEq, Repr

/-- A message that a unit holds for a channel (R158): the unit's endpoint code, its words, and the thread whose engine
command is no longer outstanding once it is posted (R219); the tick from which it is offered, and whether it has found its channel
full. -/
structure Held where
  unit : Nat
  words : List Nat
  eng : Option Nat := none
  next : Nat := 0
  tried : Bool := false
deriving DecidableEq, Repr

/-- A message channel (R154, R158): the messages it holds, and those that units hold for it. -/
structure Chan where
  msgs : List (List Nat) := []
  held : List Held := []
deriving DecidableEq, Repr

/-- An NVMe submission queue (R336): base, entries, head, tail last doorbelled, its completion queue, and the CID of a
Delete I/O SQ that waits for it (R349). -/
structure NvSq where
  base : Nat := 0
  size : Nat := 0
  head : Nat := 0
  tail : Nat := 0
  cq : Nat := 0
  deleting : Option Nat := none
deriving DecidableEq, Repr

/-- An NVMe completion queue: base, entries, host's head, tail, phase, vector, interrupts enabled. -/
structure NvCq where
  base : Nat := 0
  size : Nat := 0
  head : Nat := 0
  tail : Nat := 0
  phase : Bool := true
  vector : Nat := 0
  ien : Bool := false
deriving DecidableEq, Repr

/-- An NVMe completion that waits for room in its queue, with the timing record that follows it (R392). -/
structure WaitingNvme where
  tid : Nat
  sq : Nat
  cid : Nat
  status : Nat
  dw0 : Nat := 0
  timing : Option (List Nat) := none
  op : Option Nat := none
deriving DecidableEq, Repr

/-- A buffer posted to a receive queue (R390): post index, address, length, its INTERRUPT flag, and when it was posted. -/
structure Posted where
  index : Nat
  addr : Nat
  len : Nat
  interrupt : Bool := false
  time : Nat := 0
deriving DecidableEq, Repr

/-- A fetched descriptor or NVMe entry whose read has completed: it is sampled in the tick of the completion (R391, R336). The ring or
queue, the entry's index and the 64 bytes. -/
structure Arrival where
  tid : Nat
  ring : Nat
  nvme : Bool
  index : Nat
  bytes : List Byte
deriving DecidableEq, Repr

/-- A self-test that runs (R352), and a result of log page 0x06: STC, result, NSID, failing LBA. -/
structure SelfTest where
  extended : Bool
  nsid : Nat
deriving DecidableEq, Repr
structure TestResult where
  stc : Nat
  result : Nat
  nsid : Nat
  lba : Option Nat
deriving DecidableEq, Repr

/-- An Abort whose completion is due in the next tick (R347): CID, Dword 0, the tick in which it acted. -/
structure AbortDone where
  cid : Nat
  dw0 : Nat
  tick : Nat
deriving DecidableEq, Repr

/-- An NVMe controller (R334, R335, R349 to R352): CC, INTMS, AQA, ASQ, ACQ, CSTS.SHST, whether CC.EN was cleared and commands
remain, the features set, Aborts outstanding, the staged image, the self-test that runs
and the results kept, newest first. -/
structure Ctrl where
  cc : Nat := 0
  intm : Nat := 0
  aqa : Nat := 0
  asq : Nat := 0
  acq : Nat := 0
  shst : Nat := 0
  resetting : Bool := false
  feats : Tab Nat := []
  aborts : List AbortDone := []
  image : List Byte := []
  test : Option SelfTest := none
  results : List TestResult := []
deriving DecidableEq, Repr

/-- A Firmware Commit with action 3 (R350): the function, the CID, the time of its sampling, and whether the new image is
starting. -/
structure Activation where
  tid : Nat
  cid : Nat
  time : Nat
  starting : Bool := false
deriving DecidableEq, Repr

/-- An ATS invalidation whose completion waits (R402): link, ITag, tenant, first address, length, and the tags of the reads that
use the entry. -/
structure AtsWait where
  link : Nat
  itag : Nat
  tid : Nat
  addr : Nat
  len : Nat
  tags : List Nat
deriving DecidableEq, Repr

/-- The SPDM responder of a link's PF0 (R403): how far the connection has come (0 nothing, 1 version, 2 capabilities, 3
algorithms), the session with whether FINISH has completed it, and the key updates made in it. -/
structure Spdm where
  step : Nat := 0
  session : Option Nat := none
  finished : Bool := false
  updates : Nat := 0
deriving DecidableEq, Repr

/-- A selective IDE stream of a link (R404): keyed and secure, insecure, its keys as set by IDE_KM. -/
structure Stream where
  secure : Bool := false
  insecure : Bool := false
  keys : Tab (List Byte) := []
deriving DecidableEq, Repr

/-- A downstream slot (R408, R409): Power Controller Control, the rest of Slot Control, Slot Status, and the times at which
SLOTn_PERST_N is released and SLOTn_PWREN driven low. -/
structure Slot where
  off : Bool := true
  ctl : Nat := 0
  status : Nat := 0
  perstAt : Option Nat := none
  pwrenAt : Option Nat := none
deriving DecidableEq, Repr

/-- The admin commands that the storage layer serves (R335): Create and Delete of I/O queues, Identify, Get Log Page, the features,
Firmware Image Download, Firmware Commit with actions 0 to 2 (whether the image is marked), and Device Self-test. -/
inductive AdminOp where
  | createCq
  | createSq
  | deleteCq
  | identify
  | getLog
  | setFeature
  | getFeature
  | download
  | commit (mark : Bool)
  | test (extended : Bool)
  | testAbort
deriving DecidableEq, Repr

/-- A configuration cycle of the private hierarchy in progress (R410): its tick, whether it writes, and what it names. -/
structure PrivCycle where
  tick : Nat
  write : Bool
  bus : Nat
  dev : Nat
  fn : Nat
  reg : Nat
deriving DecidableEq, Repr

/-- The host side (chapters 13 and 15): reads outstanding and reads that wait for a tag, completions that wait, PHASE of the
completion rings (absent: first pass), posted buffers and their next index, the submission ring's next entry to fetch, MSI-X
table masks and pending bits, configuration space, NVMe queues and waiting entries; entries fetched and not yet sampled, how
many were fetched in this tick by ring, doorbells as last written, the tails that doorbells brought with their times (R125), when each FLR was sampled, controllers, an activation,
invalidations, SPDM, IDE streams, slots, the tick in which the configuration cycle in progress began, PFs whose VFs appear at the
next boundary, requests that are to end as soon as they are decided (with how), the NVMe commands completed in this tick, and the admin commands that
wait for ADMIN_SHOAL, oldest first. -/
structure HostSide where
  reads : List HostRead := []
  readQ : List HostRead := []
  waiting : List WaitingCompletion := []
  waitingNvme : List WaitingNvme := []
  phase : Tab Bool := []
  posted : Tab (List Posted) := []
  postNext : Tab Nat := []
  fetch : Tab Nat := []
  msixMask : Tab Bool := []
  msixPending : Tab Bool := []
  msixTable : Tab Nat := []
  config : Tab Nat := []
  sqs : Tab NvSq := []
  cqs : Tab NvCq := []
  arrived : List Arrival := []
  took : Tab Nat := []
  bells : Tab Nat := []
  bellTimes : Tab (List (Nat × Nat)) := []
  flrFrom : Tab (Option Nat) := []
  ctrls : Tab Ctrl := []
  act : Option Activation := none
  ats : List AtsWait := []
  spdm : Tab Spdm := []
  streams : Tab Stream := []
  slots : Tab Slot := []
  pcfg : Option PrivCycle := none
  vfAsk : List Nat := []
  kill : List (Nat × Nat) := []
  doneNow : List (Nat × Nat × Nat) := []
  adminQ : List (AdminOp × NvAdmin) := []
deriving DecidableEq, Repr

/-- A request on a look-aside engine (R361 to R363): its operation, engine, the bytes processed when it was last suspended, when it started,
whether it is suspended; the time from which it runs now, or at which its context is saved (2^-16 ns), the bytes processed by then, and its
bytes in all. -/
structure LaRun where
  op : Nat
  engine : Nat
  pos : Nat := 0
  started : Nat := 0
  suspended : Bool := false
  from_ : Nat := 0
  done : Nat := 0
  total : Nat := 0
deriving DecidableEq, Repr

/-- A key slot as a wrapped record holds it (R374): key, MODE, KEY_256, USE, OWNER_KIND, OWNER, PEER_ID, SALT, LIMIT,
COUNT, and the wrapping key under which it was wrapped. -/
structure WrapRec where
  key : List Byte
  cfg : List Nat
  under : List Byte
deriving DecidableEq, Repr

/-- The cipher block (chapter 14): the keys of the slots, the wrapping key, DATA0 to DATA7 of each channel, WRAP commands
that wait for their slot to drain (slot, channel, record), the wrapped records, requests on engines, the queue each engine
served last under claim 5, whether the sealed channels are disabled (R435), and how many wrapping keys were derived. -/
structure Cry where
  keys : Tab (List Byte) := []
  wrapKey : Option (List Byte) := none
  data : Tab Nat := []
  wraps : List (Nat × Nat × Nat) := []
  records : Tab (Option WrapRec) := []
  runs : List LaRun := []
  turn : Tab Nat := []
  disabled : Bool := false
  derived : Nat := 0
deriving DecidableEq, Repr

/-- An exact-match entry (Table 11.1). -/
structure REntry where
  key : List Byte
  act0 : Nat
  act1 : Nat
  static : Bool := false
  learned : Bool := false
  owner : Nat := 0
  port : Nat := 0
  age : Nat := 0
deriving DecidableEq, Repr

/-- A prefix entry (R295). -/
structure PEntry where
  value : Nat
  len : Nat
  act0 : Nat
  act1 : Nat
deriving DecidableEq, Repr

/-- Who asked for a Reef command: a thread with its reply channel and token, or the steward. -/
inductive ReefBy where
  | thread (t : Nat) (channel : Nat) (token : Nat)
  | steward (static : Bool)
deriving DecidableEq, Repr

/-- A Reef command (Table 8.10): op 1 LOOK, 2 INS, 3 DEL; bad: a field is outside its range. -/
structure RCmd where
  by_ : ReefBy
  op : Nat
  table : Nat
  key : List Byte
  plen : Nat
  act0 : Nat
  act1 : Nat
  bad : Bool
deriving DecidableEq, Repr

/-- A learn request (R292). -/
structure Learn where
  key : List Byte
  act0 : Nat
  act1 : Nat
  owner : Nat
  port : Nat
deriving DecidableEq, Repr

/-- A write to a table that waits for rank 7 of its tick (R284): an exact-match position or a prefix index, and its new
content. -/
inductive RWrite where
  | em (pos : Nat) (e : Option REntry)
  | pfx (ix : Nat) (e : Option PEntry)
deriving DecidableEq, Repr

/-- A running exact-match path (R286): the moves still to make, where the new entry goes, the entry (none where a delete has met it
since), who is answered (none for a learning commit), and the slots that it reserves (R287). -/
structure EmPath where
  moves : List (Nat × Nat)
  last : Nat
  entry : Option REntry
  cmd : Option RCmd
  slots : List Nat
deriving DecidableEq, Repr

/-- A running prefix path (R297), with the same parts. -/
structure PfxPath where
  moves : List (Nat × Nat)
  last : Nat
  entry : Option PEntry
  cmd : RCmd
  slots : List Nat
deriving DecidableEq, Repr

/-- Reef (chapter 11): the tables, poisoned places, the running paths, writes of this tick, commands that wait, replies
to post, the steward's result of this tick, the learn queue, the hot-entry store (most recently hit first), the sweep's
next position in each group, HBM bursts used in this slot by group, the seed taken at release, what has already been
done in this tick or slot, the AGE that HBM still holds of entries refreshed since (R289) with those of them that the sweep has visited,
and the places whose read errors of this tick are logged (R299). -/
structure Reef where
  em : Tab (Option REntry) := []
  pfx : Tab (Option PEntry) := []
  emPoison : Tab Bool := []
  tagPoison : Tab Bool := []
  pfxPoison : Tab Bool := []
  emPath : Option EmPath := none
  pfxPath : Option PfxPath := none
  writes : List RWrite := []
  cmds : List RCmd := []
  replies : List (Nat × Nat × List Nat) := []
  result : Option (List Nat) := none
  learnQ : List Learn := []
  hot : List Nat := []
  sweep : Nat := 0
  used : Tab Nat := []
  seed : Nat := 0
  emStepped : Bool := false
  pfxStepped : Bool := false
  committed : Bool := false
  swept : Bool := false
  aged : Tab (Option Nat) := []
  ageDue : List Nat := []
  found : List Nat := []
deriving DecidableEq, Repr

/-! Frames (chapters 09 and 10) -/

/-- What a settled frame becomes at P + 88 (R255, R264): a receive operation, a frame for a queue of a port as the tenant's
native leaf, a Swash packet for a connection, a handoff to a shoal (KIND, REASON, channel, settling stage, ACTION_DATA,
pattern set), or a mirrored copy for a session. -/
inductive Fate where
  | rx (op : Nat)
  | port (tid q p : Nat)
  | swash (conn : Nat)
  | handoff (kind reason channel stage data : Nat) (scan : Option Nat)
  | mirror (session : Nat)
deriving DecidableEq, Repr

/-- A received good frame (R254, R255): its number, ingress port, bytes as stored, ingress time in 2^−16 ns, whether it is a
PTP event message and whether its port corrects those (R250), P, whether it has been sampled at its pipeline, the pipeline, the field vector, the exception reason of a
failed parse, the keys of the issued stages with their tables, the default action, the stages applied, the action settled with
its stage, whether Reef answered POISON, the learn request, the mirror and copy requested, and what becomes of it. -/
structure RxFrame where
  id : Nat
  port : Nat
  bytes : List Byte
  stamp : Int := 0
  event : Bool := false
  tc : Bool := false
  at_ : Nat
  passed : Bool := false
  pipe : Nat := 0
  fv : List Byte := []
  fail : Nat := 0
  keys : List (Option (Nat × List Byte)) := []
  dflt : Nat × Nat := (0, 0)
  next : Nat := 0
  hit : Option (Nat × Nat × Nat) := none
  poison : Bool := false
  learn : Option (List Byte) := none
  mirror : Option Nat := none
  copy : Option Nat := none
  fates : Option (List Fate) := none
deriving DecidableEq, Repr

/-- A frame held for a shoal (R212, R213): the shoal, first cell, generation, length, ingress port. -/
structure Run where
  shoal : Nat
  cell : Nat
  gen : Nat
  len : Nat
  port : Nat
deriving DecidableEq, Repr

/-- A handoff that a pattern engine has to post (R267, R268): the run, the message's second word, its channel, bytes 0–15
of the field vector, the pattern set to scan against and the payload offset. -/
structure Handoff where
  run : Run
  word : Nat
  channel : Nat
  meta16 : List Byte
  scan : Option Nat
  payload : Nat
deriving DecidableEq, Repr

/-- What waits for a port beside the operations in their wire stage: a forwarded or mirrored frame without FCS, with its
ingress port and time where it is a PTP event message to correct (R250); a read response of a connection (R324); a
retransmission (R325); or an ACK or NAK: connection, answered PSN, reason, echoed TIME, ECE (R311). -/
inductive TxWhat where
  | op (id : Nat)
  | frame (bytes : List Byte) (ptp : Option (Nat × Int))
  | resp (conn : Nat)
  | again (conn psn : Nat)
  | control (conn psn reason time : Nat) (ece : Bool)
deriving DecidableEq, Repr

/-- An item that waits for a port: its number in arrival order, port, queue, tenant, leaf, frame length, what it is, whether
its port went down under it (R238), the port it came in by, if any (R246), and the time at which it
came (R125). -/
structure TxItem where
  id : Nat
  port : Nat
  q : Nat
  tid : Nat
  leaf : Nat
  len : Nat
  what : TxWhat
  held : Bool := false
  from_ : Option Nat := none
  since : Nat := 0
deriving DecidableEq, Repr

/-- A frame on the wire: what it is, its bytes with FCS, the time of its start in 2^-16 ns, and whether it is the last of its operation. -/
structure OnWire where
  what : TxWhat
  len : Nat
  start : Nat
  last : Bool := true
deriving DecidableEq, Repr

/-- An entry of a transmit timestamp FIFO (R251): ns, fraction, messageType, domainNumber, sequenceId. -/
structure TxStamp where
  ns : Nat
  frac : Nat
  type : Nat
  domain : Nat
  seq : Nat
deriving DecidableEq, Repr

/-- Ports and classification: frames in the pipelines, items that wait for ports, frames on the wire, passes by port (R254),
pauses of the peer by port × 8 + priority with their end, the time of the last PFC frame of ports that pause their peer,
timestamp FIFOs, the tick at which a port entered its link state, the transmit inversions being tried and whether a port has
trained, runs held for shoals and generations by first cell, handoffs to post, the operational program (R256), the pattern
memory and its shadow as images (R269), exception and mirror buckets, the mirror sessions' sample counts and which are
enabled, the PFC frame that waits for a port's line, by its pause time (R246), the time at which the clearing of ENABLE cut a port's reception
off (R237), and the tick of a lane's last flip, by port × 8 + lane (R236). -/
structure Net where
  frames : List RxFrame := []
  items : List TxItem := []
  wire : Tab (List OnWire) := []
  passes : Tab Nat := []
  pauses : Tab (Option Nat) := []
  xoff : Tab (Option Nat) := []
  stamps : Tab (List TxStamp) := []
  since : Tab Nat := []
  txInv : Tab Nat := []
  trained : Tab Bool := []
  runs : List Run := []
  gens : Tab Nat := []
  handoffs : List Handoff := []
  prog : Tab Nat := []
  pats : List Byte := []
  patShadow : Option (List Byte) := none
  excTokens : Tab Nat := []
  mirrorTokens : Tab Nat := []
  mirrorCount : Tab Nat := []
  mirrorOn : Tab Bool := []
  pfcOut : Tab (Option Nat) := []
  cutAt : Tab (Option Nat) := []
  flipAt : Tab Nat := []
deriving DecidableEq, Repr

/-! Swash (chapter 12) -/

/-- A packet sent and not yet answered (R311, R313, R325): PSN, MSN, its operation, header words without RETX and TIME, payload
and whether it is sealed, the retransmissions made, its path, the time its timer expires, the remaining time while its port is
down, and whether a retransmission of it waits for the port. -/
structure OutPsn where
  psn : Nat
  msn : Nat
  op : Option Nat
  hdr : List Nat
  data : List Byte
  tries : Nat := 0
  path : Nat := 0
  expiry : Nat := 0
  stopped : Option Nat := none
  again : Bool := false
deriving DecidableEq, Repr

/-- A message of an operation (R326): the operation, its MSN, packets in all and answered, payload bytes acknowledged, the first
NAK's REASON, and for a read the responses placed, their number once known, the bytes placed, the time of the last placement,
and the status that a response or local read met. -/
structure SwMsg where
  op : Nat
  msn : Nat
  total : Nat
  answered : Nat := 0
  acked : Nat := 0
  nak : Option Nat := none
  resps : Nat := 0
  respTotal : Option Nat := none
  placed : Nat := 0
  lastAt : Nat := 0
  bad : Nat := 0
deriving DecidableEq, Repr

/-- A read request that a target has accepted (R324): MSN, window, address, length, sealed, in device memory, the data gathered,
bytes still to come, whether its reads have begun, whether they met poison at an offset, and the responses sent. -/
structure ReadServe where
  msn : Nat
  window : Nat
  addr : Nat
  len : Nat
  sealed : Bool
  devMem : Bool
  data : List Byte := []
  reads : Nat := 0
  started : Bool := false
  poison : List Nat := []
  sent : Nat := 0
deriving DecidableEq, Repr

/-- The congestion state of a connection (R328): payload bytes answered and marked in the period, the last sample, whether it has
sampled and has sent unbooked bytes, and the bucket of its rate. -/
structure SwRate where
  acked : Nat := 0
  marked : Nat := 0
  last : Nat := 0
  sampled : Bool := false
  sent : Bool := false
  tokens : Int := 0
deriving DecidableEq, Repr

/-- A connection's working state: packets outstanding, messages of its operations, reads it serves, the next path, the placement
bucket, the congestion state, and the PSN whose packet last advanced WINDOW_STALL (R313). -/
structure SwConn where
  out : List OutPsn := []
  msgs : List SwMsg := []
  serves : List ReadServe := []
  path : Nat := 0
  bucket : Nat := 0
  rate : SwRate := {}
  stalled : Option Nat := none
deriving DecidableEq, Repr

/-- An entry of a receive ring (R314): 1 PENDING, 2 PLACED, 3 NAKED; LAP; the NAK's REASON. -/
structure RingEntry where
  st : Nat
  lap : Nat
  reason : Nat := 0
deriving DecidableEq, Repr

/-- A tracker entry (R318): connection, MSN, window's GEN, packets placed, COUNT once known, the bytes placed, the REASON that
failed it, the epoch of its last packet, whether every packet was green, NOTIFY, TAG, whether a placement met poison, and the
SWP operation of its notification. -/
structure Tracker where
  conn : Nat
  msn : Nat
  window : Nat
  gen : Nat
  placed : Nat := 0
  count : Option Nat := none
  bytes : Nat := 0
  failed : Option Nat := none
  seen : Nat := 0
  green : Bool := true
  notify : Bool := false
  tag : Nat := 0
  poison : Bool := false
  swp : Option Nat := none
deriving DecidableEq, Repr

/-- A placement under way (R316): connection, PSN, MSN, whether it is a read response, the window and its GEN, the address and
whether it is an internal one, the tenant, the data, the echoed TIME, ECN CE, green, whether its tag fails, LAST with COUNT, and
POISON of a response. -/
structure Placing where
  conn : Nat
  psn : Nat
  msn : Nat
  resp : Bool
  window : Nat
  addr : Nat
  devMem : Bool
  tid : Nat
  data : List Byte
  time : Nat
  ce : Bool
  green : Bool
  tagBad : Bool
  last : Option Nat
  poison : Bool := false
deriving DecidableEq, Repr

/-- The values of a window that are installed (R321). -/
structure WinVals where
  base : Nat := 0
  len : Nat := 0
  key : Nat := 0
  owner : Nat := 0
  read : Bool := false
  write : Bool := false
  devMem : Bool := false
deriving DecidableEq, Repr

/-- Swash: connections, receive rings by connection × 4,096 + index, the tracker, placements under way, windows installed, windows
whose command waits to install (1 REWRITE, 2 REVOKE), and slots since the last step of the congestion law. -/
structure Swash where
  conns : Tab SwConn := []
  ring : Tab (Option RingEntry) := []
  track : List Tracker := []
  placing : List Placing := []
  windows : Tab WinVals := []
  installs : Tab Nat := []
  period : Nat := 0
deriving DecidableEq, Repr

/-! Shoals (chapters 06 to 08) -/

/-- An access of a thread that is outstanding (R145, R197): its number, the instruction's address, the destination register of a
load, size, sign extension, whether it writes, the address, the fault it returns with (exception number and detail), the
data it returns with, whether it was issued inside a handler that has not returned (R200), whether it is an atomic, and the bytes that an
atomic changed with those that it wrote, which its failure takes back (R197). -/
structure MemAcc where
  id : Nat
  pc : Nat
  reg : Nat
  size : Nat
  sext : Bool
  store : Bool
  addr : Nat
  fault : Option (Nat × Nat) := none
  back : Option Nat := none
  inHandler : Bool := false
  atomic : Bool := false
  undo : Option (List Byte × List Byte) := none
deriving DecidableEq, Repr

/-- A thread (R172, R155, R161, R190, R206): STATE, general registers, predicates p1 to p7 as bits, PC, the special registers,
send staging with its channel, wait set with OVERFLOW, outstanding accesses, OWED_TICKS and what the tick's end credits to it, whether it stops once its accesses
complete, fences not yet satisfied (the accesses they wait for and their kind), delayed faults that returned while it was
HALTED (R189), and whether a BRK is to halt it at the boundary (R189). -/
structure Thread where
  st : Nat := 0
  regs : Tab Word := []
  preds : Nat := 0
  pc : Nat := 0
  priv : Bool := true
  exl : Bool := false
  instret : Nat := 0
  xbase : Nat := 0
  epc : Nat := 0
  efpc : Nat := 0
  ecause : Nat := 0
  eaddr : Nat := 0
  estate : Bool := false
  brkHalt : Bool := false
  scratch : Tab Nat := []
  ranges : Tab Nat := []
  chLen : Nat := 0
  windows : Tab Nat := []
  tokenNext : Nat := 0
  dlArm : Nat := 0
  bookTid : Nat := 0
  staged : List Nat := []
  bound : Option Nat := none
  waiting : Bool := false
  waits : List (Nat × Bool) := []
  overrun : Bool := false
  loads : List MemAcc := []
  nextLoad : Nat := 0
  owed : Nat := 0
  credit : Nat := 0
  stopping : Bool := false
  fences : List (List Nat × Nat) := []
  parked : List MemAcc := []
  breaking : Bool := false
deriving DecidableEq, Repr

/-- What waits for the tick boundary (R159, R165 to R167, R169): kind and thread, core, shoal or channel. -/
inductive Ask where
  | reset (thread : Nat)
  | start (thread : Nat)
  | halt (thread : Nat)
  | resume (thread : Nat)
  | coreReset (core : Nat)
  | coreRelease (core : Nat)
  | shoalReset (shoal : Nat)
  | step (thread : Nat)
  | release (shoal : Nat)
  | chanOff (channel : Nat)
  | bwk
deriving DecidableEq, Repr

/-- A command of a data mover (R231) or a pattern engine (R230): shoal, thread, reply channel, token, the words of its block, the
bytes gathered or moved, and host reads outstanding; status and bytes of a failure. -/
structure EngJob where
  shoal : Nat
  thread : Nat
  channel : Nat
  token : Nat
  words : List Nat
  data : List Byte := []
  reads : Nat := 0
  begun : Bool := false
  bad : Option (Nat × Nat) := none
deriving DecidableEq, Repr

/-- What a thread issues for another unit and that unit samples in a later tick (R60, R223, R228): a booking with its reply channel, token,
TID and descriptor, a Reef command, or an access of control space with its number, offset, size and, where it writes, value. -/
inductive Later where
  | book (thread channel token tid : Nat) (block : List Byte)
  | reef (c : RCmd)
  | ctl (thread access off size : Nat) (value : Option Nat)
deriving DecidableEq, Repr

/-- The shoals: threads, what waits for the boundary, the tick of each shoal's release, data and instruction cache lines by core
× 2^42 + line of 64 bytes, first cells of runs that PW.FREE has named with the tick, thread commands that are sampled later with the
tick of their issue, jobs of the movers and pattern engines, the detector's counts by shoal × 8 +
group, the threads that began or ended waiting in this tick, the instructions that each core issued in this tick, and below 256 what
each core issued (2 × core) and left empty (2 × core + 1) since its count last advanced. -/
structure Shl where
  threads : Tab Thread := []
  asks : List Ask := []
  released : Tab Nat := []
  dcache : Tab (List Byte) := []
  icache : Tab (List Byte) := []
  freed : List (Nat × Nat) := []
  later : List (Nat × Later) := []
  movers : List EngJob := []
  scans : List EngJob := []
  counts : Tab Nat := []
  stirred : List Nat := []
  issued : Tab Nat := []
  slots : Tab Nat := []
deriving DecidableEq, Repr

end Sys2Proof.Machine
end

