-- ==== Sys2Proof/Machine/State.lean ====
section
/-! DEFINITION. The state of the device as plain data, the reasons a step can stop, and the state after reset. -/

namespace Sys2Proof.Machine

open Sys2Proof

/-- A write of a stored field that waits for the boundary of its class (R11): class, key, reset value, value. -/
structure WaitingWrite where
  cls : Nat
  key : Nat
  rst : Nat
  val : Nat
deriving DecidableEq, Repr

/-- The stored register fields: last values (R12), values in force (R11), writes that wait for their boundary, what
hardware set or added in this tick (R9), and what software cleared in this tick (R500). -/
structure RegFile where
  cur : Tab Nat := []
  force : Tab Nat := []
  waiting : List WaitingWrite := []
  hot : Tab Nat := []
  cleared : Tab Nat := []
deriving DecidableEq, Repr

/-- What waits for the next epoch or slot boundary, and what a boundary has made due. -/
inductive Due where
  | stepHold
  | stepApply
  | fwCheck
  | gatePend (port : Nat)
  | gateOper (port : Nat)
  | policer (i : Nat)
  | govStale
  | swap
  | recopy (unit : Nat)
  | standbyEnter (unit : Nat)
  | recover (unit : Nat)
  | lostClear
  | progCheck
  | patCheck
  | patActivate
  | connOpen (c : Nat)
  | connClose (c : Nat)
  | rxOpen (tid : Nat)
deriving DecidableEq, Repr

/-- The clock: Tide time at the tick boundary that starts this tick, ticks since power-on, whether this tick's slot
and epoch boundary are still to be processed, the core clocks of this tick (R44) and the ticks since the last correction tick, the step to be added at the end of a step tick (R52), the Tide time to be loaded at
the end of the tick (Table 2.21), what is requested for the next epoch or slot boundary, what a boundary has made due, which agent asked, and the epoch
boundaries since the last governor write took effect with whether one waits (R96). -/
structure Clock where
  tide : Nat := 0
  tick : Nat := 0
  slotSeq : Nat := 0
  epochs : Nat := 0
  slotDue : Bool := false
  epochDue : Bool := false
  clocks : Nat := 16
  sinceFix : Nat := 0
  stepTick : Bool := false
  stepAdd : Int := 0
  load : Option Nat := none
  reqEpoch : List Due := []
  reqSlot : List Due := []
  due : List Due := []
  askers : List (Due × Agent) := []
  govIdle : Nat := 0
  govWritten : Bool := false
deriving DecidableEq, Repr

/-- Where a forced step stands (R52). -/
inductive StepPhase where
  | idle
  | requested
  | holding
deriving DecidableEq, Repr

/-- The servo of Tide (R42, R46 to R58): the 32-bit fraction of a nanosecond of Tide time (in 2^-32 ns, below 0 where the tick boundary is
early), estimates, lock count, source timeout origin, forced step and its E0, pins. -/
structure Servo where
  frac : Int := 0
  integ : Int := 0
  rate : Int := 0
  lastOffset : Int := 0
  lockCount : Nat := 0
  timeoutFrom : Nat := 0
  phase : StepPhase := .idle
  stepUseSource : Bool := false
  stepAmount : Int := 0
  holdFrom : Nat := 0
  ppsLast : Option Nat := none
  ppsEdge : Option Nat := none
  ppsOut : Bool := false
deriving DecidableEq, Repr

/-- An error record (Table 16.3). -/
structure ErrRec where
  time : Nat := 0
  source : Nat := 0
  subsrc : Nat := 0
  kind : Nat := 0
  sev : Nat := 0
  dropped : Bool := false
  count : Nat := 1
  addr : Nat := 0
  tid : Option Nat := none
  thread : Option Nat := none
  detail : Nat := 0
  seq : Nat := 0
deriving DecidableEq, Repr

/-- The error log (R424 to R426): this tick's reports, the FIFO, the next SEQ, ERR_FIRST, ERR_LAST and the 62
records last accepted (R456). -/
structure ErrLog where
  reports : List ErrRec := []
  fifo : List ErrRec := []
  nextSeq : Nat := 0
  first : Option ErrRec := none
  last : Option ErrRec := none
  recent : List ErrRec := []
  moved : Nat := 0
deriving DecidableEq, Repr

/-- A rewrite of a 32-byte line, made at rank 7 of the tick unless the line was written in it (R419, R420). -/
structure Rewrite where
  line : Nat
  data : List Byte
  poison : Bool
deriving DecidableEq, Repr

/-- A firewall region in force (R422): first byte, first byte beyond, owner kind, tenant, shoals, permissions. -/
structure FwRegion where
  lo : Nat
  hi : Nat
  kind : Nat
  tid : Nat
  shoals : Nat
  read : Bool
  write : Bool
  exec : Bool
deriving DecidableEq, Repr

/-- Memory: the bytes of the internal address space, the poisoned lines, the lines written in this tick, the
rewrites of this tick, the firewall regions in force, whether training runs (R413), the sources that an error of this
tick escalated (R427), where the patrol scrub stands, and the slot that it has last read in. -/
structure Store where
  mem : List Host.Cell := []
  poisoned : Tab Bool := []
  touched : List Nat := []
  rewrites : List Rewrite := []
  regions : List FwRegion := []
  training : Bool := false
  escalated : List Nat := []
  patrolDdr : Tab Nat := []
  patrolHbm : Tab Nat := []
  scrubbed : Option Nat := none
deriving DecidableEq, Repr

/-- A strand write that is not yet persistent (R451): word, value, whether the power-fail engine made it, and the tick in which the
strand accepts it, one write in each tick, and the thread and number of the store that it is. -/
structure StrandWrite where
  word : Nat
  value : Nat
  engine : Bool
  at_ : Nat := 0
  by_ : Option (Nat × Nat) := none
deriving DecidableEq, Repr

/-- Where an update came from: HDL_XFER_CTL, or an NVMe Firmware Commit of a function and command (R449), with action 3 under
.activate. -/
inductive UpdateFrom where
  | xfer
  | commit (tid : Nat) (cid : Nat)
  | activate (tid : Nat) (cid : Nat)
deriving DecidableEq, Repr

/-- An update that waits for Headland or is under way (R449): its bundle and whether the mark is written. -/
structure Update where
  src : UpdateFrom
  bundle : List Byte
  mark : Bool
deriving DecidableEq, Repr

/-- Headland and the strand (chapter 17): straps, fuses, flash slots, strand words with their wear and waiting writes,
the power-fail engine's words still to write, the staged running bundle, a fuse commit under way (WHICH, target),
updates in order, the arming of HOLDUP_WARN_N and whether it has been seen low before (R473), the thermal trip, RELEASE_GO, Breakwater BIST outcomes. -/
structure Boot where
  inReset : Bool := false
  bootSrc : Bool := false
  testMode : Bool := false
  oobAddr : Nat := 0
  hdlCount : Nat := 0
  shlCount : Nat := 0
  revoked : Nat := 0
  flashA : List Byte := []
  flashB : List Byte := []
  strand : Tab Nat := []
  wear : Tab Nat := []
  strandQ : List StrandWrite := []
  pfTodo : List (Nat × Nat) := []
  running : List Byte := []
  fuseJob : Option (Nat × Nat) := none
  updates : List Update := []
  holdArmed : Bool := false
  holdLow : Bool := false
  thermTrip : Bool := false
  releaseGo : Bool := false
  bistA : Option Bool := none
  bistB : Option Bool := none
  identityKey : Bool := false
deriving DecidableEq, Repr

/-- One set of latency records, or of a queue monitor's samples (Table 18.6; for a queue monitor envLate and late hold
MAX_DEPTH and MIN_DEPTH). -/
structure LatSet where
  count : Nat := 0
  sum : Nat := 0
  maxV : Nat := 0
  minV : Nat := 0xFFFFFFFF
  envLate : Nat := 0
  late : Nat := 0
  minMargin : Int := 0x7FFFFFFF
  latBins : Tab Nat := []
  marginBins : Tab Nat := []
deriving DecidableEq, Repr

/-- A snapshot buffer (R466). -/
structure SnapBuf where
  ready : Bool := false
  setType : Nat := 0
  setIndex : Nat := 0
  at_ : Nat := 0
  set : LatSet := {}
deriving DecidableEq, Repr

/-- The epoch set of a class (R467). -/
structure EpochSet where
  count : Nat := 0
  late : Nat := 0
  minLate : Int := 0
  bins : Tab Nat := []
deriving DecidableEq, Repr

/-- A SNAP or CLEAR that waits for the end of its tick (R466). -/
structure SnapReq where
  buf : Nat
  setType : Nat
  setIndex : Nat
  clear : Bool
deriving DecidableEq, Repr

/-- The instruction that the TAP holds (Table 18.4). -/
inductive TapInstr where
  | extest | samplePreload | idcode | clamp | highz | extestPulse | extestTrain | ctlacc | bypass
deriving DecidableEq, Repr

/-- The TAP: instruction, boundary register, and the CTLACC data register as the next Capture-DR shows it (R478). -/
structure Tap where
  instr : TapInstr := .idcode
  boundary : Nat := 0
  sampled : Nat := 0
  ctlStatus : Nat := 0
  ctlData : Nat := 0
deriving DecidableEq, Repr

/-- The shipped governor (R95): the headroom and the calm epochs of each class, and the fraction, as its laws stand after the last epoch
boundary. -/
structure Governor where
  h : Tab Int := []
  calm : Tab Int := []
  f : Nat := 0xE6
deriving DecidableEq, Repr

/-- Monitors, self-test and out-of-band access (chapter 18): sets by type and index, snapshot buffers, epoch sets,
requests of this tick, BIST under way, highest temperature of the epoch in 1/4 °C, sensors' counts of readings at the
trip level, endpoint identifiers, the I3C address, the TAP, and the shipped governor, which reads them. -/
structure Mon where
  sets : Tab LatSet := []
  bufs : Tab SnapBuf := []
  epoch : Tab EpochSet := []
  snaps : List SnapReq := []
  bist : Option Nat := none
  tMax : Option Int := none
  trips : Tab Nat := []
  eids : Tab Nat := []
  i3c : Option Nat := none
  tap : Tap := {}
  gov : Governor := {}
deriving DecidableEq, Repr

/-- The whole device but its queue of commands. The field free counts the free values drawn: it is the model's own. -/
structure Dev where
  free : Nat := 0
  mem : Store := {}
  boot : Boot := {}
  mon : Mon := {}
  regs : RegFile := {}
  clk : Clock := {}
  servo : Servo := {}
  log : ErrLog := {}
  adm : Adm := {}
  pair : Pair := {}
  cal : Cal := {}
  ops : List Op := []
  nextOp : Nat := 0
  chans : Tab Chan := []
  engOut : Tab Nat := []
  host : HostSide := {}
  cry : Cry := {}
  reef : Reef := {}
  net : Net := {}
  sw : Swash := {}
  shl : Shl := {}
  out : List Out := []
deriving DecidableEq, Repr

/-- The state: the commands that wait, the device, and the device as it stood at the end of the previous tick
(what R500 gives a read of a status field). -/
structure State where
  pending : List Instr
  dev : Dev
  prev : Dev
deriving DecidableEq, Repr

/-- Why the machine stops with a fault. -/
inductive Fault where
  /-- Raised by a tick, on an empty queue or under a commanded boundary, when Tide time would pass 2^64 ns, which R41 puts after the year 2554.
  Safe: the machine stops where the spec gives no time. -/
  | tideOverflow
deriving DecidableEq, Repr

/-- Why the machine refuses a command. -/
inductive Refusal where
  /-- Raised by the dispatch alone, for a command without a meaning. Safe: nothing is claimed of it. -/
  | notModelled (mnemonic : String)
deriving DecidableEq, Repr

/-- The device right after reset (R487, R498): every field at its reset value. -/
def Dev.reset : Dev := {}

/-- The machine right after reset. -/
def State.reset : State := { pending := [], dev := Dev.reset, prev := Dev.reset }

end Sys2Proof.Machine
end

