-- ==== Sys2Proof/Machine/Ops.lean ====
section
/-! DEFINITION. The named operations that every family uses: register fields and their takes-effect classes,
counters and alert bits, the error log's reports, the management interrupt, and time. -/

namespace Sys2Proof.Machine

open Sys2Proof

/-! Register fields -/

/-- The last value of a field (R12, R500). -/
def Dev.rd (d : Dev) (f : Fld) : Nat := Tab.get f.rst d.regs.cur f.key

/-- The value of a field in force (R11). -/
def Dev.inF (d : Dev) (f : Fld) : Nat := Tab.get f.rst d.regs.force f.key

/-- A one-bit field as a truth value. -/
def Dev.bit (d : Dev) (f : Fld) : Bool := d.rd f != 0
/-- A one-bit field in force as a truth value. -/
def Dev.on (d : Dev) (f : Fld) : Bool := d.inF f != 0

/-- Hardware gives a field a value, at once in force. -/
def Dev.put (d : Dev) (f : Fld) (v : Nat) : Dev :=
  { d with regs := { d.regs with
      cur := Tab.set f.rst d.regs.cur f.key (v % 2 ^ f.width)
      force := Tab.set f.rst d.regs.force f.key (v % 2 ^ f.width) } }

/-- Hardware sets or clears a one-bit field. -/
def Dev.putBit (d : Dev) (f : Fld) (b : Bool) : Dev := d.put f (if b then 1 else 0)

/-- The number of a class in the list of waiting writes. -/
def Class.num : Class → Nat
  | .tick => 0 | .slot => 1 | .epoch => 2 | .reset => 3 | .hw => 4

/-- Software stores a field: it reads back at once (R12), and waits for its class's boundary to be in force (R11). -/
def Dev.store (d : Dev) (f : Fld) (v : Nat) : Dev :=
  { d with regs := { d.regs with
      cur := Tab.set f.rst d.regs.cur f.key (v % 2 ^ f.width)
      waiting := d.regs.waiting ++ [⟨f.cls.num, f.key, f.rst, v % 2 ^ f.width⟩] } }

/-- The boundary of a class: the waiting writes of the class come into force, the last of each field standing (R12). -/
def Dev.commit (d : Dev) (c : Class) : Dev :=
  { d with regs := { d.regs with
      force := (d.regs.waiting.filter (fun w => w.cls == c.num)).foldl
        (fun t w => Tab.set w.rst t w.key w.val) d.regs.force
      waiting := d.regs.waiting.filter (fun w => !(w.cls == c.num)) } }

/-- What a tick remembers is forgotten as the next begins. -/
def Dev.forget (d : Dev) : Dev :=
  { d with regs := { d.regs with hot := [], cleared := [] }
           mem := { d.mem with escalated := [] }
           log := { d.log with moved := 0 }
           adm := { d.adm with decided := 0 }
           pair := { d.pair with inputs := [], acked := false }
           host := { d.host with took := [], doneNow := [] }
           shl := { d.shl with stirred := [], issued := [] } }

/-- The device as reads show it from the boundary that ends a tick: TICK-class writes are in force (R63), and nothing of the tick that
follows shows (R500). -/
def Dev.seen (d : Dev) : Dev := (d.commit .tick).forget

/-- A block's reset takes the RESET-class writes of the addresses that p names into force (R10). -/
def Dev.commitReset (d : Dev) (p : Nat → Bool) : Dev :=
  { d with regs := { d.regs with
      force := (d.regs.waiting.filter (fun w => w.cls == 3 && p (w.key / 64))).foldl
        (fun t w => Tab.set w.rst t w.key w.val) d.regs.force
      waiting := d.regs.waiting.filter (fun w => !(w.cls == 3 && p (w.key / 64))) } }

/-- A field that reads back at once and is in force from the boundary that ends the tick (R397). -/
def Dev.later (d : Dev) (f : Fld) (v : Nat) : Dev :=
  { d with regs := { d.regs with
      cur := Tab.set f.rst d.regs.cur f.key (v % 2 ^ f.width)
      waiting := d.regs.waiting ++ [⟨0, f.key, f.rst, v % 2 ^ f.width⟩] } }

/-- A field that is given its value at once, whatever waits for it. -/
def Dev.putNow (d : Dev) (f : Fld) (v : Nat) : Dev :=
  { d with regs := { d.regs with waiting := d.regs.waiting.filter (fun w => !(w.key == f.key)) } }.put f v

/-- The value put into force at once, as well as read back: a stored field whose action acts in its own tick (R63). -/
def Dev.storeNow (d : Dev) (f : Fld) (v : Nat) : Dev := d.put f v

/-- A counter advances by n, stopping at the largest value of its field; the advance of this tick is remembered for
R9. -/
def Dev.bump (d : Dev) (f : Fld) (n : Nat := 1) : Dev :=
  let v := min (d.rd f + n) (2 ^ f.width - 1)
  { d with regs := { d.regs with
      cur := Tab.set f.rst d.regs.cur f.key v
      hot := Tab.set 0 d.regs.hot f.key (min (Tab.get 0 d.regs.hot f.key + n) (2 ^ f.width - 1)) } }

/-- Hardware sets bits of an RW1C field; the setting of this tick is remembered for R9. -/
def Dev.raise (d : Dev) (f : Fld) (bits : Nat := 1) : Dev :=
  { d with regs := { d.regs with
      cur := Tab.set f.rst d.regs.cur f.key ((d.rd f ||| bits) % 2 ^ f.width)
      hot := Tab.set 0 d.regs.hot f.key (Tab.get 0 d.regs.hot f.key ||| bits) } }

/-- A field that holds the highest value met: raised to v, and the highest of this tick remembered for R9. -/
def Dev.peak (d : Dev) (f : Fld) (v : Nat) : Dev :=
  { d with regs := { d.regs with
      cur := Tab.set f.rst d.regs.cur f.key (max (d.rd f) (v % 2 ^ f.width))
      hot := Tab.set 0 d.regs.hot f.key (max (Tab.get 0 d.regs.hot f.key) (v % 2 ^ f.width)) } }

/-- Software clears an RC field by reading it: the clear comes first, then this tick's events (R9). -/
def Dev.clearCount (d : Dev) (f : Fld) : Dev :=
  { d with regs := { d.regs with
      cur := Tab.set f.rst d.regs.cur f.key (if (Tab.keys d.regs.hot).contains f.key then Tab.get 0 d.regs.hot f.key % 2 ^ f.width else f.rst)
      cleared := Tab.set 0 d.regs.cleared f.key (2 ^ f.width - 1) } }

/-- Software writes ones to an RW1C field: the clear comes first, then this tick's events (R8, R9). -/
def Dev.clearBits (d : Dev) (f : Fld) (bits : Nat) : Dev :=
  { d with regs := { d.regs with
      cur := Tab.set f.rst d.regs.cur f.key
        ((d.rd f &&& (2 ^ f.width - 1 - bits % 2 ^ f.width)) ||| (d.rd f &&& Tab.get 0 d.regs.hot f.key))
      cleared := Tab.set 0 d.regs.cleared f.key (Tab.get 0 d.regs.cleared f.key ||| bits % 2 ^ f.width) } }

/-! Numbers -/

/-- A two's complement field of w bits as an integer. -/
def sgn (w v : Nat) : Int := if v % 2 ^ w < 2 ^ (w - 1) then (v % 2 ^ w : Nat) else (v % 2 ^ w : Nat) - (2 ^ w : Nat)

/-- An integer as a two's complement field of w bits. -/
def wrap (w : Nat) (x : Int) : Nat := (x % (2 ^ w : Nat)).toNat

/-- Bits [hi:lo] of a number. -/
def bits (v hi lo : Nat) : Nat := v / 2 ^ lo % 2 ^ (hi + 1 - lo)

/-- The signed 32-bit difference a − b of two short times (R16). -/
def shortDiff (a b : Nat) : Int := sgn 32 (wrap 32 ((a : Int) - b))

/-- Short time (R15). -/
def Dev.short (d : Dev) : Nat := d.clk.tide % 2 ^ 32

/-- Ticks in a slot, nanoseconds in a tick, a slot and an epoch (R14). -/
def tickNs : Nat := 8
def slotNs : Nat := 256
def epochNs : Nat := 4194304
def slotTicks : Nat := 32

/-! The error log and the management interrupt -/

/-- A report of the error log in this tick (R423): KIND_COUNT advances for every report (R425). -/
def Dev.report (d : Dev) (r : ErrRec) : Dev :=
  let d := d.bump (Reg.ERR_KIND_COUNT r.kind)
  { d with log := { d.log with reports := d.log.reports ++ [{ r with time := d.clk.tide }] } }

/-- The source number of an agent of control space (Table 2.4, Table 16.8); JTAG has the out-of-band number
(DEDUCED). -/
def agentSource : Agent → Nat
  | .steward => 0x051
  | .headland => 0x050
  | .thread t => 0x020 + t.toNat / 64
  | .oob => 0x052
  | .jtag => 0x052

/-- The global thread number of an agent, where it is a thread. -/
def agentThread : Agent → Option Nat
  | .thread t => some t.toNat
  | .steward | .headland | .oob | .jtag => none

/-- The tenant of an agent: the steward is TID 0 (R38). -/
def agentTid : Agent → Option Nat
  | .steward => some 0
  | .headland | .thread _ | .oob | .jtag => none

/-- The block index of a control offset (Table 1.13): 0xFF for an unmapped offset (Table 16.8). -/
def blockOf (off : Nat) : Nat :=
  if off < 0x10000 then 0
  else if off < 0x20000 then 1
  else if off < 0x40000 then 2
  else if off < 0x100000 then 3
  else if off < 0xE00000 then 3 + off / 0x100000
  else 0xFF

/-- The first offset of a block (Table 1.13). -/
def blockBase (b : Nat) : Nat :=
  if b == 0 then 0 else if b == 1 then 0x10000 else if b == 2 then 0x20000 else if b == 3 then 0x40000
  else if b < 17 then (b - 3) * 0x100000 else 0xE00000

/-- A record of kinds 0x12 to 0x15 about a control-space access by an agent (R499, Table 16.8). -/
def Dev.reportCtl (d : Dev) (ag : Agent) (kind off detail : Nat) : Dev :=
  d.report { source := agentSource ag, subsrc := blockOf off, kind := kind, sev := 1, addr := off,
             tid := agentTid ag, thread := agentThread ag, detail := detail }

/-- The MEM_FW_CTL grants in force for a shoal. -/
def Dev.ctlGrant (d : Dev) (shoal block : Nat) : Bool := (d.inF (Reg.MEM_FW_CTL shoal)).testBit block

/-- Whether the firewall refuses an agent the block of an offset: a thread outside its shoal's grant (R31, R421). -/
def Dev.fwRefuses (d : Dev) (ag : Agent) (off : Nat) : Bool :=
  match ag with
  | .thread t => !d.ctlGrant (t.toNat / 64) (blockOf off)
  | .steward | .headland | .oob | .jtag => false

/-- The record of a control-space access that the firewall refuses a thread: FW_DENIED at the internal address (R5, Table 16.8). -/
def fwCtlRecord (t off : Nat) (write : Bool) : ErrRec :=
  { source := 0x020 + t / 64, kind := 0x11, sev := 1, addr := 0x03F000000000 + off, thread := some t, detail := if write then 1 else 0 }

/-- The thread's access comes back with ACCESS, detail 2, as a delayed fault (R193, R197). -/
def Thread.ctlFault (x : Thread) (off : Nat) (write : Bool) : Thread :=
  { x with nextLoad := x.nextLoad + 1
           loads := x.loads ++ [{ id := x.nextLoad, pc := x.pc, reg := 0, size := 8, sext := false, store := write,
                                  addr := 0x03F000000000 + off, fault := some (4, 2), inHandler := x.exl }] }

/-- The firewall refuses a thread an access of control space: it is logged, and the thread's access faults (R31). -/
def Dev.fwDenied (d : Dev) (ag : Agent) (off : Nat) (write : Bool) : Dev :=
  match ag with
  | .thread t =>
    let d := d.report (fwCtlRecord t.toNat off write)
    { d with shl := { d.shl with threads := Tab.upd {} d.shl.threads t.toNat (·.ctlFault off write) } }
  | .steward | .headland | .oob | .jtag => d

/-- A control-space write that was discarded and is logged: FW_DENIED where the firewall refuses it, else WRITE_DISCARDED with the offset
within the block. -/
def Dev.discarded (d : Dev) (ag : Agent) (off : Nat) : Dev :=
  if d.fwRefuses ag off then d.fwDenied ag off true
  else d.reportCtl ag 0x14 off ((off - blockBase (blockOf off)) % 0x10000)

/-- A commit or command that failed its check: CHECK_REFUSED with the register offset (R423, Table 16.8). -/
def Dev.checkRefused (d : Dev) (ag : Agent) (off : Nat) : Dev :=
  d.reportCtl ag 0x15 off ((off - blockBase (blockOf off)) % 0x10000)

/-- The causes of the management interrupt (HST_MGMT_CAUSE, R405). -/
inductive Cause where
  | bwk | tide | mac | shl | swh | cry | stg | err | hotPlug | tdi | mon
deriving DecidableEq, Repr

/-- The bit of a cause in HST_MGMT_CAUSE. -/
def Cause.bit : Cause → Nat
  | .bwk => 0 | .tide => 1 | .mac => 2 | .shl => 3 | .swh => 4 | .cry => 5 | .stg => 6 | .err => 7
  | .hotPlug => 8 | .tdi => 9 | .mon => 10

/-- A block alert raises the management interrupt: its cause sets and one more event waits to be sent (R405). -/
def Dev.mgmt (d : Dev) (c : Cause) : Dev :=
  (d.raise Reg.HST_MGMT_CAUSE (2 ^ c.bit)).bump Reg.HST_MGMT_PENDING_EVENTS

/-! Free values -/

/-- A free value of at most m, and the device with the next free value in turn. -/
def Dev.draw (d : Dev) (m : Nat) : Nat × Dev := (Config.freeValue d.free % (m + 1), { d with free := d.free + 1 })

/-! Rights (R31, R68, R98, R126, R142, R171, R377, R429, R430, R460, R476, R478, R479) -/

/-- Whether a thread runs at the privileged level (R31). -/
def Dev.threadPriv (d : Dev) (t : Nat) : Bool := (Tab.get {} d.shl.threads t).priv

/-- Registers that only the steward writes: TIDE_FORCE_STEP, BIST_CTL, OOB_CTL, JTAG_CTL. -/
def stewardOnly (off : Nat) : Bool :=
  off == 0x10040 || off == 0xC00080 || off == 0xC00090 || off == 0xC00098

/-- Registers that only Headland writes: SHL_CORE_VECTOR and HST_IDS. -/
def headlandOnly (off : Nat) : Bool :=
  off == 0x800010 ||
  (0x100000 ≤ off && off < 0x200000 && 0x400 ≤ off % 0x10000 && off % 0x10000 < 0x500 && off % 0x20 == 0)

/-- Registers that only the steward and Headland write: BWK_GOV_POLICY, the unit registers of BWK_, every CRY_ and HDL_ register,
and the MEM_ registers at 0x0100 and above. -/
def stewardOrHeadland (off : Nat) : Bool :=
  off == 0x20030 || off == 0x30030 || (blockOf off == 2 && 0x200 ≤ off % 0x10000) ||
  blockOf off == 10 || blockOf off == 13 || (blockOf off == 12 && 0x900100 ≤ off)

/-- Whether an agent may write the register at a control offset. -/
def Dev.mayWrite (d : Dev) (ag : Agent) (off : Nat) : Bool :=
  match ag with
  | .steward => !headlandOnly off
  | .headland => !stewardOnly off
  | .thread t =>
    !headlandOnly off && !stewardOnly off && !stewardOrHeadland off && d.ctlGrant (t.toNat / 64) (blockOf off) &&
      d.threadPriv t.toNat
  | .oob | .jtag =>
    !headlandOnly off && !stewardOnly off && !stewardOrHeadland off &&
      (d.inF Reg.MON_OOB_WRITE_BLOCKS).testBit (blockOf off)

/-- Run a write's effect when the agent may make it; otherwise the write is discarded and logged. -/
def Dev.byRight (d : Dev) (ag : Agent) (off : Nat) (f : Dev → Dev) : Dev :=
  if d.mayWrite ag off then f d else d.discarded ag off

/-- Whether an agent may read the block of an offset: a thread with the grant, at the privileged level (R31). -/
def Dev.mayRead (d : Dev) (ag : Agent) (off : Nat) : Bool :=
  match ag with
  | .thread t => d.ctlGrant (t.toNat / 64) (blockOf off) && d.threadPriv t.toNat
  | .steward | .headland | .oob | .jtag => true

/-- Run a read's effect when the agent may make it: what the firewall refuses a thread is logged, and a thread at user level reads nothing. -/
def Dev.byRead (d : Dev) (ag : Agent) (off : Nat) (f : Dev → Dev) : Dev :=
  if d.mayRead ag off then f d else if d.fwRefuses ag off then d.fwDenied ag off false else d

/-- The half that an aligned access of 4 or 8 bytes addresses. -/
def accessHalf (off size : Nat) : Option (Fin 3) :=
  if size == 8 && off % 8 == 0 then some 2
  else if size == 4 && off % 8 == 0 then some 0
  else if size == 4 && off % 8 == 4 then some 1
  else none

/-! Running a meaning -/

/-- A command whose effect is on the device alone: the next state. While PORST_N is low the device stays in reset, and
nothing but the pin has an effect (R488). -/
def State.run (s : State) (f : Dev → Dev) : Host.Outcome State Fault Refusal :=
  .next (if s.dev.boot.inReset then s else { s with dev := f s.dev })

/-- Run f when the condition holds. -/
def Dev.when (d : Dev) (b : Bool) (f : Dev → Dev) : Dev := if b then f d else d

/-- Fold a device operation over a list. -/
def Dev.each {α : Type} (d : Dev) (l : List α) (f : Dev → α → Dev) : Dev := l.foldl f d

/-- Ask for something at the next epoch boundary (R11). -/
def Dev.askEpoch (d : Dev) (x : Due) : Dev :=
  if d.clk.reqEpoch.contains x then d else { d with clk := { d.clk with reqEpoch := d.clk.reqEpoch ++ [x] } }

/-- Ask for something at the next epoch boundary, remembering the agent that asked. -/
def Dev.askEpochBy (d : Dev) (x : Due) (ag : Agent) : Dev :=
  let d := d.askEpoch x
  { d with clk := { d.clk with askers := (x, ag) :: d.clk.askers.filter (fun p => p.1 != x) } }

/-- The agent that last asked for something; the steward where none did. -/
def Dev.asker (d : Dev) (x : Due) : Agent :=
  match d.clk.askers.find? (fun p => p.1 == x) with
  | some p => p.2
  | none => .steward

/-- Ask for something at the next slot boundary (R11). -/
def Dev.askSlot (d : Dev) (x : Due) : Dev :=
  if d.clk.reqSlot.contains x then d else { d with clk := { d.clk with reqSlot := d.clk.reqSlot ++ [x] } }

/-- Make something due in this tick. -/
def Dev.makeDue (d : Dev) (x : Due) : Dev :=
  if d.clk.due.contains x then d else { d with clk := { d.clk with due := d.clk.due ++ [x] } }

/-- Do what is due, once; a command for something that is not due changes nothing. -/
def Dev.ifDue (d : Dev) (x : Due) (f : Dev → Dev) : Dev :=
  if d.clk.due.contains x then f { d with clk := { d.clk with due := d.clk.due.filter (fun y => y != x) } } else d

/-- Whether Headland has released Breakwater (DEV_STATUS.BREAKWATER_RELEASED, R445). -/
def Dev.released (d : Dev) : Bool := d.on Reg.HDL_CONTROL_BWK_RELEASE

end Sys2Proof.Machine
end

