-- ==== Sys2Proof/Machine/Channels.lean ====
section
/-! DEFINITION. Hardware channels: endpoints, claim channels and the posts of units (R151, R154, R158). -/

namespace Sys2Proof.Machine

open Sys2Proof

/-- The endpoint code of the unit with a source number (Table 6.4). -/
def unitEnd (source : Nat) : Nat := 0x800 + source
/-- The endpoint code of a shoal's own unit: 1 dispatcher, 2 pattern engine, 3 data mover, 4 and 5 cipher engines. -/
def shoalEnd (s n : Nat) : Nat := 0x800 + n * 0x100 + 0x20 + s

/-- Whether an endpoint code names a thread. -/
def isThreadEnd (c : Nat) : Bool := c < 0x400
/-- Whether an endpoint code is valid (Table 6.4). -/
def validEnd (c : Nat) : Bool :=
  isThreadEnd c ||
  (0x800 ≤ c && c < 0x900 &&
    (c < 0x810 || c == 0x810 || c == 0x811 || (0x818 ≤ c && c < 0x820) || c == 0x830 || c == 0x831 || c == 0x832 ||
      c == 0x838 || c == 0x840 || c == 0x850)) ||
  (0x900 ≤ c && c < 0xE00 && 0x20 ≤ c % 0x100 && c % 0x100 < 0x30)

/-- The booked threads of a shoal (R149). -/
def Dev.bookedThreads (d : Dev) (s : Nat) : Nat := d.rd (Reg.SHL_STATUS_BOOKED_IN_FORCE s)

/-- The thread, global number, of a shoal's booked index (R148). -/
def bookedThread (s i : Nat) : Nat := s * 64 + i % 8 * 8 + i / 8

/-- The first claim channel, local number (Table 6.7). -/
def Dev.claimBase (d : Dev) (s : Nat) : Nat :=
  min (d.inF (Reg.SHL_CTRL_CLAIM_CH_BASE s)) (512 - d.bookedThreads s)

/-- The booked index whose claim channel is channel ch, if it is one (R151). -/
def Dev.claimIndex (d : Dev) (ch : Nat) : Option Nat :=
  let s := ch / 512
  let l := ch % 512
  if d.claimBase s ≤ l && l < d.claimBase s + d.bookedThreads s then some (l - d.claimBase s) else none

/-- Whether a channel is enabled (R151, R159). -/
def Dev.chanOn (d : Dev) (ch : Nat) : Bool :=
  (d.claimIndex ch).isSome || d.on (Reg.SHL_CH_ENABLE (ch / 512) (ch % 512))

/-- The declared producer of a channel. What a channel that leaves the claim range is configured as R151 does not say: here it has the fields
that were stored before again (DESIGN CHOICE, log entry 175). -/
def Dev.chanProducer (d : Dev) (ch : Nat) : Nat :=
  if (d.claimIndex ch).isSome then shoalEnd (ch / 512) 1 else d.inF (Reg.SHL_CH_PRODUCER (ch / 512) (ch % 512))

/-- The declared consumer of a channel. -/
def Dev.chanConsumer (d : Dev) (ch : Nat) : Nat :=
  match d.claimIndex ch with
  | some i => bookedThread (ch / 512) i
  | none => d.inF (Reg.SHL_CH_CONSUMER (ch / 512) (ch % 512))

/-- A channel. -/
def Dev.chan (d : Dev) (ch : Nat) : Chan := Tab.get {} d.chans ch
/-- Put a channel. -/
def Dev.setChan (d : Dev) (ch : Nat) (c : Chan) : Dev := { d with chans := Tab.set {} d.chans ch c }

/-- A unit posts a message: it is offered to the channel from the next tick on, and waits there for room (R158). The thread eng has one
engine command fewer outstanding once it is posted. -/
def Dev.unitPost (d : Dev) (unit ch : Nat) (words : List Nat) (eng : Option Nat := none) : Dev :=
  d.setChan ch { d.chan ch with held := (d.chan ch).held ++ [⟨unit, words.map (· % 2 ^ 64), eng, d.clk.tick + 1, false⟩] }

/-- A thread's engine command is no longer outstanding (R219). -/
def Dev.engDone (d : Dev) (thread : Nat) : Dev := { d with engOut := Tab.upd 0 d.engOut thread (· - 1) }

/-- A message that found its channel full is offered again at the next boundary. -/
def Held.missed (m : Held) (tick : Nat) : Held := { m with next := tick + 1, tried := true }

/-- The held messages that may be offered in this tick and find room enter the channel; those for a channel that is not enabled, or whose
declared producer is another, are discarded. -/
def Dev.takeHeld (d : Dev) (ch : Nat) : Dev :=
  let c := d.chan ch
  let due (m : Held) : Bool := m.next ≤ d.clk.tick
  let good (m : Held) : Bool := d.chanOn ch && d.chanProducer ch == m.unit
  let now := c.held.filter due
  let ok := now.filter good
  let n := 16 - c.msgs.length
  let gone := ok.take n ++ now.filter (fun m => !good m)
  let d := d.setChan ch { msgs := c.msgs ++ (ok.take n).map (·.words)
                          held := (ok.drop n).map (·.missed d.clk.tick) ++ c.held.filter (fun m => !due m) }
  d.each (gone.filterMap (·.eng)) Dev.engDone

/-- Whether a held message is an engine's reply; a handoff, a claim and a slot's message are none. -/
def Held.isReply (m : Held) (e : Nat) : Bool := m.unit == e && (m.eng.isSome || e == unitEnd 0x030)

/-- How many messages that p names are held for channels of a shoal's threads. -/
def Dev.heldFor (d : Dev) (s : Nat) (p : Held → Bool) : Nat :=
  ((d.chans.filter (fun c => d.chanConsumer c.1 / 64 == s)).map (fun c => (c.2.held.filter p).length)).sum

/-- The replies of an engine that have found the channels of a shoal's threads full (R222). -/
def Dev.heldReplies (d : Dev) (e s : Nat) : Nat := d.heldFor s fun m => m.isReply e && m.tried

/-- Whether an engine's holding for a shoal is full, so that it takes no command of it (R222). -/
def Dev.engFull (d : Dev) (e s : Nat) : Bool := 16 ≤ d.heldReplies e s

/-- Whether an engine may post one more reply to a shoal without holding more than 16, whatever its channel does (R222). -/
def Dev.mayPost (d : Dev) (e s : Nat) : Bool := d.heldFor s (·.isReply e) < 16

/-- All held messages are offered at a tick boundary. -/
def Dev.offerHeld (d : Dev) : Dev :=
  d.each ((d.chans.filter (fun p => !p.2.held.isEmpty)).map (·.1)) fun d ch => d.takeHeld ch

/-- UNIT_POST (R158): the messages that units hold for a channel and that no boundary has offered since their post enter it while it has
room. -/
def execUnitPost (channel : BitVec 13) (s : State) : Host.Outcome State Fault Refusal :=
  s.run fun d => d.takeHeld channel.toNat

end Sys2Proof.Machine
end

