-- ==== Sys2Proof/Machine/Code.lean ====
section
/-! DEFINITION. The line code RS(36,32) (R415, R416, R420) and CRC-32C (R270, R278), over bytes. -/

namespace Sys2Proof.Machine

/-- Multiply by α = 0x02 in GF(2^8) with x^8 + x^4 + x^3 + x^2 + 1. -/
def gfDouble (a : Nat) : Nat := if a < 128 then a * 2 else ((a * 2) ^^^ 0x11D) % 256

/-- The product in GF(2^8): n bits of b, lowest first. -/
def gfMulFuel : Nat → Nat → Nat → Nat
  | 0, _, _ => 0
  | n + 1, a, b => (if b % 2 == 1 then a else 0) ^^^ gfMulFuel n (gfDouble a) (b / 2)

/-- The product in GF(2^8). -/
def gfMul (a b : Nat) : Nat := gfMulFuel 8 (a % 256) (b % 256)

/-- α^n. -/
def gfPow : Nat → Nat
  | 0 => 1
  | n + 1 => gfDouble (gfPow n)

/-- Multiply a polynomial, highest coefficient first, by (x − r). -/
def mulRoot (r : Nat) (p : List Nat) : List Nat :=
  List.zipWith (fun (a b : Nat) => a ^^^ gfMul r b) (p ++ [0]) (0 :: p)

/-- Coefficients of g(x) = (x − α^0)(x − α^1)(x − α^2)(x − α^3) below x^4, highest first. -/
def genCoeffs : List Nat := (mulRoot 8 (mulRoot 4 (mulRoot 2 (mulRoot 1 [1])))).tail

/-- One step of the division by g: the remainder, highest first, and the next symbol. -/
def checkStep (r : List Nat) (s : Nat) : List Nat :=
  let fb := r.headD 0 ^^^ s
  List.zipWith (fun (a b : Nat) => a ^^^ gfMul fb b) (r.drop 1 ++ [0]) genCoeffs

/-- The 6 address symbols of a line: bits [47:0], most significant byte first (R415). -/
def addrSymbols (a : Nat) : List Nat :=
  [a / 2 ^ 40 % 256, a / 2 ^ 32 % 256, a / 2 ^ 24 % 256, a / 2 ^ 16 % 256, a / 2 ^ 8 % 256, a % 256]

/-- The 4 check bytes of a line at address a (R415). -/
def checkBytes (a : Nat) (data : List Byte) : List Nat :=
  (addrSymbols a ++ data.map (·.toNat)).foldl checkStep [0, 0, 0, 0]

/-- The stored codeword of a line: the data, then the check bytes (R415). -/
def codeword (a : Nat) (data : List Byte) : List Byte := data ++ (checkBytes a data).map (BitVec.ofNat 8)

/-- Syndrome j of the 42 symbols: the word's value at α^j, by Horner's rule. -/
def syndrome (j : Nat) (w : List Nat) : Nat := w.foldl (fun acc s => gfMul acc (gfPow j) ^^^ s) 0

/-- The four syndromes of a stored codeword against the address the read was sent to (R416). -/
def syndromes (a : Nat) (stored : List Byte) : List Nat :=
  let w := addrSymbols a ++ stored.map (·.toNat)
  [syndrome 0 w, syndrome 1 w, syndrome 2 w, syndrome 3 w]

/-- The syndromes of the poison pattern: 0x5C in every check byte (R420). -/
def poisonSyndromes : List Nat :=
  let w := [0x5C, 0x5C, 0x5C, 0x5C]
  [syndrome 0 w, syndrome 1 w, syndrome 2 w, syndrome 3 w]

/-- What a read's syndromes show (R416). -/
inductive ReadOutcome where
  | good
  | corrected (position : Nat) (value : Nat)
  | misdirected (symbol : Nat)
  | poisoned
  | uncorrectable
deriving DecidableEq, Repr

/-- The index, 0 to 41, of the one symbol that syndromes s0 to s3 put in error. -/
def errorSymbol (s0 s1 s2 s3 : Nat) : Option Nat :=
  (List.range 42).find? (fun i =>
    let x := gfPow (41 - i)
    gfMul s0 x == s1 && gfMul s1 x == s2 && gfMul s2 x == s3)

/-- The outcome of a read (R416): the table's rows in order. -/
def decodeLine (a : Nat) (stored : List Byte) : ReadOutcome :=
  match syndromes a stored with
  | [s0, s1, s2, s3] =>
    if s0 == 0 && s1 == 0 && s2 == 0 && s3 == 0 then .good
    else if [s0, s1, s2, s3] == poisonSyndromes then .poisoned
    else if s0 == 0 then .uncorrectable
    else match errorSymbol s0 s1 s2 s3 with
      | some i => if i < 6 then .misdirected i else .corrected (i - 6) s0
      | none => .uncorrectable
  | _ => .uncorrectable

/-- The data bytes of a codeword with the error value removed at a stored position. -/
def correctedData (stored : List Byte) (position value : Nat) : List Byte :=
  ((stored.zipIdx).map (fun p => if p.2 == position then p.1 ^^^ BitVec.ofNat 8 value else p.1)).take 32

/-- CRC-32C, reflected polynomial 0x82F63B78: one bit step. -/
def crcBits : Nat → Nat → Nat
  | 0, c => c
  | n + 1, c => crcBits n (if c % 2 == 1 then (c / 2) ^^^ 0x82F63B78 else c / 2)

/-- CRC-32C of bytes from a starting register. -/
def crcRun (c : Nat) (l : List Byte) : Nat := l.foldl (fun c b => crcBits 8 (c ^^^ b.toNat)) c

/-- CRC-32C with the usual start and end inversion. -/
def crc32c (l : List Byte) : Nat := crcRun 0xFFFFFFFF l ^^^ 0xFFFFFFFF

/-- The frame check sequence's CRC-32 (PRESUMED: IEEE 802.3), reflected polynomial 0xEDB88320: one bit step. -/
def fcsBits : Nat → Nat → Nat
  | 0, c => c
  | n + 1, c => fcsBits n (if c % 2 == 1 then (c / 2) ^^^ 0xEDB88320 else c / 2)

/-- CRC-32 of bytes. -/
def crc32 (l : List Byte) : Nat := l.foldl (fun c b => fcsBits 8 (c ^^^ b.toNat)) 0xFFFFFFFF ^^^ 0xFFFFFFFF

end Sys2Proof.Machine
end

