-- ==== Sys2Proof/Machine/Memory.lean ====
section
/-! DEFINITION. The internal address space, its firewall, reads and writes of memory, and the error log from report
to ring (chapters 01 and 16). -/

namespace Sys2Proof.Machine

open Sys2Proof

/-! The internal address map (R32, R34) -/

/-- Where an internal address lies (Table 1.14). -/
inductive Place where
  | ddr
  | hbm
  | sram (shoal : Nat)
  | packet
  | control (off : Nat)
  | host (tid : Nat) (offset : Nat)
  | hole
deriving DecidableEq, Repr

/-- The place of an internal address; a DDR address above the installed capacity is a hole (R32). -/
def Dev.place (d : Dev) (a : Nat) : Place :=
  if a < 0x20000000000 then (if a < d.rd Reg.MEM_DDR_BYTES then .ddr else .hole)
  else if a < 0x20C00000000 then .hbm
  else if a < 0x30000000000 then .hole
  else if a < 0x30004000000 then .sram ((a - 0x30000000000) / 0x400000)
  else if a < 0x38000000000 then .hole
  else if a < 0x38008000000 then .packet
  else if a < 0x3F000000000 then .hole
  else if a < 0x3F010000000 then .control (a - 0x3F000000000)
  else if a < 0x40000000000 then .hole
  else if a < 0x840000000000 then .host ((a - 0x40000000000) / 0x4000000000) ((a - 0x40000000000) % 0x4000000000)
  else .hole

/-- The first address of a shoal's SRAM. -/
def sramBase (s : Nat) : Nat := 0x30000000000 + s * 0x400000
/-- The first address of the packet buffer. -/
def packetBase : Nat := 0x38000000000
/-- The first address of a tenant's host window (R34). -/
def hostWindow (tid : Nat) : Nat := 0x40000000000 + tid * 0x4000000000

/-- DDR channels in use: 4 or 8; other values act as 8 (Table 16.5). -/
def Dev.ddrChannels (d : Dev) : Nat := if d.inF Reg.MEM_CFG_CHANNELS == 4 then 4 else 8

/-- The DDR rate in force: 4,800, 5,600 or 6,400; other values act as 6,400 (R412). -/
def Dev.ddrRate (d : Dev) : Nat :=
  let r := d.inF Reg.MEM_CFG_RATE_MTS
  if r == 4800 || r == 5600 then r else 6400

/-- The DDR channel of an address (R414). -/
def Dev.ddrChannel (d : Dev) (a : Nat) : Nat := a / 256 % d.ddrChannels

/-- The offset of an HBM address in its stack, and the stack. -/
def hbmStack (a : Nat) : Nat := (a - 0x20000000000) / 0x600000000
def hbmOffset (a : Nat) : Nat := (a - 0x20000000000) % 0x600000000

/-- The HBM group of an address (R414). -/
def hbmGroup (a : Nat) : Nat := hbmStack a * 8 + hbmOffset a / 256 % 8

/-- The pseudo-channel, 0 to 31, of an HBM address in its stack (R414). -/
def hbmPseudo (a : Nat) : Nat := 4 * (hbmGroup a % 8) + hbmOffset a / 64 % 4

/-- The memory source of an address (Table 16.1). Which rank a DDR address lies in is not stated: it is a free value. -/
def Dev.memSource (d : Dev) (a : Nat) : Option Nat :=
  match d.place a with
  | .ddr => some (d.ddrChannel a * 4 + Config.ddrRank a % 4)
  | .hbm => some (0x20 + hbmStack a * 32 + hbmPseudo a)
  | .sram s => some (0x60 + s)
  | .packet => some 0x70
  | .control _ | .host _ _ | .hole => none

/-! Bytes -/

/-- What a byte that nothing has written reads as (DESIGN CHOICE: the spec gives no contents at reset). -/
def blankByte : Byte := 0

/-- The canonical form of memory: addresses strictly rising, and no entry equal to what an unlisted address reads as. -/
abbrev Memory.wf (m : List Host.Cell) : Bool := Tab.wf blankByte m

/-- One byte. -/
def Dev.byte (d : Dev) (a : Nat) : Byte := Tab.get blankByte d.mem.mem a

/-- n bytes from a. -/
def Dev.bytes (d : Dev) (a n : Nat) : List Byte := (List.range n).map (fun i => d.byte (a + i))

/-- Bytes, lowest first, as a number. -/
def leNat (l : List Byte) : Nat := l.foldr (fun b n => b.toNat + 256 * n) 0

/-- A number as n bytes, lowest first. -/
def natLe (n v : Nat) : List Byte := (List.range n).map (fun i => BitVec.ofNat 8 (v / 256 ^ i))

/-- Bytes, highest first, as a number. -/
def beNat (l : List Byte) : Nat := l.foldl (fun n b => n * 256 + b.toNat) 0

/-- A number as n bytes, highest first. -/
def natBe (n v : Nat) : List Byte := (natLe n v).reverse

/-- Write bytes from a. -/
def poke (m : List Host.Cell) (a : Nat) : List Byte → List Host.Cell
  | [] => m
  | b :: r => poke (Tab.set blankByte m a b) (a + 1) r

/-- The lines, by number, that n bytes from a touch. -/
def linesOf (a n : Nat) : List Nat := if n == 0 then [] else (List.range ((a + n - 1) / 32 - a / 32 + 1)).map (· + a / 32)

/-- Whether a write of n bytes from a covers line l whole. -/
def coversLine (a n l : Nat) : Bool := a ≤ 32 * l && 32 * l + 32 ≤ a + n

/-- Whether any line of n bytes from a is poisoned. -/
def Dev.anyPoison (d : Dev) (a n : Nat) : Bool := (linesOf a n).any (fun l => Tab.get false d.mem.poisoned l)

/-- Put bytes into memory; lines written whole are no longer poisoned (R420); the lines count as written in this tick. -/
def Dev.memPut (d : Dev) (a : Nat) (l : List Byte) : Dev :=
  { d with mem := { d.mem with
      mem := poke d.mem.mem a l
      poisoned := ((linesOf a l.length).filter (coversLine a l.length)).foldl (fun t k => Tab.set false t k false) d.mem.poisoned
      touched := linesOf a l.length ++ d.mem.touched } }

/-- A record of a memory kind about an address. -/
def Dev.reportMem (d : Dev) (kind sev detail a : Nat) (tid thread : Option Nat) : Dev :=
  d.report { source := 0x040, subsrc := (d.memSource a).getD 0, kind := kind, sev := sev, addr := a,
             tid := tid, thread := thread, detail := detail }

/-- The first line of n bytes from a that is poisoned and that the write covers only in part. -/
def Dev.partialPoison (d : Dev) (a n : Nat) : Option Nat :=
  (linesOf a n).find? (fun l => Tab.get false d.mem.poisoned l && !coversLine a n l)

/-- The part of a write that falls in line k: discarded and logged where it is less than the line and the line is poisoned. -/
def Dev.writePart (d : Dev) (a : Nat) (l : List Byte) (tid thread : Option Nat) (k : Nat) : Dev :=
  let lo := max a (32 * k)
  let part := (l.drop (lo - a)).take (32 * k + 32 - lo)
  if part.length < 32 && Tab.get false d.mem.poisoned k then d.reportMem 0x04 1 1 (32 * k) tid thread else d.memPut lo part

/-- A write by an agent: a write of less than a line to a poisoned line is discarded and logged (R420). -/
def Dev.memWrite (d : Dev) (a : Nat) (l : List Byte) (tid thread : Option Nat) : Dev :=
  match d.partialPoison a l.length with
  | some _ => (linesOf a l.length).foldl (fun d k => d.writePart a l tid thread k) d
  | none => d.memPut a l

/-! The firewall (R421, R422, Table 16.2) -/

/-- Who makes an access. -/
inductive Unit where
  | shoal (s : Nat)
  | headland
  | tenant (t : Nat)
  | cipher
  | swash
  | reef
  | errorLog
deriving DecidableEq, Repr

/-- What an access is. -/
inductive AccessKind where | read | write | fetch
deriving DecidableEq, Repr

/-- The number of an access kind in DETAIL (Table 16.4). -/
def AccessKind.num : AccessKind → Nat
  | .read => 0 | .write => 1 | .fetch => 2

/-- What the firewall answers. -/
inductive FwAnswer where | granted | hole | denied
deriving DecidableEq, Repr

/-- The fixed ranges with their unit (Table 16.2), and Headland's staging range (R439). -/
def fixedRanges : List (Nat × Nat × Unit) :=
  [(0x20540000000, 0x20550000000, .headland), (0x20550000000, 0x20558000000, .cipher), (0x20558000000, 0x205E0000000, .swash),
   (0x205E0000000, 0x20600000000, .reef), (0x20BE0000000, 0x20C00000000, .reef)]

/-- The unit of a fixed range that n bytes from a touch. -/
def fixedOwner (a n : Nat) : Option Unit :=
  (fixedRanges.find? (fun r => a < r.2.1 && r.1 < a + n)).map (·.2.2)

/-- Whether a region lets an access of a kind pass. -/
def FwRegion.allows (r : FwRegion) (k : AccessKind) : Bool :=
  match k with
  | .read => r.read | .write => r.write | .fetch => r.exec

/-- Whether n bytes from a lie wholly within a region. -/
def FwRegion.holds (r : FwRegion) (a n : Nat) : Bool := r.lo ≤ a && a + n ≤ r.hi

/-- The memory firewall (R421): the first step that decides gives the outcome. -/
def Dev.firewall (d : Dev) (u : Unit) (a n : Nat) (k : AccessKind) : FwAnswer :=
  if d.place a == .hole || d.place (a + n - 1) == .hole then .hole
  else match fixedOwner a n with
  | some o => if o == u then .granted else .denied
  | none =>
    match u with
    | .headland => .granted
    | .errorLog => .granted
    | .shoal s =>
      if d.place a == .sram s && d.place (a + n - 1) == .sram s then .granted
      else if d.mem.regions.any (fun r => r.holds a n && r.shoals.testBit s && r.allows k) then .granted
      else .denied
    | .tenant t =>
      if hostWindow t ≤ a && a + n ≤ hostWindow (t + 1) then .granted
      else if d.mem.regions.any (fun r => r.holds a n && r.kind == 1 && r.tid == t && r.allows k) then .granted
      else .denied
    | .cipher | .swash | .reef => .denied

/-- A firewall refusal is logged: FW_HOLE or FW_DENIED (R33, R421, Table 16.8). -/
def Dev.reportFw (d : Dev) (ans : FwAnswer) (source subsrc : Nat) (k : AccessKind) (a : Nat) (tid thread : Option Nat) : Dev :=
  match ans with
  | .granted => d
  | .hole => d.report { source := source, subsrc := subsrc, kind := 0x10, sev := 1, addr := a, tid := tid, thread := thread, detail := k.num }
  | .denied => d.report { source := source, subsrc := subsrc, kind := 0x11, sev := 1, addr := a, tid := tid, thread := thread, detail := k.num }

/-- The region that the register fields of entry k give. -/
def Dev.regionOf (d : Dev) (k : Nat) : FwRegion :=
  { lo := d.inF (Reg.MEM_FW_BASE k) * 0x10000, hi := d.inF (Reg.MEM_FW_LIMIT k) * 0x10000,
    kind := d.inF (Reg.MEM_FW_OWNER_KIND k), tid := d.inF (Reg.MEM_FW_TID k), shoals := d.inF (Reg.MEM_FW_SHOALS k),
    read := d.on (Reg.MEM_FW_READ k), write := d.on (Reg.MEM_FW_WRITE k), exec := d.on (Reg.MEM_FW_EXEC k) }

/-- The valid regions of the register set in force: those with an owner kind. -/
def Dev.regionSet (d : Dev) : List FwRegion :=
  ((List.range 256).map d.regionOf).filter (fun r => r.kind != 0)

/-- The checks of R422: BASE below LIMIT, no fixed range touched, no two regions overlap. -/
def regionsOk : List FwRegion → Bool
  | [] => true
  | r :: t => r.lo < r.hi && (fixedOwner r.lo (r.hi - r.lo)).isNone &&
      t.all (fun q => !(r.lo < q.hi && q.lo < r.hi)) && regionsOk t

/-- FIREWALL_REGION_CHECK (R422): the set is applied whole, or FW_REFUSED sets and nothing changes. -/
def execFirewallRegionCheck (s : State) : Host.Outcome State Fault Refusal :=
  s.run fun d => d.ifDue .fwCheck fun d =>
    if regionsOk d.regionSet then { d with mem := { d.mem with regions := d.regionSet } }
    else (d.raise Reg.MEM_FW_FW_REFUSED).checkRefused (d.asker .fwCheck) 0x900118

/-! From report to ring (R424 to R426) -/

/-- A record as four 64-bit words (Table 16.3). -/
def ErrRec.words (r : ErrRec) : List Nat :=
  [r.time % 2 ^ 64,
   r.source % 4096 * 2 ^ 52 + r.subsrc % 256 * 2 ^ 44 + r.kind % 256 * 2 ^ 36 + r.sev % 4 * 2 ^ 34 +
     (if r.dropped then 2 ^ 32 else 0) + min r.count (2 ^ 32 - 1),
   r.addr % 2 ^ 64,
   (match r.tid with | some t => t % 512 * 2 ^ 55 + 2 ^ 54 | none => 0) +
     (match r.thread with | some t => t % 1024 * 2 ^ 44 + 2 ^ 43 | none => 0) +
     r.detail % 65536 * 2 ^ 16 + r.seq % 65536]

/-- Merge a report into the records of its tick: equal SOURCE and KIND merge, and COUNT holds their number (R424). -/
def mergeReport (l : List ErrRec) (r : ErrRec) : List ErrRec :=
  match l with
  | [] => [r]
  | h :: t => if h.source == r.source && h.kind == r.kind then { h with count := h.count + r.count } :: t
      else h :: mergeReport t r

/-- One record enters the FIFO, or is dropped when there is no room; ERR_LAST and ERR_FIRST take it (R424, R425). -/
def Dev.enterRecord (d : Dev) (r : ErrRec) : Dev :=
  let room := d.log.fifo.length < 256
  let r := if room then { r with seq := d.log.nextSeq, dropped := false } else { r with seq := 0, dropped := true }
  let d := if room then
      { d with log := { d.log with
          fifo := d.log.fifo ++ [r]
          nextSeq := (d.log.nextSeq + 1) % 65536
          recent := (r :: d.log.recent).take 62 } }
    else d.bump Reg.ERR_STATUS_OVERFLOW
  if r.sev == 0 then d
  else
    let d := { d with log := { d.log with last := some r } }
    let d := d.mgmt .err
    if d.bit Reg.ERR_STATUS_FIRST_VALID then d
    else { d with log := { d.log with first := some r } }.raise Reg.ERR_STATUS_FIRST_VALID

/-- The end of a tick: its reports merge and enter (R424). -/
def Dev.collectReports (d : Dev) : Dev :=
  let recs := d.log.reports.foldl mergeReport []
  recs.foldl Dev.enterRecord { d with log := { d.log with reports := [] } }

/-- Whether the DDR ring has room: full when RING_TAIL + 1 = RING_HEAD (R426). -/
def Dev.ringRoom (d : Dev) : Bool := (d.rd Reg.ERR_RING_TAIL + 1) % 65536 != d.inF Reg.ERR_RING_HEAD

/-- Move one record from the FIFO to the DDR ring, if there is one, there is room, and not yet four have moved in this tick (R426). -/
def Dev.ringStep (d : Dev) : Dev :=
  match d.log.fifo with
  | [] => d
  | r :: rest =>
    if d.ringRoom && d.log.moved < 4 then
      let t := d.rd Reg.ERR_RING_TAIL
      let d := { d with log := { d.log with fifo := rest, moved := d.log.moved + 1 } }
      (d.memPut (d.inF Reg.ERR_RING_BASE * 2 ^ 21 + t * 32) (r.words.flatMap (natLe 8))).put Reg.ERR_RING_TAIL (t + 1)
    else d

/-- Up to 4 records of the FIFO move in a tick while ENABLE is 1 (R426). -/
def Dev.ringMoves (d : Dev) : Dev := d.when (d.on Reg.ERR_CTRL_ENABLE) fun d => d.ringStep.ringStep.ringStep.ringStep

/-- ERROR_RING_WRITE (R426). -/
def execErrorRingWrite (s : State) : Host.Outcome State Fault Refusal := s.run Dev.ringMoves

/-! Training, patrol and rank 7 rewrites -/

/-- MEM_TRAIN_GO (R413): Headland starts training once, before release; a later GO is discarded and logged. -/
def Dev.trainGo (d : Dev) (ag : Agent) : Dev :=
  d.byRight ag 0x900008 fun d =>
    if d.mem.training || d.bit Reg.MEM_TRAIN_DONE || d.released then d.discarded ag 0x900008
    else
      let d := { d with mem := { d.mem with training := true } }.commitReset (fun a => a == 0x900000)
      if d.rd Reg.HDL_STATUS_STAGE == 1 then d.put Reg.HDL_STATUS_STAGE 2 else d

/-- MEM_TRAIN_GO. -/
def execMemTrainGo (ag : Agent) (s : State) : Host.Outcome State Fault Refusal :=
  s.run fun d => d.trainGo ag

/-- MEM_TRAIN_DONE (R413): DONE sets, the failed units are named and the installed capacity is reported; a failed DDR
channel in use leaves DDR unusable, and a failed HBM stack stops the start at stage ERROR (Table 17.2). -/
def execMemTrainDone (ddrFail : BitVec 8) (hbmFail : BitVec 2) (ddrBytes : BitVec 42) (s : State) :
    Host.Outcome State Fault Refusal :=
  s.run fun d => d.when d.mem.training fun d =>
    let d := { d with mem := { d.mem with training := false } }
    let bad := ddrFail.toNat % 2 ^ d.ddrChannels != 0
    let d := (((d.put Reg.MEM_TRAIN_DONE 1).put Reg.MEM_TRAIN_DDR_FAIL ddrFail.toNat).put Reg.MEM_TRAIN_HBM_FAIL hbmFail.toNat).put
      Reg.MEM_DDR_BYTES (if bad then 0 else ddrBytes.toNat)
    if hbmFail.toNat != 0 then d.put Reg.HDL_STATUS_STAGE 0x0F
    else if d.rd Reg.HDL_STATUS_STAGE == 2 then d.put Reg.HDL_STATUS_STAGE 3 else d

/-- The patrol scrub of one channel or group: its position moves on by the bursts read, and wraps at the end (R418). -/
def patrolStep (limit n : Nat) (p : Nat) : Nat := if limit == 0 then 0 else (p + n) % limit

/-- The patrol scrub of a slot, once in it (R418): PATROL_BURSTS bursts are read in every DDR channel in use and every HBM group. -/
def Dev.patrol (d : Dev) : Dev :=
  d.when (d.on Reg.MEM_PATROL_EN && d.mem.scrubbed != some (d.clk.tide / slotNs)) fun d =>
    let n := d.inF Reg.MEM_PATROL_BURSTS
    let ddrLimit := d.rd Reg.MEM_DDR_BYTES / 64 / d.ddrChannels
    { d with mem := { d.mem with
        patrolDdr := (List.range d.ddrChannels).foldl (fun t c => Tab.upd 0 t c (patrolStep ddrLimit n)) d.mem.patrolDdr
        patrolHbm := (List.range 16).foldl (fun t g => Tab.upd 0 t g (patrolStep (0x600000000 / 64 / 8) n)) d.mem.patrolHbm
        scrubbed := some (d.clk.tide / slotNs) } }

/-- PATROL_SCRUB (R418). -/
def execPatrolScrub (s : State) : Host.Outcome State Fault Refusal := s.run Dev.patrol

/-- The patrol scrub reads by itself in the first tick of a slot, once memory is trained. -/
def Dev.patrolEnd (d : Dev) : Dev := d.when (d.bit Reg.MEM_TRAIN_DONE) Dev.patrol

/-- A rank 7 rewrite of a line, unless the line was written in this tick (R419, R420). -/
def Dev.rewriteLine (d : Dev) (w : Rewrite) : Dev :=
  if d.mem.touched.contains (w.line / 32) then d
  else
    { d with mem := { d.mem with
        mem := poke d.mem.mem w.line w.data
        poisoned := Tab.set false d.mem.poisoned (w.line / 32) w.poison } }

/-- The rewrites of a tick, at its end. -/
def Dev.rank7 (d : Dev) : Dev :=
  let d := d.mem.rewrites.foldl Dev.rewriteLine d
  { d with mem := { d.mem with rewrites := [], touched := [] } }

/-- A memory source's DONE (R427): it is CLEAR again, unless an uncorrectable or misdirected error of this tick has
escalated it. -/
def Dev.sourceDone (d : Dev) (ag : Agent) (i : Nat) : Dev :=
  d.byRight ag (0x901000 + 8 * i) fun d =>
    if d.mem.escalated.contains i then d
    else d.put (Reg.MEM_SOURCE_HANDLING i) 0

/-- MEM_SOURCE_DONE (R427). -/
def execMemSourceDone (ag : Agent) (source : BitVec 7) (s : State) : Host.Outcome State Fault Refusal :=
  s.run fun d => d.sourceDone ag source.toNat

end Sys2Proof.Machine
end

