-- ==== Sys2Proof/Machine/Rings.lean ====
section
/-! DEFINITION. What goes to the host: MSI-X messages, native and NVMe completions and their rings, and what they need of
a function (R70, R91, R389 to R397, R405). -/

namespace Sys2Proof.Machine

open Sys2Proof

/-- One output of the tick, after the earlier ones. -/
def Dev.emit (d : Dev) (o : Out) : Dev := { d with out := d.out ++ [o] }

/-! Functions -/

/-- The host link of a tenant (R35). -/
def linkOf (tid : Nat) : Nat := tid / 256

/-- Whether a host link is up; and whether it may carry booked work (R382). -/
def Dev.linkUp (d : Dev) (l : Nat) : Bool := d.bit (Reg.HST_LINK_LINK_UP l)
/-- A link that is up and not degraded. -/
def Dev.linkGood (d : Dev) (l : Nat) : Bool := d.linkUp l && !d.bit (Reg.HST_LINK_DEGRADED l)

/-- Whether a function is in an FLR (R399). -/
def Dev.inFlr (d : Dev) (tid : Nat) : Bool := d.bit (Reg.HST_TEN_FLR_ACTIVE tid)

/-- Whether a function may issue requests: Bus Master Enable in force, not in D3hot, no FLR, no TDI error (R396, R397,
R404). -/
def Dev.mayIssue (d : Dev) (tid : Nat) : Bool :=
  d.on (Reg.HST_TEN_BME tid) && !d.bit (Reg.HST_TEN_D3 tid) && !d.on (Reg.HST_TEN_D3 tid) && !d.inFlr tid && d.rd (Reg.HST_TEN_TDI_STATE tid) != 3 &&
    d.linkUp (linkOf tid)

/-- Whether a function may fetch and complete: also no stale queues (R396). -/
def Dev.queuesLive (d : Dev) (tid : Nat) : Bool := d.mayIssue tid && !d.bit (Reg.TEN_STATUS_QUEUES_STALE tid)

/-- A counter of a host link (Table 15.10). -/
def Dev.hostCount (d : Dev) (tid m : Nat) (n : Nat := 1) : Dev := d.bump (Reg.HST_CNT_COUNT (linkOf tid) m) n

/-- The NVMe personality is in force (R333). -/
def Dev.nvmeOn (d : Dev) (tid : Nat) : Bool := d.bit (Reg.STG_FN_PERSONALITY tid)

/-- What a 16-bit word of configuration space holds at reset, where it is writable: Device Control as PCI Express gives it
(PRESUMED), all else zero. -/
def cfgReset (off : Nat) : Nat := if off == 0x48 then 0x2910 else 0

/-- A word of configuration space; MSI-X Enable and Function Mask of a function (Table 15.2). -/
def Dev.cfgWord (d : Dev) (tid off : Nat) : Nat := Tab.get (cfgReset off) d.host.config (tid * 4096 + off)
/-- MSI-X Enable set and Function Mask clear. -/
def Dev.msixOn (d : Dev) (tid : Nat) : Bool := (d.cfgWord tid 0x72).testBit 15 && !(d.cfgWord tid 0x72).testBit 14

/-- Whether a vector may be sent now: the vectors are masked at reset (R400). -/
def Dev.vectorOpen (d : Dev) (tid v : Nat) : Bool :=
  d.mayIssue tid && d.msixOn tid && !Tab.get true d.host.msixMask (tid * 256 + v)

/-- Send an MSI-X message, or hold its pending bit. -/
def Dev.sendMsix (d : Dev) (tid v : Nat) : Dev :=
  if d.vectorOpen tid v then
    { d with host := { d.host with msixPending := Tab.set false d.host.msixPending (tid * 256 + v) false } }.emit (.msix tid v)
  else { d with host := { d.host with msixPending := Tab.set false d.host.msixPending (tid * 256 + v) true } }

/-- Send what is pending of a function once it may be sent; for the steward's management vector, one message stands for all the settings
that have been counted (R405). -/
def Dev.sendPending (d : Dev) (tid : Nat) : Dev :=
  d.each ((List.range 256).filter (fun v => Tab.get false d.host.msixPending (tid * 256 + v))) fun d v =>
    d.when (d.vectorOpen tid v) fun d =>
      (d.sendMsix tid v).when (tid == 0 && v == d.inF Reg.HST_MGMT_VECTOR) fun d => d.put Reg.HST_MGMT_PENDING_EVENTS 0

/-! Native rings (R389 to R391) -/

/-- The key of a ring or queue among TEN_Q registers: QTYPE 0 submission, 1 completion, 2 receive queue. -/
def qKey (qtype n : Nat) : Nat := qtype * 256 + n

/-- Whether a ring is enabled, with ENABLE in force (R11). -/
def Dev.ringOn (d : Dev) (tid k : Nat) : Bool := d.on (Reg.TEN_Q_ENABLE tid k)
/-- The entries of a ring, by the size in force. -/
def Dev.ringSize (d : Dev) (tid k : Nat) : Nat := 2 ^ d.inF (Reg.TEN_Q_SIZE_LOG2 tid k)

/-- A completion ring is full: one entry more would bring TAIL to HEAD. -/
def Dev.ringFull (d : Dev) (tid k : Nat) : Bool :=
  (d.rd (Reg.TEN_Q_TAIL tid k) + 1) % d.ringSize tid k == d.rd (Reg.TEN_Q_HEAD tid k)

/-- Whether the ring stands in its first pass, or any later odd one (R91). -/
def Dev.ringPhase (d : Dev) (tid k : Nat) : Bool := Tab.get true d.host.phase (tid * 1024 + k)

/-- A completion that cannot be written (R390, R396). -/
def Dev.lostCompletion (d : Dev) (tid : Nat) : Dev :=
  (d.bump (Reg.TEN_STATUS_LOST_COMPLETIONS tid)).hostCount tid 0

/-- The bytes of 32-bit words, little-endian. -/
def wordBytes (ws : List Nat) : List Byte := ws.flatMap (natLe 4)

/-- Write a completion into its ring: 32 bytes in one posted write, with PHASE, then MSI-X. -/
def Dev.writeRing (d : Dev) (tid ring : Nat) (words : List Nat) (interrupt : Bool) : Dev :=
  let k := qKey 1 ring
  let t := d.rd (Reg.TEN_Q_TAIL tid k)
  let ph := if d.ringPhase tid k then 1 else 0
  let ws := match words with
    | w :: r => (w / 2 * 2 + ph) :: r
    | [] => []
  let d := d.emit (.hostWrite tid (d.inF (Reg.TEN_Q_QBASE tid k) * 4096 + t * 32) (wordBytes ws))
  let t' := (t + 1) % d.ringSize tid k
  let d := d.put (Reg.TEN_Q_TAIL tid k) t'
  let d := if t' == 0 then
      { d with host := { d.host with phase := Tab.set true d.host.phase (tid * 1024 + k) (!d.ringPhase tid k) } } else d
  if interrupt then d.sendMsix tid (d.inF (Reg.TEN_Q_VECTOR tid k)) else d

/-! Completion words (Table 3.9) -/

/-- The fields of a native completion. -/
structure Compl where
  tag : Nat
  status : Nat
  kind : Nat
  cls : Nat
  flags : Nat
  detail : Nat
  admitted : Nat
  promise : Nat
  delivered : Nat
  bytes : Nat
  tid : Nat
  sqHead : Nat
  aux : Nat
deriving DecidableEq, Repr

/-- The completion's 32-bit words, PHASE 0. Flags stand at their bits in word 1. -/
def Compl.words (c : Compl) : List Nat :=
  [c.tag % 65536 * 2 ^ 16 + c.status % 256 * 256 + c.kind % 16 * 16 + c.cls % 4 * 4,
   c.flags + c.detail % 65536, c.admitted % 2 ^ 32, c.promise % 2 ^ 32, c.delivered % 2 ^ 32, c.bytes % 2 ^ 32,
   c.tid % 512 * 2 ^ 23 + c.sqHead % 65536, c.aux % 2 ^ 32]

/-- The flags of word 1 (Table 3.9). -/
def flagEnvLate : Nat := 2 ^ 16
def flagTagFail : Nat := 2 ^ 17
def flagSlack : Nat := 2 ^ 18
def flagRebased : Nat := 2 ^ 19

/-- The 64-bit words of 32-bit words, two to each. -/
def pairWords : List Nat → List Nat
  | a :: b :: r => (a + b * 2 ^ 32) :: pairWords r
  | [a] => [a]
  | [] => []

/-! NVMe completions (R353, R392) -/

/-- The status field of a completion entry: SCT, SC, DNR (Table 13.6). -/
def nvStatus (sct sc dnr : Nat) : Nat := dnr * 2 ^ 14 + sct * 2 ^ 8 + sc

/-- The NVMe queues of a function. -/
def Dev.nvSq (d : Dev) (tid q : Nat) : NvSq := Tab.get {} d.host.sqs (tid * 65 + q)
def Dev.nvCq (d : Dev) (tid q : Nat) : NvCq := Tab.get {} d.host.cqs (tid * 65 + q)
/-- Put a queue. -/
def Dev.setNvSq (d : Dev) (tid q : Nat) (x : NvSq) : Dev := { d with host := { d.host with sqs := Tab.set {} d.host.sqs (tid * 65 + q) x } }
def Dev.setNvCq (d : Dev) (tid q : Nat) (x : NvCq) : Dev := { d with host := { d.host with cqs := Tab.set {} d.host.cqs (tid * 65 + q) x } }

/-- A completion queue is full. -/
def NvCq.full (c : NvCq) : Bool := (c.tail + 1) % c.size == c.head

/-- The record of the timing ring (R392): written, or dropped and counted when the ring is full. -/
def Dev.timingRecord (d : Dev) (tid : Nat) (words : List Nat) : Dev :=
  if !d.on (Reg.TEN_TRING_EN tid) then d
  else
    let n := 2 ^ d.inF (Reg.TEN_TRING_SIZE_LOG2 tid)
    let t := d.rd (Reg.TEN_TRING_TAIL tid)
    if (t + 1) % n == d.inF (Reg.TEN_TRING_HEAD tid) % n then d.bump (Reg.TEN_TRING_LOST tid)
    else
      let k := 1023
      let ph := if Tab.get true d.host.phase (tid * 1024 + k) then 1 else 0
      let ws := match words with
        | w :: r => (w / 2 * 2 + ph) :: r
        | [] => []
      let d := d.emit (.hostWrite tid (d.inF (Reg.TEN_TRING_BASE tid) * 4096 + t * 16) (wordBytes ws))
      let d := if (t + 1) % n == 0 then
          { d with host := { d.host with phase := Tab.set true d.host.phase (tid * 1024 + k) (ph == 0) } } else d
      d.put (Reg.TEN_TRING_TAIL tid) ((t + 1) % n)

/-- Write an NVMe completion entry, then its timing record, then MSI-X (R393). -/
def Dev.writeNvme (d : Dev) (w : WaitingNvme) : Dev :=
  let q := d.nvSq w.tid w.sq
  let c := d.nvCq w.tid q.cq
  let ws := [w.dw0, 0, q.head % 65536 + w.sq * 65536, w.cid % 65536 + (if c.phase then 65536 else 0) + w.status * 2 ^ 17]
  let d := d.emit (.hostWrite w.tid (c.base + c.tail * 16) (wordBytes ws))
  let t' := (c.tail + 1) % c.size
  let d := d.setNvCq w.tid q.cq { c with tail := t', phase := if t' == 0 then !c.phase else c.phase }
  let d := match w.timing with
    | some ws => d.timingRecord w.tid ws
    | none => d
  if c.ien then d.sendMsix w.tid c.vector else d

/-- Whether an NVMe completion can be posted now. -/
def Dev.nvmeRoom (d : Dev) (tid sq : Nat) : Bool := !(d.nvCq tid (d.nvSq tid sq).cq).full

end Sys2Proof.Machine
end

