-- ==== Sys2Proof/Machine/Calendar.lean ====
section
/-! DEFINITION. Resources: capacities, the demand of an operation by stages, instances, standing amounts, and the room
of a slot (chapters 03 and 04). -/

namespace Sys2Proof.Machine

open Sys2Proof

def ceilDiv (a b : Nat) : Nat := (a + b - 1) / b

/-! Ports (Table 9.1) -/

/-- Lanes per port, by the lane mode in force. -/
def Dev.lanes (d : Dev) : Nat :=
  match d.rd Reg.MAC_LANE_MODE_MODE_IN_FORCE with
  | 0 => 8 | 1 => 4 | 2 => 2 | _ => 1

/-- Whether a port is active in the mode in force. -/
def Dev.portActive (d : Dev) (p : Nat) : Bool := p < 16 && p % d.lanes == 0

/-- Whether a port is UP (Table 9.2); a port that is not active counts as down (R234). -/
def Dev.portUp (d : Dev) (p : Nat) : Bool := d.portActive p && d.rd (Reg.MAC_STATUS_LINK_STATE p) == 3

/-- Bytes of a port per ns, and wire bytes per slot of 511 clocks (Table 4.1). -/
def Dev.portBytesPerNs (d : Dev) : Nat := 25 * d.lanes
/-- The MAC capacity of a port. -/
def Dev.portCap (d : Dev) : Nat :=
  match d.lanes with
  | 8 => 51100 | 4 => 25550 | 2 => 12775 | _ => 6387

/-! Capacities (Table 4.1, R106, R153) -/

/-- The settings under which a slot entered the horizon. -/
def Dev.eraAt (d : Dev) (slot : Nat) : CapEra := (d.cal.caps.find? (fun e => e.start ≤ slot)).getD {}

/-- BOOKED_THREADS as a slot has it. -/
def Dev.threadsAt (d : Dev) (slot : Nat) : Nat := min 64 (d.eraAt slot).threads

/-- Whether a shoal drains in a slot. -/
def Dev.drainedAt (d : Dev) (s slot : Nat) : Bool := (d.eraAt slot).drain.contains s

/-- The capacity of a resource in a slot. -/
def Dev.capacity (d : Dev) (r : Res) (slot : Nat) : Nat :=
  match r.kind with
  | 1 => 30720
  | 2 => 8192
  | 3 => 76
  | 4 => if r.inst < 16 then d.portCap else 3193
  | 5 => d.portCap
  | 6 => 598 - (d.eraAt slot).reef
  | 7 => 160 * d.ddrRate / 6400
  | 8 => if d.drainedAt r.inst slot then 0 else d.threadsAt slot * 31
  | _ => 0

/-- The unit of a resource as CAL_CAPACITY shows it. -/
def resUnit (kind : Nat) : Nat :=
  if kind == 2 || kind == 6 || kind == 7 then 1 else if kind == 3 then 2 else if kind == 8 then 3 else 0

/-- The refusal detail of a resource (Table 3.6). -/
def Res.detail (r : Res) : Nat := r.kind * 256 + r.inst

/-! Demand (Table 4.1, R501) -/

/-- A need, unless it is nothing. -/
def need (r : Res) (n : Nat) : List Need := if n == 0 then [] else [⟨r, n⟩]

def up64 (n : Nat) : Nat := ceilDiv n 64 * 64
/-- Bytes moved over a host link: rounded up to 64, plus 64 per started 4 KiB. -/
def hostBytes (n : Nat) : Nat := up64 n + 64 * ceilDiv n 4096

/-- A read of n bytes of host memory on a link: the data inbound, the requests outbound. -/
def hostReadNeeds (l n : Nat) : List Need := need ⟨1, l, true⟩ (hostBytes n) ++ need ⟨1, l, false⟩ (32 * ceilDiv n 4096)

/-- Bursts of the n bytes from offset a that fall to unit u of N, with 256 bytes to a unit in turn. -/
def interleaved (a n N u : Nat) : Nat :=
  if n == 0 then 0
  else
    let l0 := a / 256
    let l1 := (a + n - 1) / 256
    let upto (x : Nat) := (x + N - 1 - u) / N
    (upto (l1 + 1) - upto l0) * 4 - (if l0 % N == u then a % 256 / 64 else 0) -
      (if l1 % N == u then 3 - (a + n - 1) % 256 / 64 else 0)

/-- The needs of a transfer in DDR or HBM at an internal address, for each channel or group it touches (R104). -/
def Dev.memNeeds (d : Dev) (a n : Nat) : List Need :=
  match d.place a with
  | .ddr => (List.range d.ddrChannels).flatMap fun c => need ⟨7, c, false⟩ (interleaved a n d.ddrChannels c)
  | .hbm => (List.range 8).flatMap fun g =>
      need ⟨6, hbmStack a * 8 + g, false⟩ (interleaved (hbmOffset a) n 8 g)
  | .sram _ | .packet | .control _ | .host _ _ | .hole => []

/-- The link over which an operation reaches an address, if it does: its own, or with DEV_MEM that of a host window. -/
def Dev.hostLinkOf (d : Dev) (tid : Nat) (devMem : Bool) (a : Nat) : Option Nat :=
  if devMem then
    match d.place a with
    | .host t _ => some (linkOf t)
    | .ddr | .hbm | .sram _ | .packet | .control _ | .hole => none
  else some (linkOf tid)

/-- A read of n bytes at a buffer's address: host link, DDR or HBM. -/
def Dev.readNeeds (d : Dev) (tid : Nat) (devMem : Bool) (a n : Nat) : List Need :=
  match d.hostLinkOf tid devMem a with
  | some l => hostReadNeeds l n
  | none => d.memNeeds a n

/-- A write of n bytes at a buffer's address. -/
def Dev.writeNeeds (d : Dev) (tid : Nat) (devMem : Bool) (a n : Nat) : List Need :=
  match d.hostLinkOf tid devMem a with
  | some l => need ⟨1, l, false⟩ (hostBytes n)
  | none => d.memNeeds a n

/-- Add equal resources of a stage together. -/
def addNeed (l : List Need) (x : Need) : List Need :=
  match l with
  | [] => [x]
  | y :: r => if y.res = x.res then ⟨y.res, y.amt + x.amt⟩ :: r else y :: addNeed r x

/-- The needs of a stage, one for each resource. -/
def mergeNeeds (l : List Need) : List Need := l.foldl addNeed []

/-- A stage that reads: with the wait HOST_READ_BOUND where it uses a host link. -/
def Dev.readStage (d : Dev) (no : Nat) (needs : List Need) : Stage :=
  ⟨no, mergeNeeds needs, if needs.any (fun x => x.res.kind == 1) then d.inF Reg.BWK_ENV_HOST_READ_BOUND else 0⟩

/-! Operations' stages (Table 3.4) -/

/-- The length of a TX frame as sent: at least 64 bytes (R240), and 28 more when it is sealed (R365). -/
def txFrameLen (x : Desc) : Nat := max 64 (x.length.toNat + if x.cipher then 28 else 0)

/-- Frames of given lengths on a port: pipeline pass and packet-buffer write pass. -/
def Dev.pipeNeeds (d : Dev) (port sel : Nat) (frames : List Nat) (cipher : Bool) : List Need :=
  need ⟨3, port + sel % d.lanes, false⟩ frames.length ++ need ⟨2, 0, false⟩ (frames.map (ceilDiv · 64)).sum ++
    (if cipher then need ⟨4, port, false⟩ frames.sum else [])

/-- Frames on the wire: MAC port and packet-buffer read pass. -/
def wireNeeds (port : Nat) (frames : List Nat) : List Need :=
  need ⟨5, port, false⟩ (frames.map (· + 20)).sum ++ need ⟨2, 0, false⟩ (frames.map (ceilDiv · 64)).sum

/-- The host link's outbound share of a completion to a tenant's ring. -/
def complNeeds (q : Req) (interrupt : Bool) : List Need :=
  match q.org with
  | .ring _ _ | .nvme _ _ => need ⟨1, linkOf q.tid, false⟩ (64 + if interrupt then 64 else 0)
  | .book _ _ _ | .sub _ _ _ | .wire _ => []

/-- The payload of a connection's packets in bytes, and a template's header length (R308, Table 12.8). -/
def Dev.pmtu (d : Dev) (c : Nat) : Nat := 1024 * 2 ^ d.inF (Reg.SWH_C_PMTU c)
def Dev.hdrLen (d : Dev) (c : Nat) : Nat := d.inF (Reg.SWH_TMPL_W (d.inF (Reg.SWH_C_TEMPLATE c)) 15) / 2 ^ 56

/-- The frame length of a packet with a payload. -/
def Dev.packetLen (d : Dev) (c payload : Nat) (cipher : Bool) : Nat :=
  d.hdrLen c + 48 + payload + 4 + if cipher then 24 else 0

/-- The payloads into which a message is cut (R311). -/
def pieces (n m : Nat) : List Nat :=
  List.replicate (n / m) m ++ (if n % m == 0 then [] else [n % m])

/-- The frames of a message of n bytes on a connection. -/
def Dev.msgFrames (d : Dev) (c n : Nat) (cipher : Bool) : List Nat :=
  (pieces n (d.pmtu c)).map (d.packetLen c · cipher)

/-- The shoal work of a TX frame whose copy goes to a shoal (R25, R102, R104): its descriptor asks for a mirror, and its tenant's session
delivers to a channel of a thread. -/
def Dev.copyNeeds (d : Dev) (q : Req) : List Need :=
  let m := d.inF (Reg.PRS_TX_TX_SESSION q.tid)
  let c := d.chanConsumer (d.inF (Reg.PRS_MIRROR_TARGET m) % 8192)
  if q.desc.mirror && d.on (Reg.PRS_TX_TX_MIRROR_EN q.tid) && d.on (Reg.PRS_MIRROR_ENABLE m) && d.inF (Reg.PRS_MIRROR_DEST_KIND m) == 2 &&
      isThreadEnd c then need ⟨8, c / 64, false⟩ (d.inF Reg.CAL_SHOAL_COPY_COST) else []

/-- Stages of TX. -/
def Dev.planTx (d : Dev) (q : Req) : List Stage :=
  let x := q.desc
  let port := x.target.toNat % 16
  let n := x.length.toNat - 4
  let src := d.readNeeds q.tid x.devMem x.addr0.toNat n
  let host := src.filter (fun y => y.res.kind == 1)
  let frames := [txFrameLen x]
  [d.readStage 1 host,
   ⟨2, mergeNeeds (d.pipeNeeds port q.tid frames x.cipher ++ src.filter (fun y => y.res.kind == 6) ++ d.copyNeeds q), 0⟩,
   ⟨3, mergeNeeds (wireNeeds port frames), 0⟩]

/-- Stages of SWW. -/
def Dev.planSww (d : Dev) (q : Req) : List Stage :=
  let x := q.desc
  let c := x.target.toNat % 2 ^ 20
  let port := d.inF (Reg.SWH_C_PORT c)
  let frames := d.msgFrames c x.length.toNat x.cipher
  [d.readStage 1 (d.readNeeds q.tid x.devMem x.addr0.toNat x.length.toNat),
   ⟨2, mergeNeeds (d.pipeNeeds port c frames x.cipher), 0⟩, ⟨3, mergeNeeds (wireNeeds port frames), 0⟩]

/-- Stages of SWR. -/
def Dev.planSwr (d : Dev) (q : Req) : List Stage :=
  let x := q.desc
  let c := x.target.toNat % 2 ^ 20
  let port := d.inF (Reg.SWH_C_PORT c)
  let frames := [d.packetLen c 0 x.cipher]
  [⟨1, mergeNeeds (d.pipeNeeds port c frames x.cipher), 0⟩, ⟨2, mergeNeeds (wireNeeds port frames), 0⟩]

/-- The index of a tenant's namespace among STG_NS registers. -/
def nsKey (tid ns : Nat) : Nat := tid * 32 + (ns - 1)

/-- The namespace of a request: for a Flush of every namespace the lowest one enabled. -/
def Dev.reqNs (d : Dev) (q : Req) : Nat :=
  let n := q.desc.target.toNat % 256
  if n == 0xFF && q.code == 0 then
    ((List.range 32).find? (fun i => d.on (Reg.STG_NS_ENABLE (nsKey q.tid (i + 1))))).elim 0 (· + 1)
  else n

/-- TIMEOUT_MS of a backend in ns. -/
def Dev.backendTimeout (d : Dev) (b : Nat) : Nat := max 1 (min 10000 (d.inF (Reg.STG_BE_TIMEOUT_MS b))) * 1000000

/-- A request takes HOST_READ_BOUND, and a storage command its namespace's backend, that backend's declared bound and timeout, STRICT and SIZE_LBAS,
as it is sampled: later changes apply to later requests (R13, R338, R354). -/
def Dev.withBackend (d : Dev) (q : Req) : Req :=
  let q := { q with readBound := d.inF Reg.BWK_ENV_HOST_READ_BOUND }
  if q.kind != 6 then q
  else
    let k := nsKey q.tid (d.reqNs q)
    let b := d.inF (Reg.STG_NS_BACKEND k)
    { q with backend := b, bound := d.inF (Reg.STG_BE_BOUND_NS b), strict := d.on (Reg.STG_NS_STRICT k), timeout := d.backendTimeout b
             lbas := d.inF (Reg.STG_NS_SIZE_LBAS k) }

/-- Whether an NVMe opcode moves data from the host. -/
def stReads (code : Nat) : Bool := code == 1 || code == 9

/-- The bytes of data a storage command moves: for Write and Read its length. -/
def stData (q : Req) : Nat := if q.code == 1 || q.code == 2 then q.desc.length.toNat else 0

/-- The bytes a storage command reads from its submitter. -/
def stIn (q : Req) : Nat := if stReads q.code then q.desc.length.toNat else 0
/-- The bytes it writes to it. -/
def stOut (q : Req) : Nat := if q.code == 2 then q.desc.length.toNat else 0

/-- The cipher share of a namespace's data: XTS and GCM run on a look-aside engine of the serving shoal, in segments
of 65,536 bytes (R361). -/
def Dev.stCipher (d : Dev) (k n : Nat) : List Need :=
  let m := d.inF (Reg.STG_NS_CIPHER k)
  if (m == 1 || m == 2) && n != 0 then need ⟨4, 0x10 + 2 * d.inF (Reg.STG_NS_SHOAL k), false⟩ (n + 64 * ceilDiv n 65536) else []

/-- Whether an MSI-X message goes with a request's completion: INTERRUPT, or an NVMe queue with interrupts enabled. -/
def Dev.wantsInterrupt (d : Dev) (q : Req) : Bool :=
  match q.org with
  | .nvme sq _ => (d.nvCq q.tid (d.nvSq q.tid sq).cq).ien
  | .ring _ _ | .book _ _ _ | .sub _ _ _ | .wire _ => q.desc.interrupt

/-- Put a wait after the last stage of a list that books anything (R81). -/
def waitAfterLast (w : Nat) (l : List Stage) : List Stage :=
  match l.reverse.span (fun s => s.needs.isEmpty) with
  | (_, []) => l
  | (e, s :: r) => (e ++ { s with wait := w } :: r).reverse

/-- Stages of ST: data in device memory are moved in stage 3, with the staging memory of a local backend (Table 3.4). -/
def Dev.planSt (d : Dev) (q : Req) : List Stage :=
  let x := q.desc
  let k := nsKey q.tid (d.reqNs q)
  let b := q.backend
  let shoal : Res := ⟨8, d.inF (Reg.STG_NS_SHOAL k), false⟩
  let data := stData q
  let moved := (if stIn q == 0 then [] else d.readNeeds q.tid x.devMem x.addr0.toNat (stIn q)) ++
    (if stOut q == 0 then [] else d.writeNeeds q.tid x.devMem x.addr0.toNat (stOut q))
  let host := moved.filter (fun y => y.res.kind == 1)
  let mem := moved.filter (fun y => y.res.kind != 1)
  let front1 := d.readStage 1 (if stIn q == 0 then [] else host)
  let front2 : Stage := ⟨2, need shoal (d.inF Reg.CAL_SHOAL_ST_FRONT_COST), 0⟩
  let back : List Stage :=
    [⟨5, need shoal (d.inF Reg.CAL_SHOAL_ST_BACK_COST), 0⟩,
     ⟨6, mergeNeeds ((if stOut q == 0 then [] else host) ++ complNeeds q (d.wantsInterrupt q)), 0⟩]
  let front : List Stage :=
    if q.code == 0 then [front1, front2]
    else if d.on (Reg.STG_BE_KIND b) then
      let c := d.inF (Reg.STG_BE_CONN b)
      let port := d.inF (Reg.SWH_C_PORT c)
      let sealed := d.on (Reg.SWH_C_TX_KEY_EN c)
      let frames := d.msgFrames c (if q.code == 1 then data else 0) sealed ++ [d.packetLen c 32 sealed]
      [front1, front2, ⟨3, mergeNeeds (d.pipeNeeds port c frames sealed ++ d.stCipher k data ++ mem), 0⟩,
       ⟨4, mergeNeeds (wireNeeds port frames), 0⟩]
    else
      let base := if d.on (Reg.STG_NS_STAGE_MEM k) then 0x20000000000 else 0
      [front1, front2, ⟨3, mergeNeeds (d.stCipher k data ++ d.memNeeds base data ++ mem), 0⟩]
  waitAfterLast q.bound front ++ back

/-- The queue of a tenant's native cipher requests, if it has one (R358). -/
def Dev.cipherQueue (d : Dev) (tid : Nat) : Option Nat :=
  let tq := d.inF (Reg.CRY_TENANT_TQ tid)
  if d.on (Reg.CRY_TENANT_TQ_VALID tid) && 16 ≤ tq % 32 then some tq else none

/-- The tag or digest bytes of a mode (Table 14.1, Table 14.2). -/
def tagBytes (mode : Nat) : Nat :=
  match mode with
  | 2 => 0
  | 4 => 32 | 5 => 48 | 6 => 64 | 7 => 32 | 8 => 48 | 9 => 64
  | _ => 16

/-- The bytes a cipher operation writes: data for encrypt and decrypt, tag or digest for encrypt and generate. -/
def Dev.cyOut (d : Dev) (q : Req) : Nat :=
  (if q.code < 2 then q.desc.length.toNat else 0) +
    (if q.code == 0 || q.code == 2 then tagBytes (d.inF (Reg.CRY_SLOT_MODE q.desc.keySlot.toNat)) else 0)

/-- Stages of CY. -/
def Dev.planCy (d : Dev) (q : Req) : List Stage :=
  let x := q.desc
  let n := x.length.toNat
  let eng := (d.cipherQueue q.tid).getD 0 / 32
  let out := d.writeNeeds q.tid x.devMem (if q.code < 2 then x.addr1.toNat else x.addr2.toNat) (d.cyOut q)
  [d.readStage 1 (d.readNeeds q.tid x.devMem x.addr0.toNat (n + 128)),
   ⟨2, need ⟨4, 0x10 + eng, false⟩ (n + 64 * ceilDiv n 65536), 0⟩,
   ⟨3, mergeNeeds (out ++ complNeeds q x.interrupt), 0⟩]

/-- The stages of an operation (Table 3.4), by contract kind. -/
def Dev.planOf (d : Dev) (q : Req) : List Stage :=
  match q.kind with
  | 1 => d.planTx q
  | 3 => d.planSww q
  | 5 => d.planSwr q
  | 6 => d.planSt q
  | 7 => d.planCy q
  | _ => []

/-- The packet-buffer bytes of an operation rounded up to 256 (R105): the cells of its write pass. -/
def Dev.spaceOf (d : Dev) (q : Req) : Nat :=
  match q.kind with
  | 1 => ceilDiv (txFrameLen q.desc) 256 * 256
  | 3 => ceilDiv (d.msgFrames (q.desc.target.toNat % 2 ^ 20) q.desc.length.toNat q.desc.cipher).sum 256 * 256
  | 5 => ceilDiv (d.packetLen (q.desc.target.toNat % 2 ^ 20) 0 q.desc.cipher) 256 * 256
  | 6 =>
    let b := q.backend
    if q.code != 0 && d.on (Reg.STG_BE_KIND b) then
      let c := d.inF (Reg.STG_BE_CONN b)
      let sealed := d.on (Reg.SWH_C_TX_KEY_EN c)
      ceilDiv ((d.msgFrames c (if q.code == 1 then stData q else 0) sealed).sum + d.packetLen c 32 sealed) 256 * 256
    else 0
  | _ => 0

/-! Standing amounts (R117, R123, R306, R367) -/

/-- Bytes per slot of a rate in 1/256 byte, rounded up, and the most frames it can take (R123). -/
def cirBytes (cir : Nat) : Nat := ceilDiv cir 256

/-- The outbound amount of receive traffic on a host link (Table 4.6). -/
def rxHostBytes (bytes : Nat) : Nat := bytes + 192 * ceilDiv bytes 64 + 64 * ceilDiv bytes 4096

/-- The standing amounts of a policer per slot (Table 4.6, R367). -/
def Dev.policerNeeds (d : Dev) (p : Policer) : List Need :=
  let b := cirBytes p.cir
  let f := ceilDiv b 64
  need ⟨5, p.port, true⟩ (b + 20 * f) ++
    (List.range d.lanes).flatMap (fun j => need ⟨3, p.port + j, false⟩ (ceilDiv f d.lanes)) ++
    need ⟨2, 0, false⟩ (2 * f) ++ need ⟨1, linkOf p.tid, false⟩ (rxHostBytes b) ++
    (if p.inline then need ⟨4, p.port, false⟩ b else [])

/-- The standing amounts of a connection's placements (Table 12.2). -/
def Dev.placeNeeds (d : Dev) (c : Nat) : List Need :=
  let b := d.inF (Reg.SWH_C_PLACE_BYTES c)
  let f := ceilDiv b 64
  let port := d.inF (Reg.SWH_C_PORT c)
  let dev := d.inF (Reg.SWH_C_PLACE_DEV c)
  (List.range d.lanes).flatMap (fun j => need ⟨3, port + j, false⟩ (ceilDiv f d.lanes)) ++ need ⟨2, 0, false⟩ (2 * f) ++
    (if d.on (Reg.SWH_C_RX_KEY_EN c) then need ⟨4, port, false⟩ b else []) ++
    (if dev == 1 then (List.range 16).flatMap (fun g => need ⟨6, g, false⟩ f)
     else if dev == 2 then (List.range d.ddrChannels).flatMap (fun g => need ⟨7, g, false⟩ f)
     else need ⟨1, linkOf (d.inF (Reg.SWH_C_TID c)), false⟩ (rxHostBytes b))

/-- The connections that hold placement amounts: those whose PLACE_ACTIVE field is listed as set. -/
def Dev.placed (d : Dev) : List Nat :=
  (d.regs.cur.filter (fun p => p.1 % 2 ^ 54 == (Reg.SWH_C_PLACE_ACTIVE 0).key % 2 ^ 54 && p.2 == 1)).map
    (fun p => p.1 / 64 / bankStep)

/-- The standing amount of a resource in every slot, by class. -/
def Dev.standing (d : Dev) (r : Res) (cls : Nat) : Nat :=
  let pol := (d.cal.policers.filter (fun p => p.2.active && p.2.cls == cls)).map (fun p => d.policerNeeds p.2)
  let pl := (d.placed.filter (fun c => d.inF (Reg.SWH_C_PLACE_CLASS c) == cls)).map d.placeNeeds
  (((pol ++ pl).flatten.filter (fun x => x.res = r)).map (·.amt)).sum

/-! Gate lists (R116, R117) -/

/-- The fields of a gate entry (Table 4.4). -/
def gateExclusive (w : Nat) : Bool := w.testBit 63
def gateOpen (w : Nat) : Nat := bits w 47 32
def gateNs (w : Nat) : Nat := bits w 31 0

/-- The cycle of a gate list. -/
def GateList.cycle (g : GateList) : Nat := (g.entries.map gateNs).sum

/-- The entry at a position in a cycle. -/
def gateAt : List Nat → Nat → Option Nat
  | [], _ => none
  | w :: r, x => if x < gateNs w then some w else gateAt r (x - gateNs w)

/-- The entry of a gate list that governs at a Tide time; none where every gate is open (R116). -/
def GateList.at_ (g : GateList) (t : Nat) : Option Nat :=
  if t < g.base || g.cycle == 0 then none else gateAt g.entries ((t - g.base) % g.cycle)

/-- The gates of a port at a Tide time under a list, and whether it is an exclusive window. -/
def gateState (g : Option GateList) (t : Nat) : Nat × Bool :=
  match g with
  | none => (0xFFFF, false)
  | some g => match g.at_ t with
    | none => (0xFFFF, false)
    | some w => (gateOpen w, gateExclusive w)

/-- The time of exclusive windows within n ticks from t, in ns: gate transitions fall on tick boundaries. -/
def exclusiveNs (g : GateList) (t : Nat) : Nat → Nat
  | 0 => 0
  | n + 1 => (match g.at_ t with
      | some w => if gateExclusive w then 8 else 0
      | none => 0) + exclusiveNs g (t + 8) n

/-- Tide time as the calendars have it: in a step tick, with the step (R119). -/
def Dev.calTide (d : Dev) : Nat := ((d.clk.tide : Int) + d.clk.stepAdd).toNat

/-- The Tide time at which a slot begins, by the time mapping now in force. -/
def Dev.slotStart (d : Dev) (slot : Nat) : Nat := (d.calTide / 256 + slot - d.clk.slotSeq) * 256

/-- The gate list that governs a port at a Tide time to come: the pending one from the next epoch boundary on (R118). -/
def Dev.gateListOn (d : Dev) (port t : Nat) : Option GateList :=
  match Tab.get none d.cal.pend port with
  | some g => if (d.calTide / epochNs + 1) * epochNs ≤ t then some g else Tab.get none d.cal.oper port
  | none => Tab.get none d.cal.oper port

/-- The gate list that a slot stands under. -/
def Dev.gateListAt (d : Dev) (port slot : Nat) : Option GateList := d.gateListOn port (d.slotStart slot)

/-- The standing gate amount of a resource in a slot: the wire bytes of exclusive windows on a MAC transmit side (R117). -/
def Dev.gateStanding (d : Dev) (r : Res) (slot : Nat) : Nat :=
  if r.kind == 5 && !r.rx then
    match d.gateListAt r.inst slot with
    | some g => exclusiveNs g (d.slotStart slot) 32 * d.portBytesPerNs
    | none => 0
  else 0

/-! Room (R74, R82) -/

/-- What operations of a class hold of a resource in a slot. -/
def Adm.held (a : Adm) (r : Res) (slot cls : Nat) : Nat :=
  ((a.entries.filter (fun e => e.cls == cls)).map
    (fun e => ((e.holds.filter (fun h => h.res = r && h.slot == slot)).map (·.amt)).sum)).sum

/-- The booked figure of a class in a calendar entry (R100). -/
def Dev.booked (d : Dev) (r : Res) (slot cls : Nat) : Nat := d.adm.held r slot cls + d.standing r cls

/-- F_EFF and the headroom of a class (R93). -/
def Dev.fEff (d : Dev) : Nat := d.rd Reg.BWK_GOV_STATUS_F_EFF
/-- H_EFF of a class in slots. -/
def Dev.hEff (d : Dev) (cls : Nat) : Nat :=
  match cls with
  | 0 => d.rd Reg.BWK_GOV_STATUS_H_SPRING_EFF
  | 1 => d.rd Reg.BWK_GOV_STATUS_H_FLOOD_EFF
  | _ => d.rd Reg.BWK_GOV_STATUS_H_NEAP_EFF

/-- room() of R82 over the figures of one calendar entry. -/
def roomOf (cap f sp fl np gate cls : Nat) : Nat :=
  let all : Int := (f * cap / 256 : Nat) - (sp + fl + np + gate : Nat)
  let sf : Int := (153 * cap / 256 : Nat) - (sp + fl : Nat)
  let s : Int := (64 * cap / 256 : Nat) - (sp : Nat)
  match cls with
  | 2 => all.toNat
  | 1 => (min all sf).toNat
  | _ => (min all (min sf s)).toNat

/-- room() of R82: what a class may still take of a resource in a slot. -/
def Dev.room (d : Dev) (r : Res) (slot cls : Nat) : Nat :=
  roomOf (d.capacity r slot) d.fEff (d.booked r slot 0) (d.booked r slot 1) (d.booked r slot 2) (d.gateStanding r slot) cls

end Sys2Proof.Machine
end

