-- ==== Sys2Proof/Machine/Admission.lean ====
section
/-! DEFINITION. The admission test and what it decides: checks, search, bookings, tokens, releases, and the order of
decisions (chapter 03). -/

namespace Sys2Proof.Machine

open Sys2Proof

/-! Checks of a request before the search (R82) -/

/-- Whether the device is in breakwater lost (R139). -/
def Dev.lost (d : Dev) : Bool := d.bit Reg.DEV_STATUS_BREAKWATER_LOST

/-- The active unit, if there is one (Table 5.1). -/
def Dev.activeUnit (d : Dev) : Option Nat := [0, 1].find? (fun u => d.rd (Reg.BWK_UNIT_STATUS_STATE u) == 5)

/-- The peer of a unit. -/
def peerOf (u : Nat) : Nat := 1 - u

/-- Whether admissions are held for a forced step: ADMIT_HOLD, and the step tick itself (R52). -/
def Dev.admitHeld (d : Dev) : Bool := d.bit Reg.TIDE_STATUS_ADMIT_HOLD || d.clk.stepTick

/-- Whether frames and messages are admitted by rate now: a unit decides, and admissions are not held (R52, R139). -/
def Dev.ratesOpen (d : Dev) : Bool := d.activeUnit.isSome && !d.lost && !d.admitHeld && !d.bit Reg.HDL_STATUS_HOLDUP_STOP

/-- Whether a request comes from a shoal thread. -/
def Req.byThread (q : Req) : Bool :=
  match q.org with
  | .book _ _ _ | .sub _ _ _ => true
  | .ring _ _ | .nvme _ _ | .wire _ => false

/-- Whether a request's operation reads host memory. -/
def Dev.readsHost (d : Dev) (q : Req) : Bool :=
  (d.planOf q).any (fun s => s.needs.any (fun x => x.res.kind == 1 && x.res.rx))

/-- The owner rule and use of a key slot (R370); toSeal says the direction. -/
def Dev.slotServes (d : Dev) (k : Nat) (modes : List Nat) (toSeal anyWay : Bool) (q : Req) : Bool :=
  let st := d.rd (Reg.CRY_SLOT_STATE k)
  let use := if d.inF (Reg.CRY_SLOT_USE k) == 0 then 3 else d.inF (Reg.CRY_SLOT_USE k)
  (st == 1 || st == 3) && modes.contains (d.inF (Reg.CRY_SLOT_MODE k)) &&
    (anyWay || (if toSeal then use != 2 else use != 1)) &&
    (if d.on (Reg.CRY_SLOT_OWNER_KIND k) then q.byThread else q.byThread || d.inF (Reg.CRY_SLOT_OWNER k) == q.tid)

/-- The key slot a request names, if it names one, and whether it may (R365, R370, R304, R346). -/
def Dev.namedSlot (d : Dev) (q : Req) : Option (Nat × Bool) :=
  let x := q.desc
  match q.kind with
  | 1 => if x.cipher then some (x.keySlot.toNat, d.slotServes x.keySlot.toNat [0] true false q) else none
  | 3 => if x.cipher then some (x.keySlot.toNat, d.slotServes x.keySlot.toNat [0] true false q) else none
  | 5 => if x.cipher then some (x.keySlot.toNat, d.slotServes x.keySlot.toNat [0] false false q) else none
  | 6 =>
    let k := nsKey q.tid (d.reqNs q)
    let m := d.inF (Reg.STG_NS_CIPHER k)
    let s := d.inF (Reg.STG_NS_KEY_SLOT k)
    if (m == 1 || m == 2) && stData q != 0 then
      some (s, d.slotServes s [if m == 1 then 2 else 0] (q.code == 1) (m == 1) q) else none
  | 7 =>
    let m := d.inF (Reg.CRY_SLOT_MODE x.keySlot.toNat)
    let modes := match q.code with
      | 0 | 1 => [0, 2]
      | 2 => [1, 3, 4, 5, 6, 7, 8, 9]
      | _ => [1, 3]
    some (x.keySlot.toNat, d.slotServes x.keySlot.toNat modes (q.code == 0 || q.code == 2) (m == 2 || 4 ≤ m) q)
  | _ => none

/-- The checks of a Swash descriptor that make it malformed (R304). A FAILED connection is an environment failure. -/
def Dev.swashForm (d : Dev) (q : Req) : Bool :=
  let x := q.desc
  let c := x.target.toNat % 2 ^ 20
  let st := d.rd (Reg.SWH_C_STATE c)
  let slot := if q.kind == 3 then Reg.SWH_C_TX_KEY_SLOT c else Reg.SWH_C_RX_KEY_SLOT c
  let en := if q.kind == 3 then Reg.SWH_C_TX_KEY_EN c else Reg.SWH_C_RX_KEY_EN c
  x.target.toNat < 2 ^ 20 && (st == 2 || st == 4) && d.inF (Reg.SWH_C_TID c) == q.tid &&
    0 < x.length.toNat && x.length.toNat ≤ 16777216 &&
    (!x.cipher || (x.keySlot.toNat == d.inF slot && d.on en))

/-- The bytes of a namespace's logical block. -/
def Dev.lbaBytes (d : Dev) (k : Nat) : Nat := if d.on (Reg.STG_NS_LBA_4K k) then 4096 else 512

/-- Whether a storage command's namespace is enabled, and whether its blocks lie in it (R338). The ranges of a Dataset Management stand in
memory, and are tested once they have been read (Dev.rangesOk). -/
def Dev.nsOk (d : Dev) (q : Req) : Bool :=
  1 ≤ d.reqNs q && d.reqNs q ≤ 32 && d.on (Reg.STG_NS_ENABLE (nsKey q.tid (d.reqNs q)))
def Dev.lbasOk (d : Dev) (q : Req) : Bool :=
  let k := nsKey q.tid (d.reqNs q)
  q.code == 0 || q.code == 9 ||
    q.desc.addr1.toNat + q.desc.length.toNat / d.lbaBytes k ≤ d.inF (Reg.STG_NS_SIZE_LBAS k)

/-- The checks of a storage command (R337, R338): namespace, blocks, and length, which is a multiple of the LBA size, of Dataset Management
one of 16 bytes, and at most 2 MiB. A Flush alone may have none. -/
def Dev.storageForm (d : Dev) (q : Req) : Bool :=
  let n := q.desc.length.toNat
  let k := nsKey q.tid (d.reqNs q)
  d.nsOk q && d.lbasOk q && n ≤ 2097152 &&
    (match q.code with
     | 0 => n % d.lbaBytes k == 0
     | 9 => 0 < n && n % 16 == 0
     | _ => 0 < n && n % d.lbaBytes k == 0)

/-- well_formed() of R82: Table 3.6 and the tests of R304, R337, R338, R358, R365 and R370. -/
def Dev.wellFormed (d : Dev) (q : Req) : Bool :=
  let x := q.desc
  !x.bad && (q.byThread || !x.devMem) &&
    (match q.kind with
     | 1 => 0 < x.length.toNat && x.length.toNat + (if x.cipher then 28 else 0) ≤ 9216
     | 3 | 5 => d.swashForm q
     | 6 => d.storageForm q
     | 7 => 0 < x.length.toNat && (d.cipherQueue q.tid).isSome
     | _ => false) &&
    (match d.namedSlot q with
     | some (_, ok) => ok
     | none => true)

/-- feature_present() of R82 (R28). -/
def Dev.featurePresent (d : Dev) (q : Req) : Bool :=
  match q.kind with
  | 1 => !q.desc.cipher || d.bit Reg.DEV_CAPS_INLINE_CIPHER
  | 3 | 5 => d.bit Reg.DEV_CAPS_SWASH && (!q.desc.cipher || d.bit Reg.DEV_CAPS_INLINE_CIPHER)
  | 7 => d.bit Reg.DEV_CAPS_LOOKASIDE_CIPHER
  | _ => true

/-- Whether a backend can take commands (R342, R350). -/
def Dev.backendUp (d : Dev) (b : Nat) : Bool := d.on (Reg.STG_BE_AVAILABLE b) && !d.bit Reg.STG_STATUS_ACT_HOLD

/-- The connection of a request that goes out over Swash: an SWW or SWR, or a storage command with data for a remote backend. -/
def Dev.reqConn (d : Dev) (q : Req) : Option Nat :=
  if q.kind == 3 || q.kind == 5 then some (q.desc.target.toNat % 2 ^ 20)
  else if q.kind == 6 && q.code != 0 && d.on (Reg.STG_BE_KIND q.backend) then some (d.inF (Reg.STG_BE_CONN q.backend))
  else none

/-- The assumptions of Table 3.6 that hold for every class (R304, R342): a backend that is available, 0x0005, and a connection that has not
failed, 0x0006. -/
def Dev.peerDown (d : Dev) (q : Req) : Nat :=
  if q.kind == 6 && !d.backendUp q.backend then 5
  else if (d.reqConn q).any (fun c => d.rd (Reg.SWH_C_STATE c) == 4) then 6
  else 0

/-- env_down() of R82: the detail of the first assumption that has failed, or 0 (Table 3.6). -/
def Dev.envDown (d : Dev) (q : Req) : Nat :=
  let needs := (d.planOf q).flatMap (·.needs)
  if needs.any (fun x => x.res.kind == 1 && !d.linkGood x.res.inst) ||
     needs.any (fun x => x.res.kind == 5 && !d.portUp x.res.inst) then 4
  else d.peerDown q

/-- The index of a contract, and of a bucket, among their registers (Tables 3.11, 3.13). -/
def ctKey (tid kind cls : Nat) : Nat := tid * 32 + kind * 4 + cls
def bucketKey (tid cls : Nat) : Nat := tid * 4 + cls

/-- The bytes that a request counts for cost and units: Write Zeroes and Dataset Management of an NVMe controller count
as 64 (R336). -/
def chargedBytes (q : Req) : Nat :=
  match q.org with
  | .nvme _ _ => if q.code == 8 || q.code == 9 then 64 else q.desc.length.toNat
  | .ring _ _ | .book _ _ _ | .sub _ _ _ | .wire _ => q.desc.length.toNat

/-- The unit count of R73. -/
def units (q : Req) : Nat :=
  if q.kind == 3 || q.kind == 6 || q.kind == 7 then max 1 (ceilDiv (chargedBytes q) 65536) else 1

/-- The cost of R78. -/
def cost (q : Req) : Nat := if q.kind == 6 && q.code == 0 then 64 else max 64 (chargedBytes q)

/-- The effective bound of R73. -/
def Dev.bound (d : Dev) (q : Req) : Nat :=
  let b := d.inF (Reg.BWK_CT_DATA_BOUND (ctKey q.tid q.kind q.cls)) * units q
  let b := max b q.desc.reqBound.toNat
  if q.kind == 6 then b + q.bound else b

/-! The search (R82) -/

/-- Take need units in the slots from t on, as room allows, up to slot last: the takings and the last slot used. -/
def takeSlots (room : Nat → Nat) (last : Nat) : Nat → Nat → Nat → Option (List (Nat × Nat) × Nat)
  | 0, _, _ => none
  | fuel + 1, t, need =>
    if last < t then none
    else
      let take := min need (room t)
      if need ≤ take then some ([(t, take)], t)
      else match takeSlots room last fuel (t + 1) (need - take) with
        | some (l, e) => some (if take == 0 then l else (t, take) :: l, e)
        | none => none

/-- Book one stage's needs, each from slot s: the holds and the last slot used, or the resource without room. -/
def takeStage (room : Res → Nat → Nat) (last s no : Nat) : List Need → Except Nat (List Hold × Nat)
  | [] => .ok ([], s)
  | x :: r =>
    match takeSlots (room x.res) last (last + 1 - s + 1) s x.amt with
    | none => .error x.res.detail
    | some (l, e) =>
      match takeStage room last s no r with
      | .error k => .error k
      | .ok (h, e') => .ok (l.map (fun p => ⟨x.res, no, p.1, p.2⟩) ++ h, max e e')

/-- Book all stages in order: a stage that books nothing is skipped with its wait. -/
def takeStages (room : Res → Nat → Nat) (last : Nat) : Nat → List Stage → Except Nat (List Hold)
  | _, [] => .ok []
  | s, st :: r =>
    if st.needs.isEmpty then takeStages room last s r
    else match takeStage room last s st.no st.needs with
      | .error k => .error k
      | .ok (h, e) =>
        match takeStages room last (e + 1 + ceilDiv st.wait 256) r with
        | .error k => .error k
        | .ok h' => .ok (h ++ h')

/-- The last booked slot of an entry. -/
def Entry.lastSlot (e : Entry) : Nat := (e.holds.map (·.slot)).foldl max 0

/-- Whether two commands share a submission ring. -/
def sameRing (tid : Nat) (a : Origin) (tid' : Nat) (b : Origin) : Bool :=
  tid == tid' && (match a, b with
    | .ring r _, .ring r' _ => r == r'
    | .nvme q _, .nvme q' _ => q == q'
    | .book t _ _, .book t' _ _ => t == t'
    | _, _ => false)

/-- Whether a request is ORDERED, and its namespace in STRICT order (R343). -/
def Dev.strictNs (d : Dev) (q : Req) : Nat :=
  if q.kind == 6 && q.strict then d.reqNs q else 0

/-- The first slot of an ordered search: after the last booked slot of the commands it follows (R343). -/
def Dev.orderedFrom (d : Dev) (q : Req) : Nat :=
  let before := d.adm.entries.filter (fun e =>
    (sameRing q.tid q.org e.tid e.org && (q.desc.ordered || e.ordered)) ||
    (d.strictNs q != 0 && e.tid == q.tid && e.ns == d.strictNs q))
  (before.map (fun e => e.lastSlot + 1)).foldl max 0

/-- The outcome of the admission test. -/
inductive Outcome where
  | refuse (status detail : Nat)
  | slack
  | accept (deadline : Nat) (holds : List Hold)
deriving DecidableEq, Repr

/-- The packet-buffer space held (R105). -/
def Adm.space (a : Adm) : Nat := (a.entries.map (·.space)).sum

/-- The last slot that a promise allows, as TIDE_SLOT_SEQ, within the horizon (R82). -/
def Dev.lastSlot (d : Dev) (deadline cls : Nat) : Nat :=
  let t : Int := ((deadline : Int) - (d.hEff cls * 256 : Nat)) / 256 - 1
  let s : Int := d.clk.slotSeq + (t - (d.clk.tide / 256 : Nat))
  (min s (d.clk.slotSeq + 16384 : Nat)).toNat

/-- The part of the test of R82 that books: bucket, deadline table, packet buffer, and the search. -/
def Dev.bookTest (d : Dev) (q : Req) (b : Nat) : Outcome :=
  if Tab.get 0 d.adm.tokens (bucketKey q.tid q.cls) < cost q then .refuse 1 0
  else if 65536 ≤ d.adm.entries.length then .refuse 2 0x1000
  else if d.inF Reg.CAL_RESERVES_PKT_BOOKED_MIB * 1048576 < d.adm.space + d.spaceOf q then .refuse 2 0x0200
  else
    let deadline := q.time + b
    match takeStages (fun r t => d.room r t q.cls) (d.lastSlot deadline q.cls)
        (max (d.clk.slotSeq + 1) (d.orderedFrom q)) (d.planOf q) with
    | .error k => .refuse 2 k
    | .ok h => .accept deadline h

/-- The admission test of R82. DEDUCED (log 183): R304 and R342 refuse every command to a FAILED connection or to a backend that is not
available, so the two assumptions are tested for Slack too, which R82's pseudocode queues before its environment check. -/
def Dev.admitTest (d : Dev) (q : Req) : Outcome :=
  if d.lost then .refuse 5 0
  else if q.tick + 8 < d.clk.tick then .refuse 2 0x1100
  else if d.admitHeld then .refuse 4 1
  else if d.bit Reg.HDL_STATUS_HOLDUP_STOP then .refuse 4 2
  else if !d.wellFormed q then .refuse 3 4
  else if !d.featurePresent q then .refuse 3 2
  else if (match d.namedSlot q with | some (k, _) => d.rd (Reg.CRY_SLOT_STATE k) == 3 | none => false) then .refuse 0x31 1
  else if q.cls == 3 then (if d.peerDown q != 0 then .refuse 4 (d.peerDown q) else .slack)
  else if !d.on (Reg.BWK_CT_DATA_ENABLE (ctKey q.tid q.kind q.cls)) then .refuse 3 1
  else if q.cls == 0 && d.readsHost q && 1500 < d.inF Reg.BWK_ENV_HOST_READ_BOUND then .refuse 4 3
  else if d.envDown q != 0 then .refuse 4 (d.envDown q)
  else if 16383 * 256 < d.bound q then .refuse 3 3
  else d.bookTest q (d.bound q)

/-! Counters and the deadline table -/

/-- The counters of the admission state: those of Table 3.19 and a tenant's of Table 15.5. -/
def countKey (cls n : Nat) : Nat := cls * 8 + n
def tenCountKey (tid cls m : Nat) : Nat := 1000 + tid * 12 + cls * 4 + m

/-- Advance a counter of the admission state, for the device and for the tenant. -/
def Adm.count (a : Adm) (tid cls n : Nat) : Adm :=
  let m := if n == 0 then 0 else if n == 6 then 2 else if n == 7 then 3 else 1
  { a with counts := Tab.upd 0 (Tab.upd 0 a.counts (countKey cls n) (· + 1)) (tenCountKey tid cls m) (· + 1) }

/-- A free index of the deadline table: the first not in use from a start on. -/
def freeIndex (used : List Nat) (start : Nat) : Nat → Nat
  | 0 => start % 65536
  | n + 1 => if used.contains (start % 65536) then freeIndex used (start + 1) n else start % 65536

/-- An entry of the deadline table for a request: its index is a free one, which one the spec does not say. -/
def Dev.newEntry (d : Dev) (q : Req) (promise : Nat) (holds : List Hold) (space : Nat) : Dev × Nat :=
  let (v, d) := d.draw 65535
  let ix := freeIndex (d.adm.entries.map (·.ix)) v d.adm.entries.length
  let e : Entry :=
    { ix := ix, op := q.id, kind := q.kind, cls := q.cls, tid := q.tid, src := q.src, tag := q.desc.tag.toNat,
      admitted := q.time, promise := promise, holds := holds, space := space, org := q.org,
      ordered := q.desc.ordered, ns := d.strictNs q }
  let es := d.adm.entries ++ [e]
  ({ d with adm := { d.adm with entries := es, high := max d.adm.high es.length } }, ix)

/-- Decide a request (R82, R83): the outcome is applied to the admission state and waits to be visible (R131). -/
def Dev.decide (d : Dev) (q : Req) : Dev :=
  let out := d.admitTest q
  let plan := (d.planOf q).filter (fun s => !s.needs.isEmpty)
  let d := { d with adm := { d.adm with decided := d.adm.decided + 1 } }
  let say (d : Dev) (x : Decision) : Dev := { d with pair := { d.pair with decisions := d.pair.decisions ++ [x] } }
  match out with
  | .refuse st k =>
    let d := if st ≤ 5 then
        { d with adm := d.adm.count q.tid (if q.cls == 3 || !q.clsKnown then 2 else q.cls) st } else d
    say d ⟨q, none, false, 0, st, k, []⟩
  | .slack => say d ⟨q, none, true, 0, 0, 0, plan⟩
  | .accept deadline holds =>
    let (d, ix) := d.newEntry q deadline holds (d.spaceOf q)
    let a := d.adm.count q.tid q.cls 0
    let d := { d with adm := { a with
        tokens := Tab.upd 0 a.tokens (bucketKey q.tid q.cls) (· - cost q) } }
    say d ⟨q, some ix, false, deadline, 0, 0, plan⟩

/-! The order of decisions (R80) -/

/-- Whether requests are decided now: a unit is active, or the device is in breakwater lost. -/
def Dev.deciding (d : Dev) : Bool := d.activeUnit.isSome || d.lost

/-- Decide the waiting requests in order, while this tick's 32 decisions last; those beyond 8 ticks are refused even
where no unit decides. -/
def Dev.decideWaiting (d : Dev) : Dev :=
  let n := 32 - d.adm.decided
  let now := if d.deciding then d.adm.waiting.take n else (d.adm.waiting.filter (fun q => q.tick + 8 < d.clk.tick)).take n
  let rest := d.adm.waiting.filter (fun q => !now.contains q)
  now.foldl Dev.decide { d with adm := { d.adm with waiting := rest } }

/-- Add an input to this tick's journal (R130). -/
def Dev.journal (d : Dev) (i : AdmInput) : Dev := { d with pair := { d.pair with inputs := d.pair.inputs ++ [i] } }

/-- A request reaches Breakwater: it is decided after those that wait, if this tick has a decision left (R80). -/
def Dev.takeRequest (d : Dev) (q : Req) : Dev :=
  let d := { d with adm := { d.adm with waiting := d.adm.waiting ++ [q] } }
  d.decideWaiting

/-! Releases (R84, R85) -/

/-- Change the entry of an operation. -/
def Dev.updEntry (d : Dev) (id : Nat) (f : Entry → Entry) : Dev :=
  { d with adm := { d.adm with entries := d.adm.entries.map (fun e => if e.op == id then f e else e) } }

/-- Free the entry of an operation and make its count. -/
def Dev.closeEntry (d : Dev) (id : Nat) (count : Option Nat) : Dev :=
  match d.adm.entries.find? (fun e => e.op == id) with
  | none => d
  | some e =>
    let a : Adm := { d.adm with entries := d.adm.entries.filter (fun e => e.op != id) }
    { d with adm := match count with
        | some n => a.count e.tid e.cls n
        | none => a }

/-! Slot and epoch steps of the admission state (R78, R79, R101) -/

/-- The slot that has ended is retired, and every bucket gains RATE up to DEPTH once Breakwater is released (R78, R101, R503). DESIGN CHOICE
(log 179): where the release itself falls on a slot boundary, the refills begin at that boundary; "the first slot boundary after the
release" does not say. -/
def Dev.admSlot (d : Dev) : Dev :=
  let es := d.adm.entries.map (fun e => { e with holds := e.holds.filter (fun h => d.clk.slotSeq ≤ h.slot) })
  let keys := ((d.regs.force.map (·.1)).filter (fun k => k % 2 ^ 54 == (Reg.BWK_BUDGET_DATA_RATE 0).key % 2 ^ 54)).map
    (fun k => k / 64 / bankStep)
  let gain (t : Tab Nat) (k : Nat) : Tab Nat :=
    Tab.upd 0 t k (fun v => min (v + d.inF (Reg.BWK_BUDGET_DATA_RATE k)) (max v (d.inF (Reg.BWK_BUDGET_DATA_DEPTH k))))
  { d with adm := { d.adm with entries := es, tokens := if d.released then keys.foldl gain d.adm.tokens else d.adm.tokens } }

/-- A change of DEPTH clamps its bucket at the epoch boundary (R79). -/
def Dev.admEpoch (d : Dev) : Dev :=
  { d with adm := { d.adm with
      tokens := Tab.mapAll 0 d.adm.tokens (fun k v => min v (d.inF (Reg.BWK_BUDGET_DATA_DEPTH k))) } }

/-- A frame or message admitted by rate takes an entry and is counted, or finds none free (R502). -/
def Dev.admitRate (d : Dev) (q : Req) (promise space : Nat) : Dev :=
  if 65536 ≤ d.adm.entries.length then { d with adm := d.adm.count q.tid q.cls 2 }
  else
    let (d, _) := d.newEntry q promise [] space
    { d with adm := d.adm.count q.tid q.cls 0 }

/-- Apply an input to the admission state. -/
def Dev.applyInput (d : Dev) (i : AdmInput) : Dev :=
  match i with
  | .slotStep => d.admSlot
  | .epochStep => d.admEpoch
  | .request q => d.takeRequest q
  | .releaseStage id st => d.updEntry id (fun e => { e with holds := e.holds.filter (fun h => h.stage != st) })
  | .releaseFuture id => d.updEntry id (fun e => { e with holds := e.holds.filter (fun h => h.slot < d.clk.slotSeq) })
  | .releaseSpace id => d.updEntry id (fun e => { e with space := 0 })
  | .close id n => d.closeEntry id n
  | .byRate q promise space => d.admitRate q promise space

/-- An input of this tick: journalled and applied. -/
def Dev.input (d : Dev) (i : AdmInput) : Dev := (d.journal i).applyInput i

/-- A request is sampled: it gets the next operation number. -/
def Dev.submit (d : Dev) (kind code cls tid src : Nat) (org : Origin) (x : Desc) (clsKnown : Bool := true) : Dev :=
  let q : Req :=
    { id := d.nextOp, kind := kind, code := code, cls := cls, tid := tid, src := src, org := org, desc := x,
      tick := d.clk.tick, time := d.clk.tide, clsKnown := clsKnown }
  { d with nextOp := d.nextOp + 1 }.input (.request (d.withBackend q))

end Sys2Proof.Machine
end

