-- ==== Sys2Proof/Machine/Pair.lean ====
section
/-! DEFINITION. The Breakwater pair: its two units, the journal, takeover, breakwater lost and repair (chapter 05). -/

namespace Sys2Proof.Machine

open Sys2Proof

/-! Units (Table 5.1) -/

/-- The state of a unit: 0 OFF, 1 BIST, 2 COPY, 3 CATCHUP, 4 STANDBY, 5 ACTIVE, 6 FAILED, 7 LAPSED. -/
def Dev.unitState (d : Dev) (u : Nat) : Nat := d.rd (Reg.BWK_UNIT_STATUS_STATE u)
/-- A unit takes a state. -/
def Dev.setUnit (d : Dev) (u st : Nat) : Dev := d.put (Reg.BWK_UNIT_STATUS_STATE u) st

/-- A setting of an ALERT bit raises the management interrupt (R142). -/
def Dev.unitAlert (d : Dev) (f : Fld) : Dev := (d.raise f).mgmt .bwk

/-- BWK_FAILED is logged (R137, Table 16.8). -/
def Dev.reportUnit (d : Dev) (u cause : Nat) : Dev :=
  d.report { source := 0x030, subsrc := u, kind := 0x20, sev := 2, detail := cause }

/-- A unit enters FAILED with a cause. -/
def Dev.failUnit (d : Dev) (u cause : Nat) : Dev :=
  (((d.setUnit u 6).put (Reg.BWK_UNIT_STATUS_FAIL_CAUSE u) cause).unitAlert (Reg.BWK_UNIT_ALERT_FAILED u)).reportUnit u cause

/-- A unit starts to copy the active unit's state (R141). -/
def Dev.startCopy (d : Dev) (u : Nat) : Dev := (d.setUnit u 2).put (Reg.BWK_UNIT_STATUS_COPY_PROGRESS u) 0

/-- The unit that does not decide beside the active one. -/
def Dev.peerUnit (d : Dev) : Option Nat := d.activeUnit.map peerOf

/-- Whether the peer stands by. -/
def Dev.peerStandby (d : Dev) : Bool :=
  match d.peerUnit with
  | some p => d.unitState p == 4
  | none => false

/-! The journal (R130 to R133) -/

/-- The peer applies the journal of this tick, and acknowledges it; a void journal is discarded. At the tick's end the journal is that of the
whole tick. -/
def Dev.applyJournal (d : Dev) : Dev :=
  match d.activeUnit, d.peerUnit with
  | some a, some p =>
    if d.pair.void.isSome then d
    else if d.unitState p == 4 then
      ({ d with pair := { d.pair with other := d.adm, acked := true } }.put (Reg.BWK_UNIT_JOURNAL_LAST_TICK a) d.short).put
        (Reg.BWK_UNIT_JOURNAL_LAST_TICK p) d.short
    else if d.unitState p == 3 then
      { d with pair := { d.pair with other := d.adm } }.put (Reg.BWK_UNIT_JOURNAL_LAST_TICK a) d.short
    else d.put (Reg.BWK_UNIT_JOURNAL_LAST_TICK a) d.short
  | _, _ => d

/-- The active unit closes the tick's journal and sends it, void or not (R130, R137). -/
def Dev.sendJournal (d : Dev) : Dev :=
  match d.activeUnit with
  | some a => d.put (Reg.BWK_UNIT_JOURNAL_LAST_TICK a) d.short
  | none => d

/-- Entries of a unit to LAPSED in the 64 epochs up to an epoch; and LAPSES, up to the epoch that runs. -/
def Dev.lapsesAt (d : Dev) (u epoch : Nat) : Nat := (d.pair.lapses.filter (fun p => p.1 == u && epoch < p.2 + 64)).length
def Dev.lapses (d : Dev) (u : Nat) : Nat := d.lapsesAt u d.clk.epochs

/-- LAPSES as the register shows it. -/
def Dev.showLapses (d : Dev) (u : Nat) : Dev := d.put (Reg.BWK_UNIT_STATUS_LAPSES u) (min 255 (d.lapses u))

/-- A journal fault (R132): the peer in STANDBY, COPY or CATCHUP enters LAPSED; a void journal is never one. -/
def Dev.lapse (d : Dev) : Dev :=
  match d.peerUnit with
  | some p =>
    if d.pair.void.isSome || !(d.unitState p == 2 || d.unitState p == 3 || d.unitState p == 4) then d
    else
      let d := (((d.setUnit p 7).bump (Reg.BWK_UNIT_COUNTS_LINK_ERRORS p)).unitAlert (Reg.BWK_UNIT_ALERT_LAPSED p))
      let d := { d with pair := { d.pair with other := {}, acked := false, lapses := (p, d.clk.epochs) :: d.pair.lapses } }
      (d.showLapses p).askEpoch (.recopy p)
  | none => d

/-- STANDBY_LAPSE (R132): an acknowledgement is missing, or a journal or a copied block has an uncorrectable error. -/
def execStandbyLapse (s : State) : Host.Outcome State Fault Refusal := s.run Dev.lapse

/-- JOURNAL_APPLY (R130): the standby checks the journal's code, then applies and acknowledges it; a code error is a
journal fault. -/
def execJournalApply (codeError : Bool) (s : State) : Host.Outcome State Fault Refusal :=
  s.run fun d => if codeError then d.lapse else d.applyJournal

/-- LAPSED_RECOPY (R133): at the epoch boundary a lapsed unit starts COPY; the third lapse within 64 epochs ends in
FAILED with cause 6. They are counted as at its entry, in the epoch that this boundary ends. -/
def execLapsedRecopy (unit : BitVec 1) (s : State) : Host.Outcome State Fault Refusal :=
  s.run fun d => d.ifDue (.recopy unit.toNat) fun d =>
    d.when (d.unitState unit.toNat == 7) fun d =>
      if 3 ≤ d.lapsesAt unit.toNat (d.clk.epochs - 1) then d.failUnit unit.toNat 6 else d.startCopy unit.toNat

/-! Takeover (R134 to R137) and breakwater lost (R139) -/

/-- ACTIVE_CHECK_FAIL (R134, R137): the active unit finds a fault in a tick, and that tick's journal is void. What
follows comes at the boundary that ends the tick. DESIGN CHOICE (log 185): of two checks that fail in one tick the later one given is
FAIL_CAUSE; the spec does not say. -/
def execActiveCheckFail (cause : BitVec 3) (s : State) : Host.Outcome State Fault Refusal :=
  s.run fun d => d.when (d.activeUnit.isSome && 1 ≤ cause.toNat && cause.toNat ≤ 4) fun d =>
    { d with pair := { d.pair with void := some cause.toNat } }

/-- The requests among inputs. -/
def requestsOf (l : List AdmInput) : List Req :=
  l.filterMap fun i => match i with
    | .request q => some q
    | .slotStep | .epochStep | .releaseStage _ _ | .releaseFuture _ | .releaseSpace _ | .close _ _ | .byRate _ _ _ => none

/-- The operations that inputs take in by rate. -/
def ratesOf (l : List AdmInput) : List Nat :=
  l.filterMap fun i => match i with
    | .byRate q _ _ => some q.id
    | .request _ | .slotStep | .epochStep | .releaseStage _ _ | .releaseFuture _ | .releaseSpace _ | .close _ _ => none

/-- Operations become Slack: in breakwater lost every received frame is carried so (R139). -/
def Dev.slacken (d : Dev) (ids : List Nat) : Dev :=
  let f (o : Op) : Op := if ids.contains o.req.id then { o with slack := true, entry := none } else o
  { d with ops := d.ops.map f }

/-- The releases and steps among inputs. -/
def releasesOf (l : List AdmInput) : List AdmInput :=
  l.filter fun i => match i with
    | .request _ | .byRate _ _ _ => false
    | .slotStep | .epochStep | .releaseStage _ _ | .releaseFuture _ | .releaseSpace _ | .close _ _ => true

/-- A unit abandons its work and waits in OFF with empty tables (R139). -/
def Dev.abandonUnit (d : Dev) (u : Nat) : Dev :=
  if d.unitState u == 4 || d.unitState u == 2 || d.unitState u == 3 || d.unitState u == 7 then
    { d with pair := { d.pair with other := {} } }.setUnit u 0
  else d

/-- The device enters breakwater lost; a unit that was active becomes the draining unit (R139). So does one that RECOVER has made active and
that fails before breakwater lost has cleared, which then does not clear (R128). -/
def Dev.enterLost (d : Dev) (cause : Nat) : Dev :=
  if d.lost && d.activeUnit.isNone then d
  else
    let a := d.activeUnit
    let d := { d with clk := { d.clk with reqEpoch := d.clk.reqEpoch.filter (· != Due.lostClear), due := d.clk.due.filter (· != Due.lostClear) } }
    let d := ((d.put Reg.DEV_STATUS_BREAKWATER_LOST 1).unitAlert (Reg.BWK_UNIT_ALERT_LOST 0)).unitAlert (Reg.BWK_UNIT_ALERT_LOST 1)
    match a with
    | some u => ({ d with pair := { d.pair with draining := some u } }.failUnit u cause).abandonUnit (peerOf u)
    | none => (d.abandonUnit 0).abandonUnit 1

/-- Refuse requests at once, beyond the 32 decisions of a tick (R139). -/
def Dev.refuseAll (d : Dev) (l : List Req) : Dev := l.foldl Dev.decide d

/-- A device-fatal fault or a thermal trip (R139, R428, R494): breakwater lost at once. The requests of this tick are
refused, its releases stand; before is the admission state at the end of the previous tick. -/
def Dev.fatal (d : Dev) (before : Adm) : Dev :=
  if d.lost then d
  else
    let ins := d.pair.inputs
    let d := d.enterLost 7
    let d := { d with adm := { before with waiting := [], decided := 0 }, pair := { d.pair with inputs := [], decisions := [], void := none } }
    let d := ((releasesOf ins).foldl Dev.input d).slacken (ratesOf ins)
    d.refuseAll (before.waiting ++ requestsOf ins)

/-- The end of a tick whose journal is void (R137, R139): none of its decisions and releases takes effect; before is the admission state at
the end of the previous tick. The failure takes effect as the next tick begins. -/
def Dev.voidTick (d : Dev) (before : Adm) : Dev :=
  match d.pair.void, d.activeUnit with
  | some cause, some _ => { d with
      adm := before
      pair := { d.pair with inputs := [], decisions := [], void := none, acked := false, failing := some cause, replay := d.pair.inputs } }
  | some _, none => { d with pair := { d.pair with void := none } }
  | none, _ => d

/-- As the tick after a void one begins, at rank 2 (R137, R139): the failing unit enters FAILED and the standby takes over, or the device
enters breakwater lost; the inputs wait to be applied again, or their releases alone. -/
def Dev.takeOver (d : Dev) : Dev :=
  match d.pair.failing with
  | none => d
  | some cause =>
    let standby := d.peerStandby
    let d := { d with pair := { d.pair with failing := none } }
    match d.activeUnit with
    | none => d
    | some a =>
      if standby then
        let d := d.failUnit a cause
        let d := ((d.setUnit (peerOf a) 5).bump (Reg.BWK_UNIT_COUNTS_TAKEOVERS (peerOf a))).unitAlert (Reg.BWK_UNIT_ALERT_TOOK_OVER (peerOf a))
        { d with pair := { d.pair with other := {} } }
      else
        let ins := d.pair.replay
        let d := (d.enterLost cause).slacken (ratesOf ins)
        { d with adm := { d.adm with waiting := [] }
                 pair := { d.pair with replay := releasesOf ins, refuse := d.adm.waiting ++ requestsOf ins } }

/-- The start of the tick after a void one: its inputs are applied again, ahead of the tick's own (R137). -/
def Dev.replay (d : Dev) : Dev :=
  let ins := d.pair.replay
  let rs := d.pair.refuse
  let d := { d with pair := { d.pair with replay := [], refuse := [] } }
  (ins.foldl Dev.input d).refuseAll rs

/-- DRAINING_UNIT_CHECK_FAIL (R139): checks 1 to 3 of the draining unit are logged with their cause, and it keeps
draining. -/
def execDrainingUnitCheckFail (cause : BitVec 3) (s : State) : Host.Outcome State Fault Refusal :=
  s.run fun d =>
    match d.pair.draining with
    | some u => d.when (1 ≤ cause.toNat && cause.toNat ≤ 3) fun d => (d.reportUnit u cause.toNat).mgmt .bwk
    | none => d

/-! Swap (R138) -/

/-- A SWAP write: accepted in the active unit while its peer stands by. -/
def Dev.swapWrite (d : Dev) (ag : Agent) (u : Nat) : Dev :=
  d.byRight ag (0x20208 + 0x10000 * u) fun d =>
    if d.activeUnit == some u && d.peerStandby then d.askSlot .swap
    else d.unitAlert (Reg.BWK_UNIT_ALERT_SWAP_REFUSED u)

/-- SWAP (R138). -/
def execSwap (ag : Agent) (unit : BitVec 1) (s : State) : Host.Outcome State Fault Refusal :=
  s.run fun d => d.swapWrite ag unit.toNat

/-- SWAP_EXCHANGE (R138): the roles exchange at the slot boundary, if the peer still stands by. -/
def execSwapExchange (s : State) : Host.Outcome State Fault Refusal :=
  s.run fun d => d.ifDue .swap fun d =>
    match d.activeUnit with
    | some a =>
      if d.peerStandby then (d.setUnit a 4).setUnit (peerOf a) 5 else d.unitAlert (Reg.BWK_UNIT_ALERT_SWAP_REFUSED a)
    | none => d

/-! Repair (R140, R141) -/

/-- IN_FLIGHT (R83). -/
def Dev.inFlight (d : Dev) : Nat := d.adm.entries.length

/-- A RESET_UNIT write: a FAILED or LAPSED unit starts BIST; in any other state, and for the draining unit while
operations are in flight, it is discarded and logged. -/
def Dev.resetUnit (d : Dev) (ag : Agent) (u : Nat) : Dev :=
  d.byRight ag (0x20208 + 0x10000 * u) fun d =>
    let draining := d.pair.draining == some u
    if !(d.unitState u == 6 || d.unitState u == 7) || (draining && d.inFlight != 0) then d.discarded ag (0x20208 + 0x10000 * u)
    else (if draining then { d with pair := { d.pair with draining := none } } else d).setUnit u 1

/-- RESET_UNIT (R141). -/
def execResetUnit (ag : Agent) (unit : BitVec 1) (s : State) : Host.Outcome State Fault Refusal :=
  s.run fun d => d.resetUnit ag unit.toNat

/-- A unit's BIST ends. Before release the outcome is kept for R129, and the unit waits; later it copies, or waits in
OFF while the device is in breakwater lost. -/
def Dev.bistUnit (d : Dev) (u : Nat) (pass : Bool) : Dev :=
  if !d.released then
    let d := { d with boot := if u == 0 then { d.boot with bistA := some pass } else { d.boot with bistB := some pass } }
    if pass then d.setUnit u 0 else d.failUnit u 5
  else if d.unitState u != 1 then d
  else if !pass then d.failUnit u 5
  else if d.lost then d.setUnit u 0
  else d.startCopy u

/-- UNIT_BIST_DONE (R141, R129). -/
def execUnitBistDone (unit : BitVec 1) (pass : Bool) (s : State) : Host.Outcome State Fault Refusal :=
  s.run fun d => d.bistUnit unit.toNat pass

/-- UNIT_COPY_DONE (R141): the copy ends, the held journals are applied, and the unit enters STANDBY at the next epoch
boundary. DESIGN CHOICE (log 187): how long CATCHUP lasts within the 4 epochs is left open; here it ends before that boundary. -/
def execUnitCopyDone (unit : BitVec 1) (s : State) : Host.Outcome State Fault Refusal :=
  s.run fun d => d.when (d.unitState unit.toNat == 2 && d.activeUnit == some (peerOf unit.toNat)) fun d =>
    (({ d with pair := { d.pair with other := d.adm } }.setUnit unit.toNat 3).put
      (Reg.BWK_UNIT_STATUS_COPY_PROGRESS unit.toNat) 256).askEpoch (.standbyEnter unit.toNat)

/-- UNIT_STANDBY_ENTER (R141). -/
def execUnitStandbyEnter (unit : BitVec 1) (s : State) : Host.Outcome State Fault Refusal :=
  s.run fun d => d.ifDue (.standbyEnter unit.toNat) fun d =>
    d.when (d.unitState unit.toNat == 3) fun d =>
      ({ d with pair := { d.pair with other := d.adm } }.setUnit unit.toNat 4).unitAlert (Reg.BWK_UNIT_ALERT_SYNC_DONE unit.toNat)

/-- A RECOVER write (R140); while FATAL is set it is discarded (R428). -/
def Dev.recoverWrite (d : Dev) (ag : Agent) (u : Nat) : Dev :=
  d.byRight ag (0x20208 + 0x10000 * u) fun d =>
    if d.lost && d.unitState u == 0 && d.inFlight == 0 && d.activeUnit.isNone && !d.bit Reg.ERR_STATUS_FATAL then d.askEpoch (.recover u)
    else d.unitAlert (Reg.BWK_UNIT_ALERT_RECOVER_REFUSED u)

/-- RECOVER (R140). -/
def execRecover (ag : Agent) (unit : BitVec 1) (s : State) : Host.Outcome State Fault Refusal :=
  s.run fun d => d.recoverWrite ag unit.toNat

/-- The policers that are enabled. -/
def Dev.enabledPolicers (d : Dev) : List Nat := (List.range 4096).filter (fun i => d.on (Reg.CAL_POL_ENABLE i))

/-- RECOVER_ACTIVATE (R140): the unit decides with empty tables and buckets; the counters stay, the policers are checked
again, a peer in OFF copies, and breakwater lost ends at the next epoch boundary. DESIGN CHOICE (log 186): of two RECOVERs accepted for both
units before one boundary the first asked takes effect, and the other is dropped without RECOVER_REFUSED; the spec does not say. -/
def Dev.recoverActivate (d : Dev) (u : Nat) : Dev :=
  if !d.lost || d.unitState u != 0 || d.activeUnit.isSome then d
  else
    let d := { d with adm := { counts := d.adm.counts }
                      pair := { d.pair with draining := none, other := {} }
                      cal := { d.cal with policers := [] } }
    let d := d.each d.enabledPolicers fun d i => (d.put (Reg.CAL_POL_ACTIVE i) 0).makeDue (.policer i)
    let d := if d.unitState (peerOf u) == 0 then d.startCopy (peerOf u) else d
    (d.setUnit u 5).askEpoch .lostClear

/-- RECOVER_ACTIVATE. -/
def execRecoverActivate (unit : BitVec 1) (s : State) : Host.Outcome State Fault Refusal :=
  s.run fun d => d.ifDue (.recover unit.toNat) fun d => d.recoverActivate unit.toNat

/-- BREAKWATER_LOST_CLEAR (R140): while the unit that RECOVER made active decides. -/
def execBreakwaterLostClear (s : State) : Host.Outcome State Fault Refusal :=
  s.run fun d => d.ifDue .lostClear fun d => d.when d.activeUnit.isSome fun d => d.put Reg.DEV_STATUS_BREAKWATER_LOST 0

/-- The start of the pair at the release tick (R129): unit A is active if it passed BIST, else unit B; a second unit that
passed copies; with none, both are FAILED and the device starts in breakwater lost. -/
def Dev.releasePair (d : Dev) : Dev :=
  let a := d.boot.bistA == some true
  let b := d.boot.bistB == some true
  if d.lost then (d.setUnit 0 (if a then 0 else 6)).setUnit 1 (if b then 0 else 6)
  else if a then (d.setUnit 0 5).when b fun d => d.startCopy 1
  else if b then d.setUnit 1 5
  else
    let failed (d : Dev) (u : Nat) : Dev := if d.unitState u == 6 then d else d.failUnit u 5
    ((failed (failed d 0) 1).put Reg.DEV_STATUS_BREAKWATER_LOST 1).unitAlert (Reg.BWK_UNIT_ALERT_LOST 0)
      |>.unitAlert (Reg.BWK_UNIT_ALERT_LOST 1)

/-! Effect of decisions (R131) -/

/-- Whether this tick's decisions take effect at its end: the journal is acknowledged, or no unit stands by. -/
def Dev.mayShow (d : Dev) : Bool := d.pair.void.isNone && (!d.peerStandby || d.pair.acked)

end Sys2Proof.Machine
end

