-- ==== Sys2Proof/Machine/Strand.lean ====
section
/-! DEFINITION. Strand registers, fuses, bundles, boot selection and updates (chapter 17). -/

namespace Sys2Proof.Machine

open Sys2Proof

/-! Strand words (R451 to R454) -/

/-- The persistent value of a strand word. -/
def Dev.strandWord (d : Dev) (w : Nat) : Nat := Tab.get 0 d.boot.strand w

/-- The value a read of a strand word returns (R452): the newest write that waits, else the persistent value. -/
def Dev.strandRead (d : Dev) (w : Nat) : Nat :=
  match (d.boot.strandQ.filter (fun q => q.word == w)).getLast? with
  | some q => q.value
  | none => d.strandWord w

/-- WEAR of a strand word (R454). -/
def Dev.strandWear (d : Dev) (w : Nat) : Nat := Tab.get 0 d.boot.wear w

/-- A word is WORN at 100,000,000 performed writes (R454). -/
def Dev.strandWorn (d : Dev) (w : Nat) : Bool := d.strandWear w ≥ 100000000

/-- Whether an agent may write a word (Table 17.3, R476). -/
def Dev.strandRegion (d : Dev) (ag : Agent) (w : Nat) : Bool :=
  match ag with
  | .headland => w < 0x100 || 0x200 ≤ w
  | .steward => 0x200 ≤ w
  | .thread t => 0x200 ≤ w && d.ctlGrant (t.toNat / 64) 14 && d.threadPriv t.toNat
  | .oob | .jtag => 0x200 ≤ w && (d.inF Reg.MON_OOB_WRITE_BLOCKS).testBit 14

/-- A strand write is discarded and counted, with a record of a kind (R453, R454). -/
def Dev.strandDiscard (d : Dev) (ag : Agent) (w kind : Nat) : Dev :=
  (d.bump Reg.HDL_STRAND_DISCARDED).report
    { source := 0x050, kind := kind, sev := 1, addr := 0xB00000 + 8 * w, thread := agentThread ag, detail := w }

/-- Whether the power-fail engine still writes (R455). -/
def Dev.pfRunning (d : Dev) : Bool := !d.boot.pfTodo.isEmpty

/-- The tick in which the strand accepts the next write: this one, or the one after that of the last (R451). -/
def Dev.strandSlot (d : Dev) : Nat :=
  match d.boot.strandQ.getLast? with
  | some q => max d.clk.tick (q.at_ + 1)
  | none => d.clk.tick

/-- A strand write joins the writes that wait (R451). Each is persistent 25 ticks after its tick at the latest, so at most 26 accepted
ones wait, and the 64 places of R452 are never all in use. -/
def Dev.strandPush (d : Dev) (w v : Nat) (engine : Bool) : Dev :=
  { d with boot := { d.boot with strandQ := d.boot.strandQ ++ [{ word := w, value := v % 2 ^ 64, engine := engine, at_ := d.strandSlot }] } }

/-- The last strand write is a thread's store. -/
def Dev.strandBy (d : Dev) (t id : Nat) : Dev :=
  { d with boot := { d.boot with strandQ := d.boot.strandQ.dropLast ++ d.boot.strandQ.getLast?.toList.map fun q => { q with by_ := some (t, id) } } }

/-- A strand write by an agent: the firewall's grant, region, power failure and wear are checked in this order (R421, R453 to R455). -/
def Dev.strandWrite (d : Dev) (ag : Agent) (w v : Nat) : Dev :=
  if d.fwRefuses ag (0xB00000 + 8 * w) then d.fwDenied ag (0xB00000 + 8 * w) true
  else if !d.strandRegion ag w then d.strandDiscard ag w 0x34
  else if d.pfRunning then d.bump Reg.HDL_STRAND_DISCARDED
  else if d.strandWorn w then d.bump Reg.HDL_STRAND_DISCARDED
  else d.strandPush w v false

/-- A value with one 32-bit half replaced, or whole: which is 0 for the low half, 1 for the high half, 2 for both. -/
def mergeHalf (old which v : Nat) : Nat :=
  if which == 0 then old / 2 ^ 32 * 2 ^ 32 + v % 2 ^ 32
  else if which == 1 then v % 2 ^ 32 * 2 ^ 32 + old % 2 ^ 32
  else v % 2 ^ 64

/-- STRAND_WRITE (R451): a word, or a half of it with the other half unchanged. -/
def execStrandWrite (ag : Agent) (word : BitVec 12) (half : Fin 3) (value : BitVec 64) (s : State) :
    Host.Outcome State Fault Refusal :=
  s.run fun d => d.strandWrite ag word.toNat (mergeHalf (d.strandRead word.toNat) half.val value.toNat)

/-- A write becomes persistent (R451, R454): an equal value is not performed; WEAR counts the others, and the word that
reaches the limit is WORN. -/
def Dev.strandPersist (d : Dev) (q : StrandWrite) : Dev :=
  if d.strandWorn q.word then d.bump Reg.HDL_STRAND_DISCARDED
  else if d.strandWord q.word == q.value then d
  else
    let n := d.strandWear q.word + 1
    let d := { d with boot := { d.boot with strand := Tab.set 0 d.boot.strand q.word q.value
                                            wear := Tab.set 0 d.boot.wear q.word n } }
    let d := if n == 99000000 then d.raise Reg.HDL_STRAND_WORN_SOON_SEEN else d
    if n == 100000000 then
      (d.raise Reg.HDL_STRAND_STRAND_WORN).report
        { source := 0x050, kind := 0x33, sev := 1, addr := 0xB00000 + 8 * q.word, detail := q.word }
    else d

/-- A write is complete, and where it is a thread's store, that is performed (R451). -/
def Dev.strandDone (d : Dev) (q : StrandWrite) : Dev :=
  let d := d.strandPersist q
  match q.by_ with
  | none => d
  | some (t, id) =>
    { d with shl := { d.shl with threads := Tab.upd {} d.shl.threads t fun x =>
        { x with loads := x.loads.map fun (a : MemAcc) => if a.id == id then { a with back := some 0 } else a } } }

/-- STRAND_WRITE_PERSIST (R451): the oldest waiting write, once it is accepted. -/
def execStrandWritePersist (s : State) : Host.Outcome State Fault Refusal :=
  s.run fun d => match d.boot.strandQ with
    | [] => d
    | q :: r => if d.clk.tick < q.at_ then d else { d with boot := { d.boot with strandQ := r } }.strandDone q

/-- The accepted writes: those whose persistence power loss may or may not cut off. -/
def Dev.strandAccepted (d : Dev) : List StrandWrite := d.boot.strandQ.takeWhile (fun q => q.at_ ≤ d.clk.tick)

/-- The writes that 25 ticks have passed for become persistent (R8, R451). -/
def Dev.strandAge (d : Dev) : Dev :=
  let old := d.boot.strandQ.takeWhile (fun q => q.at_ + 25 ≤ d.clk.tick)
  { d with boot := { d.boot with strandQ := d.boot.strandQ.drop old.length } }.each old Dev.strandDone

/-- The power-fail engine writes one word in a tick (R455). -/
def Dev.pfStep (d : Dev) : Dev :=
  match d.boot.pfTodo with
  | [] => d
  | (w, v) :: r => { d with boot := { d.boot with pfTodo := r } }.strandPush w v true

/-- A write by Headland itself. -/
def Dev.headlandStrand (d : Dev) (w v : Nat) : Dev := d.strandWrite .headland w v

/-- PF_ACK (R458): Headland writes REASON 0 into word 0x010, and PF_SUMMARY_VALID clears. -/
def Dev.pfAck (d : Dev) (ag : Agent) : Dev :=
  if ag != .steward then d.discarded ag 0xA00038
  else (d.headlandStrand 0x010 (d.strandRead 0x010 % 2 ^ 56)).put Reg.HDL_STATUS_PF_SUMMARY_VALID 0

/-- PF_ACK. -/
def execPfAck (ag : Agent) (s : State) : Host.Outcome State Fault Refusal := s.run fun d => d.pfAck ag

/-- Whether the power-fail summary is valid (R456): PF_END.GEN equals PF_BEGIN.GEN and REASON is not zero. -/
def Dev.pfValid (d : Dev) : Bool :=
  bits (d.strandWord 0x010) 55 40 == bits (d.strandWord 0x01F) 55 40 && bits (d.strandWord 0x010) 63 56 != 0

/-! Fuses (R447, R448) -/

/-- The outcome of a fuse commit's checks: none when the blow may start (R448). -/
def Dev.fuseCheck (d : Dev) (which keySet : Nat) : Option Nat :=
  if !d.bit Reg.HDL_STATUS_BOOT_CONFIRMED then some 1
  else if which == 2 then (if keySet < d.rd Reg.HDL_IMAGE_KEY_SET then none else some 3)
  else if which == 1 then (if d.boot.shlCount < d.rd Reg.HDL_IMAGE_SHL_SVN then none else some 2)
  else if d.boot.hdlCount < d.rd Reg.HDL_IMAGE_HDL_SVN then none else some 2

/-- HDL_FUSE_COMMIT with GO (R448): only the steward; a GO while BUSY is discarded. The blow starts, or RESULT says why
not. -/
def Dev.fuseGo (d : Dev) (ag : Agent) (which keySet : Nat) : Dev :=
  if ag != .steward then d.discarded ag 0xA00028
  else if d.boot.fuseJob.isSome then d
  else
    let d := (d.store Reg.HDL_FUSE_CTL_WHICH which).store Reg.HDL_FUSE_CTL_KEY_SET keySet
    match d.fuseCheck which keySet with
    | some r => d.put Reg.HDL_FUSE_CTL_RESULT r
    | none =>
      let target := if which == 2 then keySet
        else if which == 1 then d.rd Reg.HDL_IMAGE_SHL_SVN else d.rd Reg.HDL_IMAGE_HDL_SVN
      { d with boot := { d.boot with fuseJob := some (which, target) } }.put Reg.HDL_FUSE_CTL_BUSY 1

/-- FUSE_COMMIT_HDL: WHICH 0. -/
def execFuseCommitHdl (ag : Agent) (s : State) : Host.Outcome State Fault Refusal :=
  s.run fun d => d.fuseGo ag 0 (d.rd Reg.HDL_FUSE_CTL_KEY_SET)

/-- FUSE_COMMIT_SHL: WHICH 1. -/
def execFuseCommitShl (ag : Agent) (s : State) : Host.Outcome State Fault Refusal :=
  s.run fun d => d.fuseGo ag 1 (d.rd Reg.HDL_FUSE_CTL_KEY_SET)

/-- FUSE_COMMIT_REVOKE: WHICH 2. -/
def execFuseCommitRevoke (ag : Agent) (keySet : BitVec 2) (s : State) : Host.Outcome State Fault Refusal :=
  s.run fun d => d.fuseGo ag 2 keySet.toNat

/-- The fuses once bits have been blown up to a target: a counter's row, or a revoke bit. -/
def Dev.blow (d : Dev) (which target : Nat) : Dev :=
  if which == 2 then { d with boot := { d.boot with revoked := d.boot.revoked ||| 2 ^ target } }
  else if which == 1 then { d with boot := { d.boot with shlCount := target } }
  else { d with boot := { d.boot with hdlCount := target } }

/-- The counter whose row a commit blows. -/
def Dev.fuseCount (d : Dev) (which : Nat) : Nat := if which == 1 then d.boot.shlCount else d.boot.hdlCount

/-- A blow that ends before its target, with at most so many bits of its row left: bits are blown in ascending order, and how many
were is free. A revoke bit is blown, or not, by the same choice among one and none. -/
def Dev.blowPart (d : Dev) (which target short : Nat) : Dev :=
  if which == 2 then
    let (k, d) := d.draw (1 - short)
    if k == 0 then d else d.blow which target
  else
    let c := d.fuseCount which
    let (k, d) := d.draw (target - c - short)
    d.blow which (c + k)

/-- Power is lost while fuses are blown: the count is lower than it would have been, never higher (R447). -/
def Dev.blowCut (d : Dev) : Dev :=
  match d.boot.fuseJob with
  | some (which, target) => d.blowPart which target 0
  | none => d

/-- FUSE_COMMIT_DONE (R448): RESULT sets, BUSY clears, and FUSE_COMMIT is logged with the new counter value, or with
0x8000 + set for a revocation (Table 17.4). With failed a blow did not read back as blown: RESULT 4, and the bits before it are
blown. -/
def execFuseCommitDone (failed : Bool) (s : State) : Host.Outcome State Fault Refusal :=
  s.run fun d => match d.boot.fuseJob with
    | none => d
    | some (which, target) =>
      let d := { d with boot := { d.boot with fuseJob := none } }
      let d := if failed then d.blowPart which target 1 else d.blow which target
      let d := (d.put Reg.HDL_FUSE_CTL_BUSY 0).put Reg.HDL_FUSE_CTL_RESULT (if failed then 4 else 0)
      d.report { source := 0x050, kind := 0x32, sev := 0,
                 detail := if which == 2 then 0x8000 + target else if which == 1 then d.boot.shlCount else d.boot.hdlCount }

/-! Bundles (R437, R438) -/

/-- n bytes of a list from an offset. -/
def slice (l : List Byte) (off n : Nat) : List Byte := (l.drop off).take n

/-- A little-endian number of n bytes at an offset. -/
def leAt (l : List Byte) (off n : Nat) : Nat := leNat (slice l off n)

/-- The bytes of a component of a bundle. -/
def component (b : List Byte) (i : Nat) : List Byte := slice b (leAt b (64 + 96 * i + 16) 4) (leAt b (64 + 96 * i + 20) 4)

/-- Whether entry i of a bundle has a known type, zero where it must, and a component inside the bundle. -/
def entryOk (b : List Byte) (i : Nat) : Bool :=
  let e := 64 + 96 * i
  1 ≤ leAt b e 4 && leAt b e 4 ≤ 5 && leAt b (e + 4) 4 == 0 && leAt b (e + 80) 16 == 0 &&
    leAt b (e + 16) 4 + leAt b (e + 20) 4 ≤ b.length

/-- The number of components. -/
def components (b : List Byte) : Nat := leAt b 18 2

/-- Whether the format of a bundle is valid (Table 17.1). -/
def formatOk (b : List Byte) : Bool :=
  64 ≤ b.length && b.length ≤ 0x4000000 && leAt b 0 4 == 0xEC4AB0D1 && leAt b 4 4 == 1 && leAt b 8 4 == b.length &&
  1 ≤ leAt b 12 2 && leAt b 12 2 ≤ 256 && 1 ≤ leAt b 14 2 && leAt b 14 2 ≤ 256 && leAt b 16 1 ≤ 3 &&
  leAt b 17 1 < 4 && 1 ≤ components b && components b ≤ 64 && leAt b 24 40 == 0 &&
  64 + 96 * components b ≤ leAt b 20 4 && leAt b 20 4 + 7412 ≤ b.length &&
  (List.range (components b)).all (entryOk b)

/-- The cause for which a bundle fails verification, in the order of R438; none when it verifies (R459). -/
def Dev.verifyBundle (d : Dev) (b : List Byte) : Option Nat :=
  let sig := leAt b 20 4
  let ecKey := slice b sig 97
  let mlKey := slice b (sig + 97) 2592
  let digest := Config.sha384 (b.take sig)
  if !formatOk b then some 1
  else if d.boot.revoked.testBit (leAt b 16 1) then some 6
  else if Config.sha384 (ecKey ++ mlKey) != Config.fusedHash (leAt b 16 1) then some 6
  else if !Config.ecdsaOk ecKey digest (slice b (sig + 2689) 96) then some 2
  else if !Config.mldsaOk mlKey digest (slice b (sig + 2785) 4627) then some 3
  else if !(List.range (components b)).all (fun i => Config.sha384 (component b i) == slice b (64 + 96 * i + 32) 48) then some 9
  else if leAt b 12 2 < d.boot.hdlCount then some 4
  else if leAt b 14 2 < d.boot.shlCount then some 5
  else none

/-- A bundle is rejected and logged (R438, R441, R459): slot 0 A, 1 B, 2 host. -/
def Dev.bootReject (d : Dev) (slot cause : Nat) : Dev :=
  ((d.put Reg.HDL_STATUS_FAIL_CAUSE cause).put Reg.HDL_STATUS_FAIL_SLOT slot).report
    { source := 0x050, kind := 0x30, sev := 0, detail := slot * 256 + cause }

/-- A verified bundle is the running one: HDL_IMAGE, ACTIVE_SLOT and WAIT_STEWARD show it, and CONFIGURE comes next. -/
def Dev.bootBundle (d : Dev) (slot : Nat) (b : List Byte) (fallback : Bool) : Dev :=
  let seq := if slot == 2 then 0 else d.strandWord slot / 256 % 2 ^ 40
  let d := { d with boot := { d.boot with running := b } }
  let d := ((d.put Reg.HDL_IMAGE_HDL_SVN (leAt b 12 2)).put Reg.HDL_IMAGE_SHL_SVN (leAt b 14 2)).put Reg.HDL_IMAGE_KEY_SET (leAt b 16 1)
  let d := (d.put Reg.HDL_IMAGE_SEQ_LOW seq).put Reg.HDL_STATUS_ACTIVE_SLOT slot
  let d := (d.putBit Reg.HDL_STATUS_FALLBACK fallback).putBit Reg.HDL_STATUS_WAIT_STEWARD (leAt b 17 1 / 2 % 2 == 1)
  let d := d.put Reg.HDL_BOOT_TRIES (if slot == 2 then 0 else d.strandWord slot % 256)
  d.put Reg.HDL_STATUS_STAGE 6

/-- A flash slot's bytes: as many as its bundle's LENGTH field says. -/
def Dev.flashSlot (d : Dev) (slot : Nat) : List Byte :=
  let f := if slot == 0 then d.boot.flashA else d.boot.flashB
  f.take (leAt f 8 4)

/-- The slots that hold a bundle, the higher SEQ first, A first when equal (R441). -/
def Dev.bootOrder (d : Dev) : List Nat :=
  let a := d.strandWord 0 / 256
  let b := d.strandWord 1 / 256
  (if b > a then [1, 0] else [0, 1]).filter (fun s => d.strandWord s / 256 > 0)

/-- The choice of R441 over the slots left; first says that no slot has been tried; readErr names slots whose copy fails
(cause 8). -/
def Dev.bootTry (d : Dev) (readErr : Nat) (first : Bool) : List Nat → Dev
  | [] => d.put Reg.HDL_STATUS_STAGE 0x0E
  | s :: r =>
    if first && d.strandWord s % 256 ≥ 3 then (d.bootReject s 7).bootTry readErr false r
    else if readErr.testBit s then (d.bootReject s 8).bootTry readErr false r
    else match d.verifyBundle (d.flashSlot s) with
      | some c => (d.bootReject s c).bootTry readErr false r
      | none => d.bootBundle s (d.flashSlot s) (!first)

/-- BOOT_SELECT (R441): at stage SELECT with the flash as source; readErr bit s says that slot s could not be read. -/
def execBootSelect (readErr : BitVec 2) (s : State) : Host.Outcome State Fault Refusal :=
  s.run fun d => d.when (d.rd Reg.HDL_STATUS_STAGE == 3 && !d.boot.bootSrc) fun d =>
    d.bootTry readErr.toNat true d.bootOrder

/-! Transfers and updates (R440, R442, R449) -/

/-- Whether a transfer of an OP may start in the present stage (R440, R442, R449): OP 0 at SELECT with the host as source,
or in RECOVERY; OP 1 and 2 in RECOVERY or once the device runs. -/
def Dev.xferStageOk (d : Dev) (op : Nat) : Bool :=
  let st := d.rd Reg.HDL_STATUS_STAGE
  if op == 0 then (st == 3 && d.boot.bootSrc) || st == 0x0E
  else op < 3 && (st == 0x0E || st == 8)

/-- HDL_XFER_CTL with GO: the checks before a transfer; none when it may start. -/
def Dev.xferCheck (d : Dev) (op len : Nat) : Option Nat :=
  if !d.xferStageOk op then some 1
  else if len < 64 || 67108864 < len then some 4
  else none

/-- The steward's fields of HDL_XFER_CTL are stored with the GO. -/
def Dev.xferFields (d : Dev) (op len : Nat) : Dev := (d.store Reg.HDL_XFER_CTL_OP op).store Reg.HDL_XFER_CTL_LENGTH len

/-- OP 0 (R440): the bundle that the host returned is verified and booted. No bundle means that the host read failed
(RESULT 3), as it does where PF0 of link A may not issue requests. -/
def Dev.xferHostBoot (d : Dev) (ag : Agent) (len : Nat) (bundle : Option (List Byte)) : Dev :=
  if ag != .steward then d.discarded ag 0xA00048
  else if d.bit Reg.HDL_XFER_CTL_BUSY then d
  else
    let d := d.xferFields 0 len
    match d.xferCheck 0 len, (if d.mayIssue 0 then bundle else none) with
    | some r, _ => d.put Reg.HDL_XFER_CTL_RESULT r
    | none, none => d.put Reg.HDL_XFER_CTL_RESULT 3
    | none, some b =>
      match d.verifyBundle (b.take len) with
      | some c => (d.bootReject 2 c).put Reg.HDL_XFER_CTL_RESULT 2
      | none => (d.bootBundle 2 (b.take len) false).put Reg.HDL_XFER_CTL_RESULT 0

/-- XFER_HOST_BOOT. -/
def execXferHostBoot (ag : Agent) (length : BitVec 28) (bundle : Option (List Byte)) (s : State) :
    Host.Outcome State Fault Refusal :=
  s.run fun d => d.xferHostBoot ag length.toNat bundle

/-- OP 1 or 2 (R449): the bundle at the device-memory ADDR joins the updates, in order of sampling. -/
def Dev.xferUpdate (d : Dev) (ag : Agent) (op len : Nat) : Dev :=
  if ag != .steward then d.discarded ag 0xA00048
  else if d.bit Reg.HDL_XFER_CTL_BUSY then d
  else
    let d := d.xferFields op len
    match d.xferCheck op len with
    | some r => d.put Reg.HDL_XFER_CTL_RESULT r
    | none =>
      let u : Update := ⟨.xfer, d.bytes (d.inF Reg.HDL_XFER_ADDR) len, op == 2⟩
      { d with boot := { d.boot with updates := d.boot.updates ++ [u] } }.put Reg.HDL_XFER_CTL_BUSY 1

/-- XFER_WRITE_SLOT: OP 1. -/
def execXferWriteSlot (ag : Agent) (length : BitVec 28) (s : State) : Host.Outcome State Fault Refusal :=
  s.run fun d => d.xferUpdate ag 1 length.toNat

/-- XFER_WRITE_AND_MARK: OP 2. -/
def execXferWriteAndMark (ag : Agent) (length : BitVec 28) (s : State) : Host.Outcome State Fault Refusal :=
  s.run fun d => d.xferUpdate ag 2 length.toNat

/-- The slot an update writes (R449): the one not running; after a host boot the one with the lower SEQ, B on a tie. -/
def Dev.inactiveSlot (d : Dev) : Nat :=
  let a := d.rd Reg.HDL_STATUS_ACTIVE_SLOT
  if a == 0 then 1 else if a == 1 then 0
  else if d.strandRead 0 / 256 < d.strandRead 1 / 256 then 0 else 1

/-- The steps of an update (R449): verify; write the slot's word 0; program and compare; with the mark, the word takes the
next SEQ. The RESULT is 0, 2 or 5. -/
def Dev.runUpdate (d : Dev) (u : Update) (flashOk : Bool) : Dev × Nat :=
  match d.verifyBundle u.bundle with
  | some _ => (d, 2)
  | none =>
    let slot := d.inactiveSlot
    let top := max (d.strandRead 0 / 256) (d.strandRead 1 / 256)
    let d := d.headlandStrand slot 0
    let d := if slot == 0 then { d with boot := { d.boot with flashA := u.bundle } }
      else { d with boot := { d.boot with flashB := u.bundle } }
    if !flashOk then (d, 5)
    else if u.mark then (d.headlandStrand slot ((top + 1) * 256), 0) else (d, 0)

/-- Power is lost while the first update runs: whether its second step, the slot's word 0, has been taken is free. A slot whose word is
0 holds no bundle, whatever has been programmed (R441, R449). -/
def Dev.updateCut (d : Dev) : Dev :=
  match d.boot.updates with
  | [] => d
  | u :: _ =>
    if (d.verifyBundle u.bundle).isSome then d
    else
      let (k, d) := d.draw 1
      let slot := d.inactiveSlot
      if k == 0 then d
      else
        let d := d.strandPersist { word := slot, value := 0, engine := false }
        { d with boot := { d.boot with
            flashA := if slot == 0 then [] else d.boot.flashA
            flashB := if slot == 0 then d.boot.flashB else [] } }

/-- The end of an update for HDL_XFER_CTL: RESULT and BUSY, and UPDATE_FAIL is logged for a failure (Table 17.4). -/
def Dev.updateResult (d : Dev) (u : Update) (r : Nat) : Dev :=
  let d := if u.src == .xfer then (d.put Reg.HDL_XFER_CTL_RESULT r).put Reg.HDL_XFER_CTL_BUSY 0 else d
  if r == 0 then d else d.report { source := 0x050, kind := 0x36, sev := 0, detail := r }

/-! Start and confirmation (R434, R443, R444, R450) -/

/-- CONFIRM (R450): the booted slot's TRIES becomes 0 and BOOT_CONFIRMED sets; after a host boot only the latter. -/
def Dev.confirm (d : Dev) (ag : Agent) : Dev :=
  if ag != .steward then d.discarded ag 0xA00038
  else
    let a := d.rd Reg.HDL_STATUS_ACTIVE_SLOT
    let d := d.put Reg.HDL_STATUS_BOOT_CONFIRMED 1
    if a < 2 then (d.headlandStrand a (d.strandRead a / 256 * 256)).put Reg.HDL_BOOT_TRIES 0 else d

/-- CONFIRM. -/
def execConfirm (ag : Agent) (s : State) : Host.Outcome State Fault Refusal := s.run fun d => d.confirm ag

/-- KEY_LOCK (R444): written by Headland at the end of CONFIGURE; stage LOCKED follows. In force from the next tick. -/
def Dev.keyLock (d : Dev) (ag : Agent) : Dev :=
  if ag != .headland then d.discarded ag 0xA00008
  else
    let d := d.store Reg.HDL_CONTROL_KEY_LOCK 1
    if d.rd Reg.HDL_STATUS_STAGE == 6 then d.put Reg.HDL_STATUS_STAGE 7 else d

/-- KEY_LOCK. -/
def execKeyLock (ag : Agent) (s : State) : Host.Outcome State Fault Refusal := s.run fun d => d.keyLock ag

/-- RELEASE_GO (R443): the steward ends LOCKED under WAIT_STEWARD. -/
def Dev.releaseGo (d : Dev) (ag : Agent) : Dev :=
  if ag != .steward then d.discarded ag 0xA00038
  else { d with boot := { d.boot with releaseGo := true } }

/-- RELEASE_GO. -/
def execReleaseGo (ag : Agent) (s : State) : Host.Outcome State Fault Refusal := s.run fun d => d.releaseGo ag

/-- HOLDUP_WARN_ARMED (R473): the pin read high for 1 ms after reset and is armed. -/
def execHoldupWarnArmed (s : State) : Host.Outcome State Fault Refusal :=
  s.run fun d => { d with boot := { d.boot with holdArmed := true, holdLow := false } }

end Sys2Proof.Machine
end

