-- ==== Sys2Proof/Machine/Monitors.lean ====
section
/-! DEFINITION. Latency records, snapshots, queue monitors, BIST, pin checks, the management endpoint and the TAP
(chapter 18). -/

namespace Sys2Proof.Machine

open Sys2Proof

/-! Latency records (R462 to R467) -/

/-- floor(log2 v) for v > 0, by halving. -/
def log2 (v : Nat) : Nat := v.log2

/-- The bin of a value (R464). -/
def latBin (v : Nat) : Nat :=
  if v < 64 then 0
  else min 63 (4 * (log2 v - 6) + v / 2 ^ (log2 v - 2) % 4)

/-- The lower edge of bin b (R464). -/
def lowerEdge (b : Nat) : Nat := if b == 0 then 0 else (4 + b % 4) * 2 ^ (4 + b / 4)

/-- Bins count to 2^32 − 1 and stay there (R464). -/
def binUp (t : Tab Nat) (b : Nat) : Tab Nat := Tab.upd 0 t b (fun n => min (n + 1) (2 ^ 32 - 1))

/-- The key of a set: type 0 tenant, 1 kind, 2 queue monitor; type 3 acts as 0 (Table 18.5). -/
def setKey (type index : Nat) : Nat := (if type == 3 then 0 else type) * 4096 + index

/-- The latency fields of a set take a latency (R463). -/
def LatSet.latency (x : LatSet) (l : Nat) : LatSet :=
  { x with count := x.count + 1, sum := x.sum + l, maxV := max x.maxV l, minV := min x.minV l,
           latBins := binUp x.latBins (latBin l) }

/-- A set takes a record with a margin (R463). -/
def LatSet.margin (x : LatSet) (m : Int) (envLate : Bool) : LatSet :=
  if envLate then { x with envLate := min (x.envLate + 1) (2 ^ 32 - 1) }
  else if m < 0 then { x with late := min (x.late + 1) (2 ^ 32 - 1) }
  else { x with minMargin := min x.minMargin m, marginBins := binUp x.marginBins (latBin m.toNat) }

/-- An epoch set takes a margin (R467): a record with ENV_LATE contributes none. -/
def EpochSet.margin (x : EpochSet) (m : Int) (envLate : Bool) : EpochSet :=
  if envLate then x
  else if m < 0 then { x with count := x.count + 1, late := x.late + 1, minLate := min x.minLate m }
  else { x with count := x.count + 1, bins := binUp x.bins (latBin m.toNat) }

/-- A latency record (R462 to R465): its tenant set and, for classes 0 to 2, its kind set and epoch set; a Slack record
updates latency fields only. -/
def Dev.latencyRecord (d : Dev) (tid cls kind : Nat) (lat margin : Int) (envLate : Bool) : Dev :=
  let l := lat.toNat % 2 ^ 32
  let upTenant (x : LatSet) : LatSet := if cls == 3 then x.latency l else (x.latency l).margin margin envLate
  let d := { d with mon := { d.mon with sets := Tab.upd {} d.mon.sets (setKey 0 (tid * 4 + cls)) upTenant } }
  if cls == 3 then d
  else { d with mon := { d.mon with
      sets := Tab.upd {} d.mon.sets (setKey 1 (cls * 8 + kind)) (fun x => (x.latency l).margin margin envLate)
      epoch := Tab.upd {} d.mon.epoch cls (fun x => x.margin margin envLate) } }

/-- The running count of R467 over bins: the first bin at which it reaches n, for at most fuel bins. -/
def p01Bin (bins : Tab Nat) (n : Nat) : Nat → Nat → Nat → Nat
  | 0, _, b => b
  | fuel + 1, c, b => if c + Tab.get 0 bins b < n then p01Bin bins n fuel (c + Tab.get 0 bins b) (b + 1) else b

/-- P01 of an epoch set (R467). -/
def EpochSet.p01 (x : EpochSet) : Int :=
  let n := (x.count + 99) / 100
  if x.count == 0 then 0
  else if x.late ≥ n then x.minLate
  else lowerEdge (p01Bin x.bins n 63 x.late 0)

/-- EPOCH_MARGIN_CLOSE (R467): P01 and COUNT of each class, and the sets clear. -/
def Dev.closeEpochSets (d : Dev) : Dev :=
  let d := d.each [0, 1, 2] (fun d c =>
    let x := Tab.get {} d.mon.epoch c
    (d.put (Reg.MON_GOV_P01 c) (wrap 32 x.p01)).put (Reg.MON_GOV_GOV_COUNT c) (min x.count (2 ^ 32 - 1)))
  { d with mon := { d.mon with epoch := [] } }

/-! Snapshots (R466) -/

/-- A SNAP write: the buffer is not ready until the copy lands at the end of the tick. CLEAR without SNAP does nothing
(DEDUCED: CLEAR acts in the step of a SNAP). -/
def Dev.snap (d : Dev) (ag : Agent) (snap clear : Bool) (buf : Nat) : Dev :=
  d.byRight ag 0xC00008 fun d =>
    if !snap then d
    else
      let r : SnapReq := ⟨buf, d.inF Reg.MON_SET_SELECT_SET_TYPE, d.inF Reg.MON_SET_SELECT_SET_INDEX, clear⟩
      { d with mon := { d.mon with
          snaps := d.mon.snaps ++ [r]
          bufs := Tab.upd {} d.mon.bufs buf (fun b => { b with ready := false }) } }

/-- SNAP. -/
def execSnap (ag : Agent) (buf : BitVec 2) (s : State) : Host.Outcome State Fault Refusal :=
  s.run fun d => d.snap ag true false buf.toNat

/-- SNAP_CLEAR. -/
def execSnapClear (ag : Agent) (buf : BitVec 2) (s : State) : Host.Outcome State Fault Refusal :=
  s.run fun d => d.snap ag true true buf.toNat

/-- One copy lands at the end of its tick, after every record of the tick; CLEAR returns the set to its reset values. -/
def Dev.landSnap (d : Dev) (r : SnapReq) : Dev :=
  let k := setKey r.setType r.setIndex
  let b : SnapBuf := ⟨true, r.setType, r.setIndex, d.short, Tab.get {} d.mon.sets k⟩
  { d with mon := { d.mon with
      bufs := Tab.set {} d.mon.bufs r.buf b
      sets := if r.clear then Tab.set {} d.mon.sets k {} else d.mon.sets } }

/-- The copies of a tick, at its end. -/
def Dev.landSnaps (d : Dev) : Dev :=
  d.mon.snaps.foldl Dev.landSnap { d with mon := { d.mon with snaps := [] } }

/-! Queue monitors (R468) -/

/-- A monitor takes a sample: delay as the latency, and the depth. -/
def LatSet.sample (x : LatSet) (depth delay : Nat) : LatSet :=
  let y := x.latency delay
  { y with envLate := max x.envLate depth, late := if x.count == 0 then depth else min x.late depth }

/-- QUEUE_MONITOR_BIND (R468): the binding of a monitor changes, and it returns to its reset values. -/
def Dev.bindMonitor (d : Dev) (ag : Agent) (m : Nat) (enable : Bool) (qtype qindex : Nat) : Dev :=
  d.byRight ag 0xC00068 fun d =>
    let old := (d.rd (Reg.MON_QMON_ENABLE m), d.rd (Reg.MON_QMON_QTYPE m), d.rd (Reg.MON_QMON_QINDEX m))
    let d := ((d.store (Reg.MON_QMON_ENABLE m) (if enable then 1 else 0)).store (Reg.MON_QMON_QTYPE m) qtype).store
      (Reg.MON_QMON_QINDEX m) qindex
    if d.rd (Reg.MON_QMON_ENABLE m) == old.1 && d.rd (Reg.MON_QMON_QTYPE m) == old.2.1 && d.rd (Reg.MON_QMON_QINDEX m) == old.2.2 then d
    else { d with mon := { d.mon with sets := Tab.set {} d.mon.sets (setKey 2 m) {} } }

/-- QUEUE_MONITOR_BIND. -/
def execQueueMonitorBind (ag : Agent) (monitor : BitVec 10) (enable : Bool) (qtype : BitVec 4) (qindex : BitVec 24)
    (s : State) : Host.Outcome State Fault Refusal :=
  s.run fun d => d.bindMonitor ag monitor.toNat enable qtype.toNat qindex.toNat

/-! BIST (R469, R470) -/

/-- Whether a target's condition holds (Table 18.1). -/
def Dev.bistAllowed (d : Dev) (target : Nat) : Bool :=
  if target < 16 then d.bit (Reg.SHL_STATUS_DRAINED target) && d.bit (Reg.SHL_STATUS_IN_RESET target)
  else (target ≤ 0x17 || target == 0x1F) && d.boot.testMode && !d.released

/-- BIST_START (R470): only the steward; refused when the condition fails, when BUSY is 1 or for a target not listed. -/
def Dev.bistStart (d : Dev) (ag : Agent) (target : Nat) : Dev :=
  if ag != .steward then d.discarded ag 0xC00080
  else
    let d := d.store Reg.MON_BIST_TARGET target
    if d.mon.bist.isSome || !d.bistAllowed target then (d.raise Reg.MON_BIST_BIST_REFUSED).checkRefused ag 0xC00080
    else ({ d with mon := { d.mon with bist := some target } }.put Reg.MON_BIST_BUSY 1).put Reg.MON_BIST_RUNNING_TARGET target

/-- BIST_START. -/
def execBistStart (ag : Agent) (target : BitVec 5) (s : State) : Host.Outcome State Fault Refusal :=
  s.run fun d => d.bistStart ag target.toNat

/-- The signature of one target is recorded: SIG, PASS and TESTED (R470). -/
def Dev.bistRecord (d : Dev) (target : Nat) (sig : BitVec 128) : Dev :=
  let d := (d.put (Reg.MON_SIG_SIG target 0) (sig.toNat % 2 ^ 64)).put (Reg.MON_SIG_SIG target 1) (sig.toNat / 2 ^ 64)
  let pass := d.rd Reg.MON_BIST_PASS
  let d := d.put Reg.MON_BIST_PASS (if sig == Config.bistExpect target then pass ||| 2 ^ target
    else pass - (if pass.testBit target then 2 ^ target else 0))
  d.put Reg.MON_BIST_TESTED (d.rd Reg.MON_BIST_TESTED ||| 2 ^ target)

/-! Pin checks (R472) -/

/-- The kinds of watched pin (Table 18.2). -/
inductive PinKind where | output | toggling | idleHigh | present | reference | unlisted
deriving DecidableEq, Repr

/-- The kind of the pin at an index (Table 18.2). -/
def pinKind (i : Nat) : PinKind :=
  if i == 0 || i == 2 then .toggling
  else if i == 1 then .output
  else if i == 3 || i == 4 || i == 5 then .idleHigh
  else if 8 ≤ i && i < 72 then
    let j := (i - 8) % 8
    if j < 2 || j == 5 || j == 6 then .output
    else if j == 2 then .present
    else if j == 3 || j == 4 then .idleHigh
    else .unlisted
  else if 80 ≤ i && i < 84 then .reference
  else .unlisted

/-- A check's result: a change of FAULT sets SEEN and raises the interrupt (R472). -/
def Dev.pinResult (d : Dev) (i fault : Nat) : Dev :=
  if !d.on (Reg.MON_PIN_ENABLE i) || d.rd (Reg.MON_PIN_FAULT i) == fault then d
  else ((d.put (Reg.MON_PIN_FAULT i) fault).raise (Reg.MON_PIN_SEEN i)).mgmt .mon

/-- PIN_DRIVE_MISMATCH (R472): an output that did not show its driven level for 1 µs. -/
def execPinDriveMismatch (pin : BitVec 7) (drivenHigh : Bool) (s : State) : Host.Outcome State Fault Refusal :=
  s.run fun d => d.when (pinKind pin.toNat == .output) fun d => d.pinResult pin.toNat (if drivenHigh then 2 else 3)

/-- The result of a bias test (R472, Table 18.2): a pin that follows both pulls is OPEN; the shorts that the pin's row
lists are those it stays at past its limit. -/
def biasResult (k : PinKind) (staysLow staysHigh : Bool) : Nat :=
  match k with
  | .toggling => if staysLow then 2 else if staysHigh then 3 else 1
  | .idleHigh => if staysLow then 2 else if staysHigh then 0 else 1
  | .present => if staysLow || staysHigh then 0 else 1
  | .output | .reference | .unlisted => 0

/-- REFCLK_POLARITY_CHECK (R472): a pair that lags half a period is REVERSED. -/
def execRefclkPolarityCheck (pair : BitVec 2) (reversed : Bool) (s : State) : Host.Outcome State Fault Refusal :=
  s.run fun d => d.pinResult (80 + pair.toNat) (if reversed then 4 else 0)

/-! The management endpoint (R475) -/

/-- SET_ENDPOINT_ID (R475): binding 0 SMBus and I3C, 1 link A, 2 link B; answered from the end of stage SELFTEST. -/
def execSetEndpointId (binding : Fin 3) (eid : BitVec 8) (s : State) : Host.Outcome State Fault Refusal :=
  s.run fun d => d.when (d.rd Reg.HDL_STATUS_STAGE != 1) fun d =>
    { d with mon := { d.mon with eids := Tab.set 0 d.mon.eids binding.val eid.toNat } }

/-- ENTDAA (R475): the endpoint takes a dynamic address and moves to I3C. -/
def execEntdaa (address : BitVec 7) (s : State) : Host.Outcome State Fault Refusal :=
  s.run fun d => d.when (d.rd Reg.HDL_STATUS_STAGE != 1) fun d =>
    { d with mon := { d.mon with i3c := some address.toNat } }

/-- RSTDAA (R475): the endpoint returns to SMBus. -/
def execRstdaa (s : State) : Host.Outcome State Fault Refusal :=
  s.run fun d => { d with mon := { d.mon with i3c := none } }

/-- The 7-bit SMBus address: 0x30 + the OOB_ADDR strap (R475). -/
def Dev.smbusAddress (d : Dev) : Nat := 0x30 + d.boot.oobAddr

/-! The TAP (R477, R478) -/

/-- The TAP takes an instruction; those that need test mode load as BYPASS in functional mode (R478). -/
def Dev.tapLoad (d : Dev) (i : TapInstr) (needsTest : Bool) : Dev :=
  { d with mon := { d.mon with tap := { d.mon.tap with instr := if needsTest && !d.boot.testMode then .bypass else i } } }

/-- IDCODE's value (R477). -/
def idcodeValue : Nat := 1 * 2 ^ 28 + 0xA932 * 2 ^ 12 + Config.jedecId.toNat * 2 + 1

/-- EXTEST: in test mode the outputs are driven from the boundary register. -/
def execExtest (s : State) : Host.Outcome State Fault Refusal := s.run fun d => d.tapLoad .extest true
/-- CLAMP: in test mode the outputs hold the boundary register's levels. -/
def execClamp (s : State) : Host.Outcome State Fault Refusal := s.run fun d => d.tapLoad .clamp true
/-- HIGHZ: in test mode the outputs float. -/
def execHighz (s : State) : Host.Outcome State Fault Refusal := s.run fun d => d.tapLoad .highz true
/-- EXTEST_PULSE: the AC-coupled lanes are tested with a pulse, in test mode. -/
def execExtestPulse (s : State) : Host.Outcome State Fault Refusal := s.run fun d => d.tapLoad .extestPulse true
/-- EXTEST_TRAIN: the AC-coupled lanes are tested with a train, in test mode. -/
def execExtestTrain (s : State) : Host.Outcome State Fault Refusal := s.run fun d => d.tapLoad .extestTrain true
/-- IDCODE selects the identification register. -/
def execIdcode (s : State) : Host.Outcome State Fault Refusal := s.run fun d => d.tapLoad .idcode false
/-- BYPASS selects the one-bit bypass register. -/
def execBypass (s : State) : Host.Outcome State Fault Refusal := s.run fun d => d.tapLoad .bypass false

/-- SAMPLE/PRELOAD: the pins' levels are sampled and the boundary register is preloaded (IEEE 1149.1). -/
def execSamplePreload (pins preload : Nat) (s : State) : Host.Outcome State Fault Refusal :=
  s.run fun d =>
    let d := d.tapLoad .samplePreload false
    { d with mon := { d.mon with tap := { d.mon.tap with boundary := preload, sampled := pins } } }

/-- TAP_RESET: the TAP returns to IDCODE, as IEEE 1149.1 gives; the device is not reset (R477). -/
def execTapReset (s : State) : Host.Outcome State Fault Refusal := s.run fun d => d.tapLoad .idcode false

end Sys2Proof.Machine
end

