-- ==== Sys2Proof/Machine/Work.lean ====
section
/-! DEFINITION. Operations at work: decisions becoming visible, completions and their accounts, host reads, and the
serving of work items on the engines (chapters 03, 04 and 15). -/

namespace Sys2Proof.Machine

open Sys2Proof

/-! Operations -/

/-- The operation with a number. -/
def Dev.op? (d : Dev) (id : Nat) : Option Op := d.ops.find? (fun o => o.req.id == id)
/-- Change an operation. -/
def Dev.updOp (d : Dev) (id : Nat) (f : Op → Op) : Dev :=
  { d with ops := d.ops.map (fun o => if o.req.id == id then f o else o) }
/-- Do something with an operation that is still there and has not ended. -/
def Dev.withOp (d : Dev) (id : Nat) (f : Dev → Op → Dev) : Dev :=
  match d.op? id with
  | some o => if o.ended then d else f d o
  | none => d

/-- Which operation: its number. -/
def Op.id (o : Op) : Nat := o.req.id

/-- The KIND of a completion (Table 3.9) by contract kind. -/
def complKind (kind : Nat) : Nat :=
  match kind with
  | 2 => 7 | 4 => 8 | 5 => 4 | 6 => 5 | 7 => 6 | n => n % 16

/-- Whether a storage command waits at a stage: before stage 4 until the storage layer sends it, and before stage 5 until its
backend, or the commands it waits for, have answered. -/
def stWaits (kind : Nat) (no : Option Nat) : Bool := kind == 6 && (no == some 4 || no == some 5)

/-- Where an operation's completion goes: a ring of a tenant, an NVMe queue, a thread's channel, or nowhere. -/
inductive Dest where
  | ring (tid ring : Nat)
  | nvme (sq cid : Nat)
  | book (thread channel token : Nat)
  | nowhere
deriving DecidableEq, Repr

/-- The completion ring bound to a submission ring (QTYPE 0) or receive queue (QTYPE 2). -/
def Dev.boundRing (d : Dev) (tid qtype n : Nat) : Nat := d.inF (Reg.TEN_Q_BIND tid (qKey qtype n))

/-- The destination of a request's completion. -/
def Dev.reqDest (d : Dev) (q : Req) : Dest :=
  match q.org with
  | .ring r _ => .ring q.tid (d.boundRing q.tid 0 r)
  | .nvme sq cid => .nvme sq cid
  | .book t c k => .book t c k
  | .sub _ _ _ | .wire _ => .nowhere

/-- The destination of an operation's completion: for what came by the wire, the ring of its receive queue. -/
def Dev.opDest (d : Dev) (o : Op) : Dest :=
  match o.dest with
  | some (tid, rq) => .ring tid (d.boundRing tid 2 rq)
  | none => d.reqDest o.req

/-- The submission queue head that a completion reports. -/
def Req.sqHead (q : Req) : Nat :=
  match q.org with
  | .ring _ h => h
  | .nvme _ _ | .book _ _ _ | .sub _ _ _ | .wire _ => 0

/-! NVMe statuses (Table 13.6) -/

/-- The status of a REFUSED_CLASS 0x0004 by its cause. -/
def Dev.nvMalformed (d : Dev) (q : Req) : Nat :=
  if q.kind != 6 then nvStatus 0 0x01 1
  else if !d.nsOk q then nvStatus 0 0x0B 1
  else if !d.lbasOk q || (q.code == 9 && d.wellFormed q) then nvStatus 0 0x80 1
  else nvStatus 0 0x02 1

/-- A device status as NVMe reports it. -/
def Dev.nvMap (d : Dev) (q : Req) (status detail : Nat) : Nat :=
  match status with
  | 0x00 => 0
  | 0x01 => nvStatus 7 1 0
  | 0x02 => nvStatus 7 2 0
  | 0x03 => if detail == 1 || detail == 3 then nvStatus 7 3 1 else if detail == 4 then d.nvMalformed q else nvStatus 0 2 1
  | 0x04 => nvStatus 0 0x82 0
  | 0x05 => nvStatus 7 5 0
  | 0x20 => nvStatus 0 (if detail == 8 then 8 else 7) 0
  | 0x21 => nvStatus 0 4 0
  | 0x31 => nvStatus 7 0x31 1
  | 0x41 => nvStatus 0 6 0
  | 0x60 => if detail == 1 && q.code != 2 then nvStatus 2 0x80 1 else if detail == 1 || detail == 3 then nvStatus 2 0x81 1
            else nvStatus 0 6 0
  | _ => nvStatus 2 0x81 1

/-- Whether an NVMe submission queue has a completion queue to post to: both exist, and the function may write. -/
def Dev.nvmePosts (d : Dev) (tid sq : Nat) : Bool :=
  d.queuesLive tid && (d.nvSq tid sq).size != 0 && (d.nvCq tid (d.nvSq tid sq).cq).size != 0

/-- Whether an NVMe completion must wait behind others, or for room, at its queue. -/
def Dev.nvmeBusy (d : Dev) (tid sq : Nat) : Bool :=
  !d.nvmeRoom tid sq || d.host.waitingNvme.any (fun x => x.tid == tid && (d.nvSq x.tid x.sq).cq == (d.nvSq tid sq).cq)

/-- Queue a completion at its NVMe queue. -/
def Dev.waitNvme (d : Dev) (w : WaitingNvme) : Dev := { d with host := { d.host with waitingNvme := d.host.waitingNvme ++ [w] } }

/-- Post an NVMe completion: written, waiting for room, or not posted where the controller cannot. -/
def Dev.postNvme (d : Dev) (w : WaitingNvme) : Dev :=
  if !d.queuesLive w.tid then d.lostCompletion w.tid
  else if !d.nvmePosts w.tid w.sq then d
  else if d.nvmeBusy w.tid w.sq then d.waitNvme w
  else d.writeNvme w

/-! Delivery: its account (R70, R76, R77, R462) -/

/-- Whether an operation is late at a time. -/
def Op.lateAt (o : Op) (t : Nat) : Bool := !o.slack && o.promise < t

/-- The flags of an operation's completion delivered at a time (R76, R92). -/
def Op.flags (o : Op) (t : Nat) : Nat :=
  o.rxFlags + (if o.lateAt t && o.envFail then flagEnvLate else 0) + (if o.tagFail then flagTagFail else 0) +
    (if o.slack then flagSlack else 0) + (if o.rebased then flagRebased else 0)

/-- The counter that a delivery makes: ENV_LATE, BROKEN, or none (R76, R77). -/
def Op.lateCount (o : Op) (t : Nat) : Option Nat :=
  if o.lateAt t then some (if o.envFail then 6 else 7) else none

/-- A broken promise is logged as an uncorrectable fault that names the operation (R77). -/
def Dev.reportBroken (d : Dev) (o : Op) : Dev :=
  d.report { source := 0x030, subsrc := (d.activeUnit.getD (d.pair.draining.getD 0)), kind := 0x21, sev := 2,
             tid := some o.req.tid, detail := o.entry.getD 0 }

/-- The delivery event of an operation at time t: latency record, counters, entry freed. -/
def Dev.account (d : Dev) (o : Op) (t : Nat) : Dev :=
  let late := o.lateCount t
  let d := if late == some 7 then d.reportBroken o else d
  let d := d.latencyRecord o.req.tid (if o.slack then 3 else o.req.cls) o.req.kind ((t : Int) - o.admitted) ((o.promise : Int) - t)
    (late == some 6)
  d.input (.close o.id late)

/-- BYTE_COUNT (R505): what the operation carried; a storage command that completes with OK reports its length. -/
def Op.bytes (o : Op) : Nat := if o.req.kind == 6 && o.status == 0 then o.req.desc.length.toNat else o.carried

/-- The completion of an operation delivered at time t. -/
def Op.compl (o : Op) (t : Nat) : Compl :=
  { tag := if o.req.kind == 2 then o.postIndex else o.req.desc.tag.toNat, status := o.status, kind := complKind o.req.kind,
    cls := if o.slack then 3 else o.req.cls, flags := o.flags t, detail := o.detail, admitted := o.admitted,
    promise := if o.slack then 0 else o.promise, delivered := t, bytes := o.bytes, tid := o.req.tid,
    sqHead := o.req.sqHead, aux := o.aux }

/-- Whether the completion write is the operation's delivery event (Table 3.1). -/
def Op.deliveredByWrite (o : Op) : Bool := o.req.kind == 2 || o.req.kind == 4 || o.req.kind == 6 || o.req.kind == 7

/-- An operation leaves: at once, or once the engine steps it has started end. -/
def Dev.dropOp (d : Dev) (id : Nat) : Dev :=
  let os := d.ops.map (fun o => if o.req.id == id then
    { o with ended := true, plan := [], going := o.going.filter (fun r => r.kind != 1) } else o)
  { d with ops := os.filter (fun o => !(o.ended && o.going.isEmpty)) }

/-- Late reads of an operation are absorbed when they return (R396). -/
def Dev.absorbReads (d : Dev) (id : Nat) : Dev :=
  let mark (r : HostRead) : HostRead := match r.use with
    | .data i _ => if i == id then { r with absorbed := true } else r
    | .descs _ _ _ | .entries _ _ _ | .thread _ _ | .mover _ _ | .resp _ _ => r
  { d with host := { d.host with
      reads := d.host.reads.map mark
      readQ := d.host.readQ.filter (fun r => match r.use with
        | .data i _ => i != id
        | .descs _ _ _ | .entries _ _ _ | .thread _ _ | .mover _ _ | .resp _ _ => true) } }

/-- An assumption of an operation has failed (R76): its booked slots that have not passed are released. -/
def Dev.failAssumption (d : Dev) (id : Nat) : Dev :=
  d.withOp id fun d o =>
    if o.slack then d
    else (d.updOp id (fun o => { o with envFail := true, booked := [] })).input (.releaseFuture id)

/-- The NVMe timing record of an operation (R392). -/
def Op.timing (o : Op) (sq cid t : Nat) : List Nat :=
  [cid % 65536 * 65536 + sq % 256 * 256 + (if o.rebased then 8 else 0) + (if o.slack then 4 else 0) +
     (if o.lateAt t && o.envFail then 2 else 0), o.admitted % 2 ^ 32, (if o.slack then 0 else o.promise) % 2 ^ 32, t % 2 ^ 32]

/-- A completion to a ring that has room, that waits, or that cannot be written. -/
def Dev.ringLive (d : Dev) (tid ring : Nat) : Bool := d.queuesLive tid && d.ringOn tid (qKey 1 ring)

/-- Whether a completion must wait behind others, or for room, at its ring. -/
def Dev.ringBusy (d : Dev) (tid ring : Nat) : Bool :=
  d.ringFull tid (qKey 1 ring) || d.host.waiting.any (fun w => w.tid == tid && w.ring == ring)

/-- Queue a completion at its ring. -/
def Dev.waitRing (d : Dev) (tid ring : Nat) (w : Waiting) : Dev :=
  { d with host := { d.host with waiting := d.host.waiting ++ [⟨tid, ring, w⟩] } }

/-- Write words to a ring, or let them wait, or lose them. -/
def Dev.sendWords (d : Dev) (tid ring : Nat) (words : List Nat) (interrupt : Bool) : Dev :=
  if !d.ringLive tid ring then d.lostCompletion tid
  else if d.ringBusy tid ring then d.waitRing tid ring (.words words interrupt)
  else d.writeRing tid ring words interrupt

/-- An operation's delivery by its completion write, now. -/
def Dev.deliverWrite (d : Dev) (o : Op) : Dev :=
  let t := d.clk.tide
  let d := (d.account o t).dropOp o.id
  let d := if o.req.kind == 6 then d.bump (Reg.STG_CNT_COUNT 0) else d
  match d.opDest o with
  | .ring tid ring => if d.ringLive tid ring then d.writeRing tid ring (o.compl t).words o.req.desc.interrupt else d.lostCompletion tid
  | .nvme sq cid =>
    let w : WaitingNvme :=
      { tid := o.req.tid, sq := sq, cid := cid, status := d.nvMap o.req o.status o.detail, timing := some (o.timing sq cid t) }
    let d := { d with host := { d.host with doneNow := d.host.doneNow ++ [(o.req.tid, sq, cid)] } }
    if d.nvmePosts w.tid sq && d.nvmeRoom w.tid sq then d.writeNvme w else d.postNvme w
  | .book _ ch _ => d.unitPost (unitEnd 0x030) ch (pairWords (o.compl t).words)
  | .nowhere => d

/-- The header of an engine's reply (Table 8.8). -/
def replyHeader (token status result engine arg : Nat) : Nat :=
  token % 65536 * 2 ^ 48 + status % 256 * 2 ^ 40 + result % 256 * 2 ^ 32 + engine * 2 ^ 28 + arg % 2 ^ 28

/-- A cipher command of a thread ends with its reply (R380): the operation's aux names the engine, and its admitted time
when the engine started it. -/
def Dev.endSub (d : Dev) (o : Op) (thread channel token : Nat) : Dev :=
  let e := o.aux
  let result := if o.status == 3 then o.detail else if o.status == 0x30 || o.status == 0x31 then o.detail % 256 else 0
  let w0 := replyHeader token o.status result 3 (min o.carried (2 ^ 28 - 1))
  let w1 := (if o.status == 3 then 0 else o.admitted % 2 ^ 32) * 2 ^ 32 + d.clk.tide % 2 ^ 32
  (d.unitPost (shoalEnd (e / 2) (4 + e % 2)) channel [w0, w1] (some thread)).dropOp o.id

/-- Whether an operation has ended but for its completion, which waits for room at its ring or queue. -/
def Dev.complDue (d : Dev) (id : Nat) : Bool :=
  d.host.waiting.any (fun w => w.what == .op id) || d.host.waitingNvme.any (fun w => w.op == some id)

/-- An operation ends with the status it carries: its completion is delivered, or waits for its ring or NVMe queue with its delivery event
(R391, R76). -/
def Dev.endOp (d : Dev) (id : Nat) : Dev :=
  d.withOp id fun d o =>
    if d.complDue id then d else
    let d := d.absorbReads id
    match o.req.org with
    | .sub th ch k => d.endSub o th ch k
    | .ring _ _ | .nvme _ _ | .book _ _ _ | .wire _ =>
    if o.deliveredByWrite then
      match d.opDest o with
      | .ring tid ring =>
        if d.ringLive tid ring && d.ringBusy tid ring then
          ((d.failAssumption id).updOp id (fun o => { o with waiting := true, plan := [] })).waitRing tid ring (.op id)
        else d.deliverWrite o
      | .nvme sq cid =>
        if d.nvmePosts o.req.tid sq && d.nvmeBusy o.req.tid sq then
          ((d.failAssumption id).updOp id (fun o => { o with waiting := true, plan := [] })).waitNvme
            { tid := o.req.tid, sq := sq, cid := cid, status := 0, op := some id }
        else d.deliverWrite o
      | .book _ _ _ | .nowhere => d.deliverWrite o
    else
      let t := o.delivered.getD d.clk.tide
      let d := (d.account o t).dropOp id
      match d.opDest o with
      | .ring tid ring => d.sendWords tid ring (o.compl t).words o.req.desc.interrupt
      | .book _ ch _ => d.unitPost (unitEnd 0x030) ch (pairWords (o.compl t).words)
      | .nvme _ _ | .nowhere => d

/-- An operation ends with a status; one whose completion waits keeps the status it has. -/
def Dev.endWith (d : Dev) (id status detail : Nat) : Dev :=
  if d.complDue id then d else (d.updOp id (fun o => { o with status := status, detail := detail })).endOp id

/-- An operation is ended by a host action, abort, flush, deletion, zeroisation or tamper: past its promise it carries
ENV_LATE (R76). -/
def Dev.endByAction (d : Dev) (id status detail : Nat) : Dev :=
  (d.updOp id (fun o => { o with envFail := !o.slack })).endWith id status detail

/-! Decisions become visible (R131, R89, R225) -/

/-- The completion of a refusal that becomes visible at t (R89). -/
def refusalCompl (x : Decision) (t : Nat) : Compl :=
  { tag := x.req.desc.tag.toNat, status := x.status, kind := complKind x.req.kind, cls := x.req.cls, flags := 0,
    detail := x.detail, admitted := x.req.time, promise := 0, delivered := t, bytes := 0, tid := x.req.tid,
    sqHead := x.req.sqHead, aux := 0 }

/-- The decision message of a BOOK (R225). -/
def bookWords (x : Decision) (token : Nat) : List Nat :=
  [replyHeader token x.status 0 1 (if x.status == 0 then x.entry.getD 0 else x.detail),
   x.req.time % 2 ^ 32 * 2 ^ 32 + x.promise % 2 ^ 32]

/-- One decision becomes visible at the boundary t. -/
def Dev.show (d : Dev) (t : Nat) (x : Decision) : Dev :=
  let d := match x.req.org with
    | .book th ch token => d.unitPost (unitEnd 0x030) ch (bookWords x token) (some th)
    | .ring _ _ | .nvme _ _ | .sub _ _ _ | .wire _ => d
  if x.status == 0 then
    { d with ops := d.ops ++ [{ req := x.req, admitted := x.req.time, promise := x.promise, slack := x.slack,
                                entry := x.entry, plan := x.plan,
                                booked := ((d.adm.entries.find? (fun e => e.op == x.req.id)).map (·.holds)).getD [],
                                waiting := stWaits x.req.kind (x.plan.head?.map (·.no)) }] }
  else match d.reqDest x.req with
    | .ring tid ring => d.sendWords tid ring (refusalCompl x t).words x.req.desc.interrupt
    | .nvme sq cid => d.postNvme
        { tid := x.req.tid, sq := sq, cid := cid, status := d.nvMap x.req x.status x.detail,
          timing := some [cid % 65536 * 65536 + sq % 256 * 256, x.req.time % 2 ^ 32, 0, t % 2 ^ 32] }
    | .book _ _ _ | .nowhere => d

/-- The decisions of this tick become visible at the boundary that ends it. -/
def Dev.showDecisions (d : Dev) : Dev :=
  let t := d.clk.tide + tickNs
  d.pair.decisions.foldl (fun d x => d.show t x) { d with pair := { d.pair with decisions := [] } }

/-! Host reads (R394, R402) -/

/-- Max_Read_Request_Size of a function: Device Control [14:12], 512 bytes at reset. -/
def Dev.readSize (d : Dev) (tid : Nat) : Nat := 128 * 2 ^ min 5 (d.cfgWord tid 0x48 / 4096 % 8)

/-- Split a read at Max_Read_Request_Size and at 4 KiB boundaries: offset and length of each piece. -/
def splitRead (addr mrrs : Nat) : Nat → Nat → Nat → List (Nat × Nat)
  | 0, _, _ => []
  | fuel + 1, off, len =>
    if len == 0 then []
    else
      let n := min len (min mrrs (4096 - (addr + off) % 4096))
      (off, n) :: splitRead addr mrrs fuel (off + n) (len - n)

/-- The pool of tags of a link, by the tag mode in force. -/
def Dev.tagPool (d : Dev) (l : Nat) : Nat :=
  match d.rd (Reg.HST_LINK_TAG_MODE l) with
  | 2 => 8192 | 1 => 768 | _ => 256

/-- The most requests a function's own tag enables allow. -/
def Dev.fnTags (d : Dev) (tid : Nat) : Nat :=
  if (d.cfgWord tid 0x160).testBit 2 then 8192 else if (d.cfgWord tid 0x68).testBit 12 then 768 else 256

/-- The lowest free tag of a link. -/
def freeTag (used : List Nat) : Nat → Nat → Option Nat
  | 0, _ => none
  | n + 1, t => if used.contains t then freeTag used n (t + 1) else some t

/-- Whether a read may take a tag now: the pool, the function's own limit, and half the pool for unbooked ones. -/
def Dev.tagFor (d : Dev) (r : HostRead) : Option Nat :=
  let mine := d.host.reads.filter (fun x => x.link == r.link)
  let pool := d.tagPool r.link
  if pool ≤ mine.length || d.fnTags r.tid ≤ (mine.filter (fun x => x.tid == r.tid)).length ||
      (!r.booked && pool / 2 ≤ (mine.filter (fun x => !x.booked)).length) then none
  else freeTag (mine.map (·.tag)) (mine.length + 1) 0

/-- The count of tags in use of a link. -/
def Dev.showTags (d : Dev) (l : Nat) : Dev :=
  d.put (Reg.HST_LINK_TAGS_IN_USE l) (d.host.reads.filter (fun x => x.link == l)).length

/-- Hand one read to the link, with a tag. -/
def Dev.handRead (d : Dev) (r : HostRead) (tag : Nat) : Dev :=
  let r := { r with tag := tag, time := d.clk.tide }
  ({ d with host := { d.host with reads := d.host.reads ++ [r] } }.emit (.hostRead r.link tag r.tid r.addr r.len)).showTags r.link

/-- A read is issued, or waits for a tag; a booked read that waits has lost its assumption (R394). One of a function that may not
issue requests fails at the end of the tick (R396). -/
def Dev.issueRead (d : Dev) (r : HostRead) : Dev :=
  if !d.mayIssue r.tid then { d with host := { d.host with readQ := d.host.readQ ++ [{ r with absorbed := true }] } }
  else match d.tagFor r with
  | some t => d.handRead r t
  | none =>
    let d := (d.hostCount r.tid 5)
    let d := { d with host := { d.host with readQ := d.host.readQ ++ [r] } }
    match r.use with
    | .data id _ => if r.booked then d.failAssumption id else d
    | .descs _ _ _ | .entries _ _ _ | .thread _ _ | .mover _ _ | .resp _ _ => d

/-- Reads that wait take the tags that have come free, in order. -/
def Dev.retryReads (d : Dev) : Dev :=
  d.host.readQ.foldl (fun d r =>
    if r.absorbed then d
    else match d.tagFor r with
    | some t => { d with host := { d.host with readQ := d.host.readQ.erase r } }.handRead r t
    | none => d) d

/-- The tenant and the I/O virtual address of a tenant's address: one that is internal (devMem) and lies in a host window stands for that of
the window's tenant (R402). -/
def Dev.ioAt (d : Dev) (tid : Nat) (devMem : Bool) (a : Nat) : Nat × Nat :=
  if devMem then
    match d.place a with
    | .host t off => (t, d.inF (Reg.HST_TEN_IOVA_BASE t) * 4096 + off)
    | .ddr | .hbm | .sram _ | .packet | .control _ | .hole => (tid, a)
  else (tid, a)

/-- The tenant and the I/O virtual address of an operation's buffer address. -/
def Dev.ioAddress (d : Dev) (o : Op) (a : Nat) : Nat × Nat := d.ioAt o.req.tid o.req.desc.devMem a

/-- The contiguous pieces of n bytes of a buffer at a: address, offset and length. A native buffer is one piece; an NVMe
command's lies in pages of 4 KiB (PRESUMED NVM Express). -/
def bufPieces (x : Desc) (a n : Nat) : List (Nat × Nat × Nat) :=
  if x.pages.isEmpty then [(a, 0, n)]
  else
    let m := min n (4096 - a % 4096)
    (a, 0, m) :: (x.pages.zipIdx.map fun p =>
      (p.1.toNat, m + 4096 * p.2, min 4096 (n - (m + 4096 * p.2)))).filter (fun p => 0 < p.2.2)

/-- The tenant of an operation: a thread's own cipher command has none. -/
def Op.tid? (o : Op) : Option Nat :=
  match o.req.org with
  | .sub _ _ _ => none
  | .ring _ _ | .nvme _ _ | .book _ _ _ | .wire _ => some o.req.tid

/-- Write bytes of an operation's result at a buffer address. -/
def Dev.writeOut (d : Dev) (o : Op) (a : Nat) (l : List Byte) : Dev :=
  if l.isEmpty then d
  else if (d.hostLinkOf o.req.tid o.req.desc.devMem a).isNone then d.memWrite a l o.tid? none
  else
    let (t, v) := d.ioAddress o a
    if d.mayIssue t then d.each (bufPieces o.req.desc v l.length) fun d p => d.emit (.hostWrite t p.1 ((l.drop p.2.1).take p.2.2)) else d

/-- What an operation's last stage writes before its completion: a received frame's bytes into the buffer it took, a
storage read's data at ADDR0. -/
def Dev.writeBack (d : Dev) (o : Op) : Dev :=
  if o.req.kind == 2 || (o.req.kind == 6 && o.req.code == 2 && o.status == 0) then
    (d.writeOut o o.req.desc.addr0.toNat o.data).updOp o.id (fun o => { o with carried := o.data.length })
  else d

/-- Whether a stage is a port's wire. -/
def Stage.wire (s : Stage) : Bool := s.needs.any (fun x => x.res.kind == 5 && !x.res.rx)

/-- An operation that comes to its wire stage takes the next place among what waits for its port. -/
def Dev.queueWire (d : Dev) (id : Nat) (s : Option Stage) : Dev :=
  match s with
  | some s => if s.wire then { d with nextOp := d.nextOp + 1 }.updOp id (fun o => { o with queued := d.nextOp, since := d.clk.tide }) else d
  | none => d

/-! Stages (R81, R84) -/

/-- The current stage of an operation. -/
def Op.stage (o : Op) : Option Stage := o.plan.head?

/-- Whether an operation's entry holds packet-buffer space. -/
def Dev.holdsSpace (d : Dev) (id : Nat) : Bool := d.adm.entries.any (fun e => e.op == id && e.space != 0)

/-- Stages that are done fall away; their bookings are released (R84), and after the wire stage, with which the read pass ends, the
packet-buffer space (R105). A storage command stops before stage 5 until its backend, or the commands it waits for, have answered. -/
def Dev.advanceFuel (d : Dev) (id : Nat) : Nat → Dev
  | 0 => d
  | n + 1 => d.withOp id fun d o =>
    match o.plan with
    | s :: r =>
      if s.needs.isEmpty && o.going.isEmpty && o.reads == 0 && !o.waiting then
        let d := d.input (.releaseStage id s.no)
        let d := if d.holdsSpace id && !r.any Stage.wire then d.input (.releaseSpace id) else d
        let d := d.updOp id (fun o => { o with plan := r, waiting := stWaits o.req.kind (r.head?.map (·.no)) })
        (d.queueWire id r.head?).advanceFuel id n
      else d
    | [] => if o.deliveredByWrite && o.req.kind != 4 && o.going.isEmpty && o.reads == 0 && !o.waiting then (d.writeBack o).endOp id else d

/-- Move an operation on past the stages it has finished. -/
def Dev.advance (d : Dev) (id : Nat) : Dev := d.advanceFuel id 8

/-- The number of a resource's scheduler. -/
def resSched (r : Res) : Nat := r.kind * 1024 + r.inst * 2 + if r.rx then 1 else 0

/-- An item leaves its engine. -/
def Op.leave (o : Op) (r : Res) : Op := { o with going := o.going.filter (· != r), ends := Tab.erase o.ends (resSched r) }

/-- An item of the current stage is served: it is no longer needed. -/
def Dev.itemDone (d : Dev) (id : Nat) (r : Res) : Dev :=
  (d.updOp id (fun o => { o.leave r with
    picked := o.picked.filter (· != resSched r)
    plan := match o.plan with
      | s :: t => { s with needs := s.needs.filter (fun x => x.res != r) } :: t
      | [] => [] })).advance id

/-- Whether an operation has work ready for a resource: in its current stage, not yet on the engine. -/
def Op.readyFor (o : Op) (r : Res) : Bool :=
  !o.ended && !o.waiting && (match o.stage with
    | some s => s.needs.any (fun x => x.res = r) && !o.going.contains r
    | none => false)

/-! The claims of a slot (Table 4.2) -/

/-- The amount that an operation's current stage needs of a resource. -/
def Op.needOf (o : Op) (r : Res) : Nat :=
  match o.stage with
  | some s => ((s.needs.filter (fun x => x.res = r)).map (·.amt)).sum
  | none => 0

/-- What is booked of a resource for an operation's current stage, up to the slot that runs, and not yet served (R107). -/
def Dev.due (d : Dev) (o : Op) (r : Res) : Nat :=
  let now (h : Hold) : Bool := h.res = r && some h.stage == o.stage.map (·.no) && h.slot ≤ d.clk.slotSeq
  ((o.booked.filter now).map (·.amt)).sum

/-- Whether an operation's work is carried by standing amounts: a received frame's, or a message's notification (R123, R306). -/
def Op.standing (o : Op) : Bool := o.req.kind == 2 || o.req.kind == 4

/-- The number of the claim under which an operation's work stands: 1 booked and due, or carried by a standing amount, 3 late,
4 early, 5 Slack. -/
def Dev.claimOf (d : Dev) (o : Op) (r : Res) : Nat :=
  if o.slack then 5 else if 0 < d.due o r then 1 else if o.envFail then 3 else if o.standing then 1 else 4

/-- Units of a resource are served at a stage: they come off its bookings in the order of their slots. -/
def takeBooked (stage : Nat) (r : Res) : List Hold → Nat → List Hold
  | [], _ => []
  | h :: l, n =>
    if h.stage == stage && h.res = r then
      (if n < h.amt then { h with amt := h.amt - n } :: l else takeBooked stage r l (n - h.amt))
    else h :: takeBooked stage r l n

/-- Units of the current stage go to an engine: the need and what is booked for it fall by them. -/
def Op.serve (o : Op) (r : Res) (n : Nat) : Op :=
  match o.plan with
  | s :: t => { o with
      plan := { s with needs := s.needs.map (fun x => if x.res = r then { x with amt := x.amt - n } else x) } :: t
      booked := takeBooked s.no r o.booked n }
  | [] => o

/-- Deadline order (R108): promise, then admitted_at, then source, then tag. -/
def deadlineBefore (a b : Op) : Bool :=
  a.promise < b.promise || (a.promise == b.promise && (a.admitted < b.admitted || (a.admitted == b.admitted &&
    (a.req.src < b.req.src || (a.req.src == b.req.src && a.req.desc.tag.toNat < b.req.desc.tag.toNat)))))

/-- The first of a list under an order. -/
def firstBy {α : Type} (before : α → α → Bool) : List α → Option α
  | [] => none
  | a :: r => match firstBy before r with
    | some b => if before b a then some b else some a
    | none => some a

/-! WFQ (R113) -/

/-- A child of a scheduler: its number, weight, the number and length of its head item, whether it may be picked. -/
structure Kid where
  num : Nat
  weight : Nat
  item : Nat
  len : Nat
  eligible : Bool
deriving DecidableEq, Repr

/-- The advance of a tag. -/
def tagStep (len weight : Nat) : Nat := ceilDiv (len * 65536) (max weight 1)

/-- Children that have become backlogged get their tags, and those that are backlogged keep them; those no longer
backlogged are forgotten. -/
def Wfq.sync (w : Wfq) (kids : List Kid) : Wfq :=
  kids.foldl (fun w k =>
    if (Tab.keys w.heads).contains k.num then w
    else
      let s := max w.v (Tab.get 0 w.finish k.num)
      { w with start := Tab.set 0 w.start k.num s, finish := Tab.set 0 w.finish k.num (s + tagStep k.len k.weight),
               heads := Tab.set 0 w.heads k.num (k.item + 1) })
    { w with heads := w.heads.filter (fun p => kids.any (fun k => k.num == p.1)) }

/-- The child picked: the eligible one with the smallest finish tag, the lowest number at a tie. -/
def Wfq.pick (w : Wfq) (kids : List Kid) : Option Kid :=
  firstBy (fun a b => Tab.get 0 w.finish a.num < Tab.get 0 w.finish b.num ||
    (Tab.get 0 w.finish a.num == Tab.get 0 w.finish b.num && a.num < b.num)) (kids.filter (·.eligible))

/-- The head item of the picked child is sent; its next item, if any, gets the next tags. -/
def Wfq.sent (w : Wfq) (k : Kid) (next : Option (Nat × Nat)) : Wfq :=
  let w := { w with v := Tab.get 0 w.start k.num }
  match next with
  | some (item, len) =>
    let s := Tab.get 0 w.finish k.num
    { w with start := Tab.set 0 w.start k.num s, finish := Tab.set 0 w.finish k.num (s + tagStep len k.weight),
             heads := Tab.set 0 w.heads k.num (item + 1) }
  | none => { w with heads := Tab.erase w.heads k.num }

/-- The number of a port queue's scheduler, and of a tenant's leaves in it. -/
def queueSched (port q : Nat) : Nat := 0x100000 + port * 16 + q
def leafSched (port q tid : Nat) : Nat := 0x200000 + (port * 16 + q) * 512 + tid

/-- A tenant's weight (Table 4.9). -/
def Dev.tenantWeight (d : Dev) (tid : Nat) : Nat := d.inF (Reg.CAL_TENANT_TENANT_WEIGHT tid)

/-- Whether a Slack operation's item waits for a resource's scheduler to pick it. -/
def Op.unpicked (o : Op) (r : Res) : Bool := o.slack && o.readyFor r && !o.picked.contains (resSched r)

/-- The ready Slack operations of a tenant on a resource that its scheduler has still to pick, in order of sampling and then of source
(R507). -/
def Dev.slackOf (d : Dev) (r : Res) (tid : Nat) : List Op :=
  sortIn (fun a b => a.req.time < b.req.time || (a.req.time == b.req.time && a.req.src ≤ b.req.src))
    (d.ops.filter (fun o => o.req.tid == tid && o.unpicked r))

/-- Tenants that have ready Slack work on a resource, as children of its scheduler. -/
def Dev.slackKids (d : Dev) (r : Res) : List Kid :=
  (((d.ops.filter (fun o => o.unpicked r)).map (·.req.tid)).eraseDups).filterMap fun t =>
    match d.slackOf r t with
    | o :: _ => some ⟨t, d.tenantWeight t, o.id, o.needOf r, true⟩
    | [] => none

/-- The Slack operation that a resource serves next, and the scheduler after it (R507). -/
def Dev.pickSlack (d : Dev) (r : Res) : Option (Op × Wfq) :=
  let kids := d.slackKids r
  let w := (Tab.get {} d.cal.wfq (resSched r)).sync kids
  match w.pick kids with
  | none => none
  | some k => match d.slackOf r k.num with
    | o :: rest => some (o, w.sent k (rest.head?.map (fun p => (p.id, p.needOf r))))
    | [] => none

/-- Put a scheduler. -/
def Dev.setWfq (d : Dev) (n : Nat) (w : Wfq) : Dev := { d with cal := { d.cal with wfq := Tab.set {} d.cal.wfq n w } }

/-- The booked, late or early operation that a resource serves next (Table 4.2). -/
def Dev.pickBooked (d : Dev) (r : Res) : Option Op :=
  let ready := d.ops.filter (fun o => !o.slack && o.readyFor r)
  let of (c : Nat) := firstBy deadlineBefore (ready.filter (fun o => d.claimOf o r == c))
  match of 1 with
  | some o => some o
  | none => match of 3 with
    | some o => some o
    | none => of 4

/-- Choose the work of a resource by the order of claims; a Slack item that has been begun goes on before the next is picked. -/
def Dev.chooseWork (d : Dev) (r : Res) : Option Op × Dev :=
  match d.pickBooked r with
  | some o => (some o, d)
  | none => match d.ops.find? (fun o => o.slack && o.readyFor r && o.picked.contains (resSched r)) with
    | some o => (some o, d)
    | none => match d.pickSlack r with
      | some (o, w) => (some o, (d.setWfq (resSched r) w).updOp o.id (fun o => { o with picked := o.picked ++ [resSched r] }))
      | none => (none, d)

/-! Engines in time (R102, R103, R109, R504) -/

/-- The units of a resource that its engine serves in the 511 clocks of a slot's capacity: a draining shoal, which takes no bookings, still
works. -/
def Dev.engineRate (d : Dev) (r : Res) : Nat :=
  max 1 (if r.kind == 8 then d.threadsAt d.clk.slotSeq * 31 else d.capacity r d.clk.slotSeq)

/-- The 255.5 ns of a slot's capacity in 2^-16 ns, and the time that n units take at a rate. -/
def capFix : Nat := 16744448
def itemFix (n rate : Nat) : Nat := ceilDiv (n * capFix) rate

/-- The time at which an engine is free, in 2^-16 ns and not before this tick, and whether that is within this tick. -/
def Dev.freeAt (d : Dev) (r : Res) : Nat := max (Tab.get 0 d.cal.busy (resSched r)) (d.clk.tide * 65536)
def Dev.freeNow (d : Dev) (r : Res) : Bool := d.freeAt r < (d.clk.tide + tickNs) * 65536

/-- The units that an engine can still serve in the slot that runs. -/
def Dev.unitsLeft (d : Dev) (r : Res) : Nat :=
  ((d.clk.tide / slotNs + 1) * slotNs * 65536 - d.freeAt r) * d.engineRate r / capFix

/-- The part of an operation's item that an engine takes at once: what is booked up to this slot; of all other work what ends within the
slot, so that booked work ends in its slot (R109). -/
def Dev.portion (d : Dev) (o : Op) (r : Res) : Nat :=
  let n := o.needOf r
  if o.slack || d.due o r == 0 then min n (d.unitsLeft r) else min n (d.due o r)

/-! Work items (R107, R84, R504) -/

/-- Where an operation reads its data, and how many bytes. -/
def Op.source (o : Op) : Nat × Nat :=
  let x := o.req.desc
  match o.req.kind with
  | 1 => (x.addr0.toNat, x.length.toNat - 4)
  | 5 => (x.addr0.toNat, 0)
  | 6 => (x.addr0.toNat, stIn o.req)
  | _ => (x.addr0.toNat, x.length.toNat)

/-- Bytes put into an operation's data at an offset. -/
def putData (l : List Byte) (offset : Nat) (x : List Byte) : List Byte :=
  (l ++ List.replicate (offset - l.length) 0).take offset ++ x ++ l.drop (offset + x.length)

/-- Read n bytes at a buffer address into an operation's data from an offset on: through its host link, or with DEV_MEM
from the device's own memory, where poison ends in POISON (R420). -/
def Dev.fetchData (d : Dev) (o : Op) (a n offset : Nat) : Dev :=
  if (d.hostLinkOf o.req.tid o.req.desc.devMem a).isNone then
    d.updOp o.id (fun o => { o with
      data := putData o.data offset (d.bytes a n)
      status := if d.anyPoison a n then 0x61 else o.status })
  else
    let (t, s) := d.ioAddress o a
    let ps := (bufPieces o.req.desc s n).flatMap (fun p =>
      (splitRead p.1 (d.readSize t) (p.2.2 + 1) 0 p.2.2).map (fun q => (p.1 + q.1, p.2.1 + q.1, q.2)))
    let d := d.updOp o.id (fun o => { o with
      reads := o.reads + ps.length, data := o.data ++ List.replicate (offset + n - o.data.length) 0 })
    d.each ps fun d p => d.issueRead
      { link := linkOf t, tag := 0, tid := t, addr := p.1, len := p.2.2, use := .data o.id (offset + p.2.1), time := 0,
        booked := !o.slack }

/-- AAD_LEN of a cipher request's parameter block, which stands at the start of its data (Table 14.2). -/
def Op.aadLen (o : Op) : Nat := leNat (o.data.take 4)

/-- The firewall over the ranges of a thread's command (R379, R421). -/
def Dev.subRanges (d : Dev) (s : Nat) (o : Op) : Bool :=
  let x := o.req.desc
  let n := x.length.toNat
  let aad := o.aadLen
  let ok (a n : Nat) (k : AccessKind) := n == 0 || d.firewall (.shoal s) a n k == .granted
  ok x.addr0.toNat (n - aad) .read && (o.req.code ≥ 2 || ok x.addr1.toNat (n - aad) .write) &&
    ok x.addr2.toNat 128 .read && ok (x.addr2.toNat + 128) aad .read

/-- Whether a thread's command will be refused for a range, so that nothing beyond its blocks is read. -/
def Dev.subDenied (d : Dev) (o : Op) : Bool :=
  match o.req.org with
  | .sub t _ _ => !d.subRanges (t / 64) o
  | .ring _ _ | .nvme _ _ | .book _ _ _ | .wire _ => false

/-- The second reads of a cipher request: AAD after the block, and the source (R359). A block whose AAD_LEN exceeds
LENGTH is refused when the engine starts it, and nothing more is read. -/
def Dev.fetchCipher (d : Dev) (id : Nat) : Dev :=
  d.withOp id fun d o =>
    let n := o.req.desc.length.toNat
    let a := o.aadLen
    if o.req.kind != 7 || o.reads != 0 || o.data.length != 128 || n < a || d.subDenied o then d
    else
      let d := if a == 0 then d else d.fetchData o (o.req.desc.addr2.toNat + 128) a 128
      match d.op? id with
      | some o => if n - a == 0 then d else d.fetchData o o.req.desc.addr0.toNat (n - a) (128 + a)
      | none => d

/-- Start an operation's reads. A cipher request first reads its parameter block, which says how its LENGTH is split
(R359). -/
def Dev.startReads (d : Dev) (o : Op) : Dev :=
  if o.req.kind == 7 then (d.fetchData o o.req.desc.addr2.toNat 128 0).fetchCipher o.id
  else if o.source.2 == 0 then d
  else d.fetchData o o.source.1 o.source.2 0

/-- Whether a resource's work starts by WORK_ITEM_START: a port's transmit side and a look-aside engine have their own
commands. -/
def Res.general (r : Res) : Bool := (r.kind != 5 || r.rx) && !(r.kind == 4 && 0x10 ≤ r.inst)

/-- Start the next work of a resource where its engine is free in this tick: at once, or when the item on it ends. After a thermal trip
every engine is idle (R494). -/
def Dev.startWork (d : Dev) (r : Res) : Dev :=
  if d.boot.thermTrip || !d.freeNow r then d
  else match d.chooseWork r with
  | (none, _) => d
  | (some o, e) =>
    let n := d.portion o r
    if n == 0 && 0 < o.needOf r then d
    else
      let stop := d.freeAt r + itemFix n (d.engineRate r)
      let e := { e with cal := { e.cal with busy := Tab.set 0 e.cal.busy (resSched r) stop } }
      let e := e.updOp o.id (fun o => { o.serve r n with
        going := o.going ++ [r], ends := Tab.set 0 o.ends (resSched r) stop, fetched := true })
      if o.fetched then e else e.startReads o

/-- The engines for which operations have work ready. -/
def Dev.readyEngines (d : Dev) : List Res :=
  ((d.ops.flatMap fun o => match o.stage with
    | some s => (s.needs.map (·.res)).filter (fun r => r.general && o.readyFor r)
    | none => []).eraseDups)

/-- At a tick boundary every engine starts the ready work for which it has capacity in the tick (R107, R110). DESIGN CHOICE (log 98): R504
leaves it to the device where in its slot an item starts; here it starts at the first moment that R504 allows. -/
def Dev.startEngines (d : Dev) : Dev :=
  d.each d.readyEngines fun d r => d.each (d.ops.filter (·.readyFor r)) fun d _ => d.startWork r

/-- WORK_ITEM_START (R107): ready work starts on an engine that is free, chosen by the order of claims. -/
def execWorkItemStart (kind inst : BitVec 8) (rx : Bool) (s : State) : Host.Outcome State Fault Refusal :=
  s.run fun d => d.when (Res.general ⟨kind.toNat, inst.toNat, rx⟩) fun d => d.startWork ⟨kind.toNat, inst.toNat, rx⟩

/-- Whether an item on its engine has taken its time; the last part of a host read also waits for its completions. -/
def Dev.itemEnds (d : Dev) (o : Op) (r : Res) : Bool :=
  r.general && o.going.contains r && Tab.get 0 o.ends (resSched r) ≤ d.clk.tide * 65536 &&
    (o.ended || !(r.kind == 1 && r.rx && o.reads != 0 && o.needOf r == 0))

/-- Finish an item that has taken its time on its engine: of one served in parts, the part. -/
def Dev.finishWork (d : Dev) (id : Nat) (r : Res) : Dev :=
  match d.op? id with
  | some o =>
    if !d.itemEnds o r then d
    else if o.ended then (d.updOp id (·.leave r)).dropOp id
    else if o.needOf r == 0 then d.itemDone id r
    else d.updOp id (·.leave r)
  | none => d

/-- WORK_ITEM_FINISH (R84): the item is done; when its stage is done its bookings are released. -/
def execWorkItemFinish (op : Nat) (kind inst : BitVec 8) (rx : Bool) (s : State) : Host.Outcome State Fault Refusal :=
  s.run fun d => d.finishWork op ⟨kind.toNat, inst.toNat, rx⟩

/-- The items that have taken their time on their engines. -/
def Dev.itemInstrs (d : Dev) : List Instr :=
  d.ops.flatMap fun o => (o.going.filter (fun r => d.itemEnds o r)).map fun r =>
    .workItemFinish o.id (BitVec.ofNat 8 r.kind) (BitVec.ofNat 8 r.inst) r.rx

/-- HOST_READ_BOUND for a read: that which its operation was sampled under (R13). -/
def Dev.readBound (d : Dev) (r : HostRead) : Nat :=
  match r.use with
  | .data id _ => match d.op? id with
    | some o => o.req.readBound
    | none => d.inF Reg.BWK_ENV_HOST_READ_BOUND
  | .descs _ _ _ | .entries _ _ _ | .thread _ _ | .mover _ _ | .resp _ _ => d.inF Reg.BWK_ENV_HOST_READ_BOUND

/-- HOST_READ_BOUND_EXPIRY (R76): a host read has passed HOST_READ_BOUND without its completion, and its operation's
assumption fails; before that the command changes nothing. -/
def execHostReadBoundExpiry (link : BitVec 1) (tag : BitVec 14) (s : State) : Host.Outcome State Fault Refusal :=
  s.run fun d =>
    match d.host.reads.find? (fun r => r.link == link.toNat && r.tag == tag.toNat) with
    | some r =>
      if d.clk.tide ≤ r.time + d.readBound r || r.late then d
      else
        let d := { d with host := { d.host with reads := d.host.reads.map (fun x =>
          if x.link == r.link && x.tag == r.tag then { x with late := true } else x) } }
        match r.use with
        | .data id _ => d.failAssumption id
        | .descs _ _ _ | .entries _ _ _ | .thread _ _ | .mover _ _ | .resp _ _ => d
    | none => d

/-! Native descriptors sampled at Breakwater -/

/-- Sample a native descriptor of a tenant's submission ring at Breakwater. -/
def Dev.sampleNative (d : Dev) (kind code tid ring head : Nat) (x : Desc) : Dev :=
  d.submit kind code x.cls.toNat tid (0x010 + linkOf tid) (.ring ring head) x

/-- TX (R82). -/
def execTx (tid : BitVec 9) (ring : BitVec 6) (head : BitVec 16) (desc : Desc) (s : State) : Host.Outcome State Fault Refusal :=
  s.run fun d => d.sampleNative 1 0 tid.toNat ring.toNat head.toNat desc

/-- SWW (R304). -/
def execSww (tid : BitVec 9) (ring : BitVec 6) (head : BitVec 16) (desc : Desc) (s : State) : Host.Outcome State Fault Refusal :=
  s.run fun d => d.sampleNative 3 0 tid.toNat ring.toNat head.toNat desc

/-- SWR (R304). -/
def execSwr (tid : BitVec 9) (ring : BitVec 6) (head : BitVec 16) (desc : Desc) (s : State) : Host.Outcome State Fault Refusal :=
  s.run fun d => d.sampleNative 5 0 tid.toNat ring.toNat head.toNat desc

/-- ST_FLUSH (R344). -/
def execStFlush (tid : BitVec 9) (ring : BitVec 6) (head : BitVec 16) (desc : Desc) (s : State) : Host.Outcome State Fault Refusal :=
  s.run fun d => d.sampleNative 6 0 tid.toNat ring.toNat head.toNat desc

/-- ST_WRITE (R337). -/
def execStWrite (tid : BitVec 9) (ring : BitVec 6) (head : BitVec 16) (desc : Desc) (s : State) : Host.Outcome State Fault Refusal :=
  s.run fun d => d.sampleNative 6 1 tid.toNat ring.toNat head.toNat desc

/-- ST_READ (R337). -/
def execStRead (tid : BitVec 9) (ring : BitVec 6) (head : BitVec 16) (desc : Desc) (s : State) : Host.Outcome State Fault Refusal :=
  s.run fun d => d.sampleNative 6 2 tid.toNat ring.toNat head.toNat desc

/-- ST_WRITE_ZEROES (R337). -/
def execStWriteZeroes (tid : BitVec 9) (ring : BitVec 6) (head : BitVec 16) (desc : Desc) (s : State) : Host.Outcome State Fault Refusal :=
  s.run fun d => d.sampleNative 6 8 tid.toNat ring.toNat head.toNat desc

/-- ST_DATASET_MANAGEMENT (R337). -/
def execStDatasetManagement (tid : BitVec 9) (ring : BitVec 6) (head : BitVec 16) (desc : Desc) (s : State) : Host.Outcome State Fault Refusal :=
  s.run fun d => d.sampleNative 6 9 tid.toNat ring.toNat head.toNat desc

/-- CY_ENCRYPT (R359). -/
def execCyEncrypt (tid : BitVec 9) (ring : BitVec 6) (head : BitVec 16) (desc : Desc) (s : State) : Host.Outcome State Fault Refusal :=
  s.run fun d => d.sampleNative 7 0 tid.toNat ring.toNat head.toNat desc

/-- CY_DECRYPT (R359). -/
def execCyDecrypt (tid : BitVec 9) (ring : BitVec 6) (head : BitVec 16) (desc : Desc) (s : State) : Host.Outcome State Fault Refusal :=
  s.run fun d => d.sampleNative 7 1 tid.toNat ring.toNat head.toNat desc

/-- CY_MAC_GENERATE (R359). -/
def execCyMacGenerate (tid : BitVec 9) (ring : BitVec 6) (head : BitVec 16) (desc : Desc) (s : State) : Host.Outcome State Fault Refusal :=
  s.run fun d => d.sampleNative 7 2 tid.toNat ring.toNat head.toNat desc

/-- CY_MAC_VERIFY (R359). -/
def execCyMacVerify (tid : BitVec 9) (ring : BitVec 6) (head : BitVec 16) (desc : Desc) (s : State) : Host.Outcome State Fault Refusal :=
  s.run fun d => d.sampleNative 7 3 tid.toNat ring.toNat head.toNat desc

end Sys2Proof.Machine
end

