-- ==== Sys2Proof/Machine/Breakwater.lean ====
section
/-! DEFINITION. Contracts, budgets, the governor, gate lists, policers and shapers (chapters 03 and 04). -/

namespace Sys2Proof.Machine

open Sys2Proof

/-- DECISION_TAKE_EFFECT (R131): the decisions of the tick become visible at the boundary that ends it, once the standby has acknowledged
or where none stands by. While inputs of the tick still wait it is not that boundary, and the command changes nothing; the tick's own end
does the same. -/
def execDecisionTakeEffect (s : State) : Host.Outcome State Fault Refusal :=
  s.run fun d => d.when (s.pending.isEmpty && d.mayShow) Dev.showDecisions

/-! Register writes by halves (R4) -/

/-- Whether a write reaches the low and the high half: 0 low, 1 high, 2 both. -/
def lowHalf (half : Fin 3) : Bool := half.val != 1
def highHalf (half : Fin 3) : Bool := half.val != 0

/-- Whether a write by halves changes a field: a 32-bit write changes only the fields wholly within its half (R4). -/
def reaches (half : Fin 3) (f : Fld) : Bool :=
  if half.val == 2 then true else if half.val == 0 then f.hi < 32 else 32 ≤ f.lo

/-- The value that a field has after a write of its register. -/
def Dev.wr (d : Dev) (f : Fld) (half : Fin 3) (v : Nat) : Nat :=
  if reaches half f then bits (mergeHalf 0 half.val v) f.hi f.lo else d.rd f

/-- A stored field takes its bits of a written value, if the write changes it. -/
def Dev.storeBits (d : Dev) (f : Fld) (half : Fin 3) (v : Nat) : Dev :=
  if reaches half f then d.store f (bits (mergeHalf 0 half.val v) f.hi f.lo) else d

/-- A bit of a written value, as the write's half reaches it. -/
def halfBit (half : Fin 3) (v n : Nat) : Bool := (mergeHalf 0 half.val v).testBit n

/-! Contracts and budgets (R72, R79, R99) -/

/-- The floor of Table 3.2 in ns, by contract kind and class. -/
def floorOf (kind cls : Nat) : Nat :=
  match kind, cls with
  | 1, 0 | 3, 0 => 3000 | 1, 1 | 3, 1 => 24000 | 1, 2 | 3, 2 => 512000
  | 2, 0 | 4, 0 | 5, 0 => 2000 | 2, 1 | 4, 1 | 5, 1 => 16000 | 2, 2 | 4, 2 | 5, 2 => 256000
  | 6, 0 => 6000 | 6, 1 => 48000 | 6, 2 => 1024000
  | 7, 0 => 4000 | 7, 1 => 32000 | 7, 2 => 512000
  | _, _ => 0

/-- The contract that CT_SELECT names. -/
def Dev.ctSelected (d : Dev) : Nat :=
  ctKey (d.inF Reg.BWK_CT_SELECT_TID) (d.inF Reg.BWK_CT_SELECT_KIND) (d.inF Reg.BWK_CT_SELECT_CLASS)

/-- Whether a contract value may be stored (R99). -/
def contractOk (kind cls : Nat) (enable : Bool) (bound : Nat) : Bool :=
  kind != 0 && cls != 3 && (!enable || (floorOf kind cls ≤ bound && bound ≤ 4194048))

/-- A contract or budget write that fails its check: WRITE_REFUSED sets and a record is logged (R99). -/
def Dev.contractRefused (d : Dev) (ag : Agent) (off : Nat) : Dev := (d.raise (Reg.BWK_CT_DATA_WRITE_REFUSED 0)).discarded ag off

/-- Whether a steward's write to a resource of a function is discarded, as the function's TDI is frozen (R401, R404). -/
def Dev.frozen (d : Dev) (ag : Agent) (tid : Nat) : Bool := ag == .steward && d.rd (Reg.HST_TEN_TDI_STATE tid) != 0

/-- A BWK_CT_DATA write, at either unit's range (R98). -/
def Dev.writeContract (d : Dev) (ag : Agent) (half : Fin 3) (v : Nat) (off : Nat := 0x20010) : Dev :=
  d.byRight ag off fun d =>
    let k := d.ctSelected
    let old := d.rd (Reg.BWK_CT_DATA_ENABLE k) * 2 ^ 63 + d.rd (Reg.BWK_CT_DATA_BOUND k)
    let w := mergeHalf old half.val v
    if !contractOk (d.inF Reg.BWK_CT_SELECT_KIND) (d.inF Reg.BWK_CT_SELECT_CLASS) (w.testBit 63) (bits w 22 0) then
      d.contractRefused ag off
    else if d.frozen ag (d.inF Reg.BWK_CT_SELECT_TID) && (w.testBit 63 != old.testBit 63 || bits w 22 0 != bits old 22 0) then
      d.discarded ag off
    else
      let d := if halfBit half v 62 then d.clearBits (Reg.BWK_CT_DATA_WRITE_REFUSED 0) 1 else d
      (d.storeBits (Reg.BWK_CT_DATA_ENABLE k) half v).storeBits (Reg.BWK_CT_DATA_BOUND k) half v

/-- BWK_CT_DATA (R99). -/
def execBwkCtData (ag : Agent) (half : Fin 3) (value : BitVec 64) (s : State) : Host.Outcome State Fault Refusal :=
  s.run fun d => d.writeContract ag half value.toNat

/-- A BWK_BUDGET_DATA write, at either unit's range. -/
def Dev.writeBudget (d : Dev) (ag : Agent) (half : Fin 3) (v : Nat) (off : Nat := 0x20020) : Dev :=
  d.byRight ag off fun d =>
    let k := bucketKey (d.inF Reg.BWK_BUDGET_SELECT_TID) (d.inF Reg.BWK_BUDGET_SELECT_CLASS)
    if d.inF Reg.BWK_BUDGET_SELECT_CLASS == 3 then d.contractRefused ag off
    else if d.frozen ag (d.inF Reg.BWK_BUDGET_SELECT_TID) &&
        (d.wr (Reg.BWK_BUDGET_DATA_DEPTH k) half v != d.rd (Reg.BWK_BUDGET_DATA_DEPTH k) ||
          d.wr (Reg.BWK_BUDGET_DATA_RATE k) half v != d.rd (Reg.BWK_BUDGET_DATA_RATE k)) then d.discarded ag off
    else (d.storeBits (Reg.BWK_BUDGET_DATA_DEPTH k) half v).storeBits (Reg.BWK_BUDGET_DATA_RATE k) half v

/-- BWK_BUDGET_DATA (R79, R99). -/
def execBwkBudgetData (ag : Agent) (half : Fin 3) (value : BitVec 64) (s : State) : Host.Outcome State Fault Refusal :=
  s.run fun d => d.writeBudget ag half value.toNat

/-! The governor (R93 to R97) -/

/-- A value limited to a range. -/
def limit (lo hi v : Nat) : Nat := min hi (max lo v)

/-- F_MAX as it acts: at most 0xF0. -/
def Dev.fMax (d : Dev) : Nat := min 0xF0 (d.inF Reg.BWK_GOV_POLICY_F_MAX)

/-- F_HW for a whole degree T (R94). -/
def fHwOf (fMax fMin tStart tLimit : Nat) (t : Int) : Nat :=
  if t ≤ (tStart : Int) then fMax
  else if (tLimit : Int) ≤ t then 0
  else (((fMax * (tLimit - tStart) : Nat) - ((fMax : Int) - fMin) * (t - tStart)) / ((tLimit : Int) - tStart)).toNat

/-- F_EFF and H_EFF from the values applied, the policy and F_HW (R93, R96). -/
def Dev.showGovernor (d : Dev) : Dev :=
  let stale := d.bit Reg.BWK_GOV_STATUS_GOV_STALE
  let fHw := d.rd Reg.BWK_GOV_STATUS_F_HW
  let fMin := d.inF Reg.BWK_GOV_POLICY_F_MIN
  let hMin := d.inF Reg.BWK_GOV_POLICY_H_MIN
  let hMax := d.inF Reg.BWK_GOV_POLICY_H_MAX
  let h (f : Fld) : Nat := if stale then hMax else limit hMin hMax (d.inF f)
  let f := if stale then min fMin fHw else min (limit fMin d.fMax (d.inF Reg.BWK_GOV_APPLY_F)) fHw
  (((d.put Reg.BWK_GOV_STATUS_F_EFF f).put Reg.BWK_GOV_STATUS_H_SPRING_EFF (h Reg.BWK_GOV_APPLY_H_SPRING)).put
    Reg.BWK_GOV_STATUS_H_FLOOD_EFF (h Reg.BWK_GOV_APPLY_H_FLOOD)).put Reg.BWK_GOV_STATUS_H_NEAP_EFF (h Reg.BWK_GOV_APPLY_H_NEAP)

/-- One field of a governor write, stored within its limits. -/
def Dev.govField (d : Dev) (f : Fld) (lo hi : Nat) (half : Fin 3) (v : Nat) : Dev :=
  if (f.lo < 32 && !lowHalf half) || (32 ≤ f.lo && !highHalf half) then d
  else
    let x := bits (mergeHalf 0 half.val v) f.hi f.lo
    let d := d.store f (limit lo hi x)
    if limit lo hi x == x then d else d.raise Reg.BWK_GOV_STATUS_CLAMPED

/-- A BWK_GOV_APPLY write: stored clamped to the policy in force, effective at the epoch boundary. -/
def Dev.writeGovernor (d : Dev) (ag : Agent) (half : Fin 3) (v : Nat) (off : Nat := 0x20038) : Dev :=
  d.byRight ag off fun d =>
    let hMin := d.inF Reg.BWK_GOV_POLICY_H_MIN
    let hMax := d.inF Reg.BWK_GOV_POLICY_H_MAX
    let d := d.govField Reg.BWK_GOV_APPLY_F (d.inF Reg.BWK_GOV_POLICY_F_MIN) d.fMax half v
    let d := d.govField Reg.BWK_GOV_APPLY_H_SPRING hMin hMax half v
    let d := d.govField Reg.BWK_GOV_APPLY_H_FLOOD hMin hMax half v
    let d := d.govField Reg.BWK_GOV_APPLY_H_NEAP hMin hMax half v
    { d with clk := { d.clk with govWritten := true } }

/-- GOV_APPLY (R93). -/
def execGovApply (ag : Agent) (half : Fin 3) (value : BitVec 64) (s : State) : Host.Outcome State Fault Refusal :=
  s.run fun d => d.writeGovernor ag half value.toNat

/-- GOV_STALE (R96): 64 epochs without a governor write. -/
def execGovStale (s : State) : Host.Outcome State Fault Refusal :=
  s.run fun d => d.ifDue .govStale fun d => (d.put Reg.BWK_GOV_STATUS_GOV_STALE 1).showGovernor

/-- The governor's part of an epoch boundary (R94, R96): F_HW from the highest reading of the epoch, the count of epochs
without a write, and the effective values. DESIGN CHOICE (log 181): an epoch without a reading has no T, and F_HW and T_MAX stay. -/
def Dev.governorEpoch (d : Dev) : Dev :=
  let d := match d.mon.tMax with
    | some q =>
      let t := q / 4
      (d.put Reg.BWK_GOV_STATUS_T_MAX (wrap 8 t)).put Reg.BWK_GOV_STATUS_F_HW
        (fHwOf d.fMax (d.inF Reg.BWK_GOV_POLICY_F_MIN) (d.inF Reg.BWK_GOV_POLICY_T_START) (d.inF Reg.BWK_GOV_POLICY_T_LIMIT) t)
    | none => d
  let d := { d with mon := { d.mon with tMax := none } }
  let d := if d.clk.govWritten then
      { d with clk := { d.clk with govWritten := false, govIdle := 0 } }.put Reg.BWK_GOV_STATUS_GOV_STALE 0
    else { d with clk := { d.clk with govIdle := d.clk.govIdle + 1 } }
  let d := if d.clk.govIdle == 64 then d.makeDue .govStale else d
  d.showGovernor

/-- One epoch of the shipped governor for a class (R95): headroom and calm count from the 1st-percentile margin. -/
def governorH (target : Int) (m : Int) (h calm : Int) : Int × Int :=
  (if m < target then h + (target - m + 255) / 256 else if 2 * target < m && 16 ≤ calm then h - 1 else h,
   if 2 * target < m then calm + 1 else 0)

/-- One epoch of the shipped governor's fraction (R95): down at once, up by at most 4. -/
def governorF (targetF f : Nat) : Nat := if targetF < f then targetF else min targetF (f + 4)

/-- The shipped governor's laws at an epoch boundary, for the epoch whose margins and temperature are now shown: a class without deliveries
keeps its headroom. DESIGN CHOICE (log 182): the governor is firmware, so that its write of BWK_GOV_APPLY is the command GOV_APPLY. -/
def Dev.governorLaws (d : Dev) : Dev :=
  let target : Int := d.inF Reg.BWK_GOV_POLICY_MARGIN_TARGET
  let one (g : Governor) (c : Nat) : Governor :=
    if d.rd (Reg.MON_GOV_GOV_COUNT c) == 0 then g
    else
      let (h, calm) := governorH target (sgn 32 (d.rd (Reg.MON_GOV_P01 c))) (Tab.get 1 g.h c) (Tab.get 0 g.calm c)
      { g with h := Tab.set 1 g.h c h, calm := Tab.set 0 g.calm c calm }
  let g := [0, 1, 2].foldl one d.mon.gov
  { d with mon := { d.mon with gov := { g with f := governorF (d.rd Reg.BWK_GOV_STATUS_F_HW) g.f } } }

/-! Gate lists (R116 to R118) -/

/-- The port that CAL_GATE_SELECT names. -/
def Dev.gatePort (d : Dev) : Nat := d.inF Reg.CAL_GATE_SELECT_PORT

/-- A CAL_GATE_CTRL write: the stored fields, and COMMIT asks for the list at the epoch boundary. -/
def Dev.writeGateCtrl (d : Dev) (ag : Agent) (half : Fin 3) (v : Nat) : Dev :=
  d.byRight ag 0x40068 fun d =>
    let p := d.gatePort
    let d := (d.storeBits (Reg.CAL_GATE_CTRL_ADMIN_ENABLE p) half v).storeBits (Reg.CAL_GATE_CTRL_ADMIN_LEN p) half v
    if halfBit half v 63 then d.askEpochBy (.gatePend p) ag else d

/-- GATE_COMMIT (R118). -/
def execGateCommit (ag : Agent) (half : Fin 3) (value : BitVec 64) (s : State) : Host.Outcome State Fault Refusal :=
  s.run fun d => d.writeGateCtrl ag half value.toNat

/-- The admin list of a port. -/
def Dev.adminList (d : Dev) (p : Nat) : GateList :=
  if d.on (Reg.CAL_GATE_CTRL_ADMIN_ENABLE p) then
    { base := d.inF (Reg.CAL_GATE_ADMIN_BASE p)
      entries := (List.range (d.inF (Reg.CAL_GATE_CTRL_ADMIN_LEN p))).map (fun e => d.inF (Reg.CAL_GATE_ENTRY_W p e)) }
  else {}

/-- The check of a list (R118). -/
def Dev.gateListOk (d : Dev) (p : Nat) : Bool :=
  let g := d.adminList p
  let n := d.inF (Reg.CAL_GATE_CTRL_ADMIN_LEN p)
  !d.on (Reg.CAL_GATE_CTRL_ADMIN_ENABLE p) ||
    (1 ≤ n && n ≤ 1024 && g.base % 8 == 0 && g.cycle < 2 ^ 32 && g.entries.all (fun w => gateNs w % 8 == 0 && 8 ≤ gateNs w))

/-- GATE_LIST_PEND (R118): at E0 the list is checked and becomes pending, to govern the slots from E1, the next epoch boundary, on. -/
def execGateListPend (port : BitVec 4) (s : State) : Host.Outcome State Fault Refusal :=
  s.run fun d => d.ifDue (.gatePend port.toNat) fun d =>
    let p := port.toNat
    if d.gateListOk p then
      ({ d with cal := { d.cal with pend := Tab.set none d.cal.pend p (some (d.adminList p)) } }.put
        (Reg.CAL_GATE_CTRL_PENDING p) 1).askEpoch (.gateOper p)
    else (d.raise Reg.CAL_STATUS_GATE_REFUSED).checkRefused (d.asker (.gatePend p)) 0x40068

/-- The gates of a port by its operational list now: bit q of the queues that are open, bit 16 in an exclusive window. -/
def Dev.gateWord (d : Dev) (p : Nat) : Nat :=
  let g := gateState (Tab.get none d.cal.oper p) d.clk.tide
  g.1 + if g.2 then 65536 else 0

/-- The gates take the state of their list (R116). -/
def Dev.moveGates (d : Dev) (p : Nat) : Dev := { d with cal := { d.cal with gates := Tab.set 0xFFFF d.cal.gates p (d.gateWord p) } }

/-- GATE_LIST_OPERATIONAL (R118): at E1 the pending list governs. -/
def execGateListOperational (port : BitVec 4) (s : State) : Host.Outcome State Fault Refusal :=
  s.run fun d => d.ifDue (.gateOper port.toNat) fun d =>
    let p := port.toNat
    match Tab.get none d.cal.pend p with
    | none => d
    | some g =>
      let d := { d with cal := { d.cal with
          oper := Tab.set none d.cal.oper p (if g.entries.isEmpty then none else some g)
          pend := Tab.set none d.cal.pend p none } }
      ((((d.put (Reg.CAL_GATE_CTRL_PENDING p) 0).putBit (Reg.CAL_GATE_CTRL_OPER_ENABLE p) (!g.entries.isEmpty)).put
        (Reg.CAL_GATE_CTRL_OPER_LEN p) g.entries.length).put (Reg.CAL_GATE_CYCLE_OPER_CYCLE_NS p) g.cycle).moveGates p

/-- GATE_TRANSITION (R116): an interval of a port's list ends and its gates take the next state. -/
def execGateTransition (port : BitVec 4) (s : State) : Host.Outcome State Fault Refusal :=
  s.run fun d => d.moveGates port.toNat

/-- Whether a queue's gate is open, and whether an exclusive window runs. -/
def Dev.gateOpenNow (d : Dev) (p q : Nat) : Bool := (Tab.get 0xFFFF d.cal.gates p).testBit q
def Dev.exclusiveNow (d : Dev) (p : Nat) : Bool := (Tab.get 0xFFFF d.cal.gates p).testBit 16

/-! Policers (R120 to R124) -/

/-- A policer as its registers in force set it. -/
def Dev.policerSet (d : Dev) (i : Nat) : Policer :=
  let tid := d.inF (Reg.CAL_POL_TID i)
  { active := true, trtcm := d.on (Reg.CAL_POL_MODE i), aware := d.on (Reg.CAL_POL_COLOUR_AWARE i),
    yellowDrop := d.on (Reg.CAL_POL_YELLOW_DROP i), redSlack := d.on (Reg.CAL_POL_RED_SLACK i),
    cls := d.inF (Reg.CAL_POL_CLASS i), port := d.inF (Reg.CAL_POL_PORT i), tid := tid, cir := d.inF (Reg.CAL_POL_CIR i),
    eir := d.inF (Reg.CAL_POL_EIR_PIR i), cbs := d.inF (Reg.CAL_POL_CBS i), ebs := d.inF (Reg.CAL_POL_EBS_PBS i),
    inline := d.bit (Reg.CRY_TENANT_RX_OPEN_IN_FORCE tid) }

/-- A tenant's contract bound for a kind and class; 0 where the contract is not enabled. -/
def Dev.contractBound (d : Dev) (tid kind cls : Nat) : Nat :=
  if cls != 3 && d.on (Reg.BWK_CT_DATA_ENABLE (ctKey tid kind cls)) then d.inF (Reg.BWK_CT_DATA_BOUND (ctKey tid kind cls)) else 0

/-- The CBS check (R124). -/
def Dev.burstOk (d : Dev) (p : Policer) : Bool := p.cbs ≤ cirBytes p.cir * (d.contractBound p.tid 2 p.cls / 256 - 2)

/-- Whether needs find room in every slot of the horizon in a class, all or nothing (R124, R306). -/
def Dev.standingRoom (d : Dev) (cls : Nat) (needs : List Need) : Bool :=
  (mergeNeeds needs).all fun n =>
    (List.range 16384).all fun k => n.amt ≤ d.room n.res (d.clk.slotSeq + 1 + k) cls

/-- Put a policer. -/
def Dev.setPolicer (d : Dev) (i : Nat) (p : Policer) : Dev := { d with cal := { d.cal with policers := Tab.set {} d.cal.policers i p } }

/-- Whether two policers book the same and meter with the same rates and bursts. -/
def samePolicer (a b : Policer) : Bool :=
  a.trtcm == b.trtcm && a.cls == b.cls && a.port == b.port && a.tid == b.tid && a.cir == b.cir && a.eir == b.eir &&
    a.cbs == b.cbs && a.ebs == b.ebs

/-- The check of a policer at an epoch boundary (R124). -/
def Dev.checkPolicer (d : Dev) (i : Nat) : Dev :=
  let old := Tab.get {} d.cal.policers i
  let p := d.policerSet i
  if !d.on (Reg.CAL_POL_ENABLE i) then (d.setPolicer i {}).put (Reg.CAL_POL_ACTIVE i) 0
  else if old.active && samePolicer old p then d.setPolicer i { p with tc := old.tc, te := old.te, inline := old.inline }
  else if !d.burstOk p then (d.raise Reg.CAL_STATUS_POL_REFUSED).checkRefused (d.asker (.policer i)) 0x40088
  else if !(d.setPolicer i {}).standingRoom p.cls (d.policerNeeds p) then d.raise Reg.CAL_STATUS_POL_NO_ROOM
  else
    let full := !old.active
    (d.setPolicer i { p with
      tc := if full then p.cbs * 256 else min old.tc (p.cbs * 256)
      te := if full then p.ebs * 256 else min old.te (p.ebs * 256) }).put (Reg.CAL_POL_ACTIVE i) 1

/-- POLICER_CHECK (R124). -/
def execPolicerCheck (policer : BitVec 12) (s : State) : Host.Outcome State Fault Refusal :=
  s.run fun d => d.ifDue (.policer policer.toNat) fun d => d.checkPolicer policer.toNat

/-- The colour of a frame. -/
inductive Colour where | green | yellow | red
deriving DecidableEq, Repr

/-- A policer's refill (R120); te holds the second bucket of either mode. -/
def Policer.refill (p : Policer) : Policer :=
  let cbs := p.cbs * 256
  let ebs := p.ebs * 256
  if p.trtcm then { p with tc := min cbs (p.tc + p.cir), te := min ebs (p.te + p.eir) }
  else
    let t := p.tc + p.cir
    if cbs < t then { p with tc := cbs, te := min ebs (p.te + (t - cbs)) } else { p with tc := t }

/-- A policer colours a frame of n bytes with the colour the classifier carries (R120). -/
def Policer.meter (p : Policer) (pre : Colour) (n : Nat) : Colour × Policer :=
  let b := n * 256
  let pre := if p.aware then pre else .green
  if p.trtcm then
    if pre = .red || p.te < b then (.red, p)
    else if pre = .yellow || p.tc < b then (.yellow, { p with te := p.te - b })
    else (.green, { p with te := p.te - b, tc := p.tc - b })
  else
    if pre = .green && b ≤ p.tc then (.green, { p with tc := p.tc - b })
    else if pre ≠ .red && b ≤ p.te then (.yellow, { p with te := p.te - b })
    else (.red, p)

/-- The refill of every active policer at a slot boundary. -/
def Dev.refillPolicers (d : Dev) : Dev :=
  { d with cal := { d.cal with policers := Tab.mapAll {} d.cal.policers (fun _ p => if p.active then p.refill else p) } }

/-! Shapers (R115, R503) -/

/-- The selected numbers for which a field of a banked register is listed in force. -/
def Dev.banksOf (d : Dev) (f : Fld) : List Nat :=
  ((d.regs.force.map (·.1)).filter (fun k => k % 2 ^ 54 == f.key % 2 ^ 54)).map (fun k => k / 64 / bankStep)

/-- The shapers of one kind at an epoch boundary: one whose RATE leaves 0 is full; one with RATE 0 shapes no more. -/
def Dev.shaperEpoch (d : Dev) (rate burst : Nat → Fld) (t : Tab (Option Int)) : Tab (Option Int) :=
  let t := t.filter (fun p => d.inF (rate p.1) != 0)
  (d.banksOf (rate 0)).foldl (fun t k =>
    if d.inF (rate k) == 0 || (Tab.get none t k).isSome then t else Tab.set none t k (some (d.inF (burst k) : Int))) t

/-- Every shaper gains RATE, up to BURST. -/
def Dev.shaperRefill (d : Dev) (rate burst : Nat → Fld) (t : Tab (Option Int)) : Tab (Option Int) :=
  t.map (fun p => (p.1, p.2.map (fun v => min (v + d.inF (rate p.1)) (d.inF (burst p.1)))))

/-- The leaf and queue shapers at an epoch boundary. -/
def Dev.shapersEpoch (d : Dev) : Dev :=
  { d with cal := { d.cal with
      leafShapers := d.shaperEpoch Reg.CAL_LEAF_SHAPE_RATE Reg.CAL_LEAF_SHAPE_BURST d.cal.leafShapers
      queueShapers := d.shaperEpoch Reg.CAL_QUEUE_SHAPER_RATE Reg.CAL_QUEUE_SHAPER_BURST d.cal.queueShapers } }

/-- The leaf and queue shapers at a slot boundary. -/
def Dev.refillShapers (d : Dev) : Dev :=
  { d with cal := { d.cal with
      leafShapers := d.shaperRefill Reg.CAL_LEAF_SHAPE_RATE Reg.CAL_LEAF_SHAPE_BURST d.cal.leafShapers
      queueShapers := d.shaperRefill Reg.CAL_QUEUE_SHAPER_RATE Reg.CAL_QUEUE_SHAPER_BURST d.cal.queueShapers } }

/-- A shaper lets Slack through while its bucket is not negative, or it does not shape. -/
def shaperOpen (t : Tab (Option Int)) (k : Nat) : Bool :=
  match Tab.get none t k with
  | some v => 0 ≤ v
  | none => true

/-- A shaper pays for wire bytes sent. -/
def shaperPay (t : Tab (Option Int)) (k n : Nat) : Tab (Option Int) :=
  match Tab.get none t k with
  | some v => Tab.set none t k (some (v - n))
  | none => t

/-! Capacities (R106, R153) -/

/-- The settings that still govern a slot of the horizon. -/
def liveEras (now : Nat) : List CapEra → List CapEra
  | [] => []
  | e :: r => if e.start ≤ now then [e] else e :: liveEras now r

/-- The settings that come into force at an epoch boundary govern the slots that enter the horizon from it on; before the release, when no
slot is counted, those of the boundary before govern the slots from 0. -/
def Dev.capacityEpoch (d : Dev) : Dev :=
  let drains := (List.range 16).filter (fun s => d.on (Reg.SHL_CTRL_DRAIN s))
  let new : CapEra := ⟨d.clk.slotSeq + 16384, d.inF Reg.CAL_SHOAL_BOOKED_THREADS, d.inF Reg.CAL_RESERVES_HBM_REEF_RESERVE, drains⟩
  let old := if d.released then liveEras d.clk.slotSeq d.cal.caps else (d.cal.caps.take 1).map fun e => { e with start := 0 }
  { d with cal := { d.cal with caps := new :: old } }

end Sys2Proof.Machine
end

