-- ==== Sys2Proof/Machine/Cipher.lean ====
section
/-! DEFINITION. Key slots, invocations, look-aside engines, sealed channels, wrapped keys and tamper (chapter 14). -/

namespace Sys2Proof.Machine

open Sys2Proof

/-- A counter of Table 14.8. -/
def Dev.cryCount (d : Dev) (n : Nat) (by_ : Nat := 1) : Dev := d.bump (Reg.CRY_CNT_COUNT n) by_

/-! Key slots (R369 to R372) -/

/-- The state of a slot: 0 EMPTY, 1 READY, 2 DRAINING, 3 RETIRED. -/
def Dev.slotState (d : Dev) (k : Nat) : Nat := d.rd (Reg.CRY_SLOT_STATE k)
/-- The key of a slot. -/
def Dev.slotKey (d : Dev) (k : Nat) : List Byte := Tab.get [] d.cry.keys k
/-- Give a slot a key; no key is the empty list. -/
def Dev.setKey (d : Dev) (k : Nat) (key : List Byte) : Dev := { d with cry := { d.cry with keys := Tab.set [] d.cry.keys k key } }
/-- The mode of a slot. -/
def Dev.slotMode (d : Dev) (k : Nat) : Nat := d.inF (Reg.CRY_SLOT_MODE k)

/-- The bytes of key that a mode takes (Table 14.1). -/
def keyBytes (mode : Nat) (wide : Bool) : Nat :=
  if 4 ≤ mode then 0 else (if mode == 2 then 2 else 1) * (if wide then 32 else 16)

/-- A slot becomes EMPTY: key and COUNT are zero, the configuration stays. -/
def Dev.emptySlot (d : Dev) (k : Nat) : Dev :=
  ((d.setKey k []).put (Reg.CRY_SLOT_STATE k) 0).put (Reg.CRY_SLOT_COUNT k) 0

/-- LIMIT as it acts (R371). -/
def Dev.slotLimit (d : Dev) (k : Nat) : Nat :=
  let l := d.inF (Reg.CRY_SLOT_LIMIT k)
  if d.slotMode k == 0 || d.slotMode k == 1 then (if l == 0 then 1 else min l (2 ^ 32)) else l

/-- A draw of an invocation (R371): the value of COUNT before it and the device after it, or none where it fails. Work
that was admitted before its slot drains goes on (Table 14.4). -/
def Dev.drawInvocation (d : Dev) (k : Nat) (admitted : Bool) : Option (Nat × Dev) :=
  let c := d.rd (Reg.CRY_SLOT_COUNT k)
  if d.slotState k == 1 || (d.slotState k == 2 && admitted && c < d.slotLimit k) then
    let d := d.put (Reg.CRY_SLOT_COUNT k) (c + 1)
    some (c, if c + 1 == d.slotLimit k && d.slotState k == 1 then (d.put (Reg.CRY_SLOT_STATE k) 3).cryCount 7 else d)
  else none

/-- The nonce of a GCM seal: SALT and INVOCATION, big-endian (R368). -/
def gcmNonce (salt invocation : Nat) : List Byte := natBe 4 salt ++ natBe 8 invocation

/-- The slots that an operation names (R372, R376). -/
def Dev.opSlot (d : Dev) (q : Req) : Option Nat := (d.namedSlot q).map (·.1)

/-- Whether anything admitted or running still names a slot. -/
def Dev.slotNamed (d : Dev) (k : Nat) : Bool :=
  d.ops.any (fun o => !o.ended && d.opSlot o.req == some k) ||
    d.pair.decisions.any (fun x => x.status == 0 && d.opSlot x.req == some k)

/-- A SLOT_DRAIN write: CRY_SLOT_DRAIN of the selected slot. -/
def Dev.drainSlot (d : Dev) (ag : Agent) : Dev :=
  d.byRight ag 0x700048 fun d =>
    let k := d.inF Reg.CRY_SLOT_SELECT_SLOT
    if d.slotState k == 1 || d.slotState k == 3 then d.put (Reg.CRY_SLOT_STATE k) 2 else d

/-- SLOT_DRAIN (R372). -/
def execSlotDrain (ag : Agent) (s : State) : Host.Outcome State Fault Refusal := s.run fun d => d.drainSlot ag

/-! The wrapped store (R374) -/

/-- Where record w lies. -/
def recordAddr (w : Nat) : Nat := 0x20550000000 + 64 * w

/-- Whether record w is full: bit 0 of its header. -/
def Dev.recordFull (d : Dev) (w : Nat) : Bool := (d.byte (recordAddr w)).toNat % 2 == 1

/-- The configuration that moves with a key. -/
def Dev.slotConfig (d : Dev) (k : Nat) : List Nat :=
  [d.slotMode k, d.inF (Reg.CRY_SLOT_KEY_256 k), d.inF (Reg.CRY_SLOT_USE k), d.inF (Reg.CRY_SLOT_OWNER_KIND k),
   d.inF (Reg.CRY_SLOT_OWNER k), d.inF (Reg.CRY_SLOT_PEER_ID k), d.inF (Reg.CRY_SLOT_SALT k), d.inF (Reg.CRY_SLOT_LIMIT k),
   d.rd (Reg.CRY_SLOT_COUNT k)]

/-- A list of n bytes from one of any length: cut, or padded with zeros. -/
def fitBytes (n : Nat) (l : List Byte) : List Byte := l.take n ++ List.replicate (n - l.length) 0

/-- The bytes of a record: header, then the wrapped key and configuration. -/
def recordBytes (r : WrapRec) : List Byte :=
  natLe 8 1 ++ fitBytes 56 (Config.keyWrap r.under (fitBytes 32 r.key ++ fitBytes 16 (r.cfg.flatMap (natLe 8))))

/-- The result of a sealed channel's command; BUSY clears and DATA clears. -/
def Dev.chanResult (d : Dev) (c res : Nat) : Dev :=
  ({ d with cry := { d.cry with data := d.cry.data.filter (fun p => p.1 / 8 != c) } }.put (Reg.CRY_CHAN_RESULT c) res).put
    (Reg.CRY_CHAN_BUSY c) 0

/-- A drained slot goes into its record (R373): the key moves, and the slot is EMPTY. -/
def Dev.wrapSlot (d : Dev) (k c w : Nat) : Dev :=
  match d.cry.wrapKey with
  | none => (d.emptySlot k).chanResult c 4
  | some key =>
    let r : WrapRec := ⟨d.slotKey k, d.slotConfig k, key⟩
    let d := (d.memPut (recordAddr w) (recordBytes r))
    ({ d with cry := { d.cry with records := Tab.set none d.cry.records w (some r) } }.emptySlot k).chanResult c 0

/-- A draining slot that nothing names any more becomes EMPTY, into its record where a WRAP waits (R372). -/
def Dev.finishDrain (d : Dev) (k : Nat) : Dev :=
  if d.slotState k != 2 || d.slotNamed k then d
  else match d.cry.wraps.find? (fun w => w.1 == k) with
    | some w =>
      let d := { d with cry := { d.cry with wraps := d.cry.wraps.filter (fun w => w.1 != k) } }
      d.wrapSlot k w.2.1 w.2.2
    | none => d.emptySlot k

/-- SLOT_EMPTY (R372). -/
def execSlotEmpty (slot : BitVec 14) (s : State) : Host.Outcome State Fault Refusal := s.run fun d => d.finishDrain slot.toNat

/-- The selected numbers for which a field of a banked register is listed. -/
def Dev.listed (d : Dev) (f : Fld) : List Nat :=
  ((d.regs.cur.map (·.1)).filter (fun k => k % 2 ^ 54 == f.key % 2 ^ 54)).map (fun k => k / 64 / bankStep)

/-- Every draining slot, at a tick boundary. -/
def Dev.finishDrains (d : Dev) : Dev := d.each (d.listed (Reg.CRY_SLOT_STATE 0)) fun d k => d.finishDrain k

/-! Sealed channels (R373) -/

/-- Whether an agent owns a channel. -/
def Dev.ownsChannel (d : Dev) (ag : Agent) (c : Nat) : Bool :=
  match ag with
  | .steward => d.bit (Reg.CRY_CHAN_STEWARD c)
  | .headland => d.bit (Reg.CRY_CHAN_HEADLAND c)
  | .thread _ | .oob | .jtag => false

/-- The offset of a channel's register. -/
def chanOff (c r : Nat) : Nat := 0x700100 + 0x80 * c + r

/-- A command of a channel: only its owner's; discarded while BUSY; the fields are stored, and f does it, unless a self-test has failed (R435). -/
def Dev.chanCommand (d : Dev) (ag : Agent) (c cmd slot record : Nat) (f : Dev → Dev) : Dev :=
  if !d.mayWrite ag (chanOff c 8) || !d.ownsChannel ag c then d.discarded ag (chanOff c 8)
  else if d.bit (Reg.CRY_CHAN_BUSY c) then d
  else (fun d => if d.cry.disabled then d.chanResult c 4 else f d) (((d.storeNow (Reg.CRY_CHAN_CMD_CMD c) cmd).storeNow (Reg.CRY_CHAN_CMD_SLOT c) slot).storeNow (Reg.CRY_CHAN_CMD_RECORD c) record)

/-- Whether a slot's configuration may take a key: a mode of Table 14.1. -/
def Dev.configOk (d : Dev) (k : Nat) : Bool := d.slotMode k < 10

/-- A key enters a slot, which is READY. -/
def Dev.readySlot (d : Dev) (k : Nat) (key : List Byte) : Dev :=
  (d.setKey k (fitBytes (keyBytes (d.slotMode k) (d.on (Reg.CRY_SLOT_KEY_256 k))) key)).put (Reg.CRY_SLOT_STATE k) 1

/-- GENERATE: the fresh key is a free value. -/
def Dev.generate (d : Dev) (c k : Nat) : Dev :=
  if d.slotState k != 0 then d.chanResult c 1
  else if !d.configOk k then d.chanResult c 5
  else
    let (v, d) := d.draw (2 ^ 512 - 1)
    (d.readySlot k (natLe 64 v)).chanResult c 0

/-- GENERATE (R373). -/
def execGenerate (ag : Agent) (chan : BitVec 2) (slot : BitVec 14) (record : BitVec 21) (s : State) :
    Host.Outcome State Fault Refusal :=
  s.run fun d => d.chanCommand ag chan.toNat 1 slot.toNat record.toNat fun d => d.generate chan.toNat slot.toNat

/-- The bytes of a channel's DATA registers. -/
def Dev.chanData (d : Dev) (c : Nat) : List Byte := (List.range 8).flatMap (fun w => natLe 8 (Tab.get 0 d.cry.data (8 * c + w)))

/-- LOAD; on a channel of the steward's it is the one service that is not approved (R434). -/
def Dev.load (d : Dev) (c k : Nat) : Dev :=
  if d.slotState k != 0 then d.chanResult c 1
  else if !d.configOk k || (d.chanData c).all (· == 0) then d.chanResult c 5
  else ((d.readySlot k (d.chanData c)).chanResult c 0).when (d.bit (Reg.CRY_CHAN_STEWARD c)) fun d => d.put Reg.HDL_STATUS_APPROVED 0

/-- LOAD (R373). -/
def execLoad (ag : Agent) (chan : BitVec 2) (slot : BitVec 14) (record : BitVec 21) (s : State) :
    Host.Outcome State Fault Refusal :=
  s.run fun d => d.chanCommand ag chan.toNat 2 slot.toNat record.toNat fun d => d.load chan.toNat slot.toNat

/-- The configuration that a record brings. -/
def Dev.restoreConfig (d : Dev) (k : Nat) (cfg : List Nat) : Dev :=
  let g (i : Nat) := cfg.getD i 0
  ((((((((d.put (Reg.CRY_SLOT_MODE k) (g 0)).put (Reg.CRY_SLOT_KEY_256 k) (g 1)).put (Reg.CRY_SLOT_USE k) (g 2)).put
    (Reg.CRY_SLOT_OWNER_KIND k) (g 3)).put (Reg.CRY_SLOT_OWNER k) (g 4)).put (Reg.CRY_SLOT_PEER_ID k) (g 5)).put
    (Reg.CRY_SLOT_SALT k) (g 6)).put (Reg.CRY_SLOT_LIMIT k) (g 7)).put (Reg.CRY_SLOT_COUNT k) (g 8)

/-- UNWRAP: the record is checked against the wrapping key and its bytes, and is cleared in the same tick. -/
def Dev.unwrap (d : Dev) (c k w : Nat) : Dev :=
  if d.slotState k != 0 then d.chanResult c 1
  else if !d.recordFull w then d.chanResult c 2
  else match d.cry.wrapKey with
    | none => d.chanResult c 4
    | some key =>
      match Tab.get none d.cry.records w with
      | none => d.chanResult c 3
      | some r =>
        if r.under != key || d.bytes (recordAddr w) 64 != recordBytes r then d.chanResult c 3
        else
          let d := d.restoreConfig k r.cfg
          let d := { d with cry := { d.cry with records := Tab.set none d.cry.records w none } }
          ((d.memPut (recordAddr w) (List.replicate 64 0)).readySlot k r.key).chanResult c 0

/-- UNWRAP (R373, R374). -/
def execUnwrap (ag : Agent) (chan : BitVec 2) (slot : BitVec 14) (record : BitVec 21) (s : State) :
    Host.Outcome State Fault Refusal :=
  s.run fun d => d.chanCommand ag chan.toNat 3 slot.toNat record.toNat fun d => d.unwrap chan.toNat slot.toNat record.toNat

/-- WRAP: accepted for a READY slot and an empty record; the slot drains, and BUSY stays until it has. A key of more
than 32 bytes does not fit a record. -/
def Dev.wrapStart (d : Dev) (c k w : Nat) : Dev :=
  if d.slotState k != 1 then d.chanResult c 1
  else if d.recordFull w then d.chanResult c 2
  else if d.cry.wrapKey.isNone then d.chanResult c 4
  else if 32 < (d.slotKey k).length then d.chanResult c 5
  else ({ d with cry := { d.cry with wraps := d.cry.wraps ++ [(k, c, w)] } }.put (Reg.CRY_SLOT_STATE k) 2).put (Reg.CRY_CHAN_BUSY c) 1

/-- WRAP (R373, R374). -/
def execWrap (ag : Agent) (chan : BitVec 2) (slot : BitVec 14) (record : BitVec 21) (s : State) :
    Host.Outcome State Fault Refusal :=
  s.run fun d => d.chanCommand ag chan.toNat 4 slot.toNat record.toNat fun d => d.wrapStart chan.toNat slot.toNat record.toNat

/-! Ends of operations by their slot -/

/-- An operation ends with KEY_EXHAUSTED. -/
def Dev.keyExhausted (d : Dev) (id detail : Nat) : Dev := (d.endByAction id 0x31 detail).cryCount 5

/-- The time in which an engine processes n bytes, 64 of them every 5 ns, in 2^-16 ns (R357). -/
def laFix (n : Nat) : Nat := n * 5120

/-- The bytes of its message that a request has been served on its engine. -/
def Dev.laPos (d : Dev) (r : LaRun) : Nat :=
  if r.suspended then r.done else min r.total (r.done + (d.clk.tide * 65536 - r.from_) / laFix 1)

/-- When an engine can take a request, in 2^-16 ns: not before this tick, nor before the contexts of those it has suspended are saved (R362). -/
def Dev.laFree (d : Dev) (n : Nat) : Nat :=
  ((d.cry.runs.filter (fun r => r.engine == n && r.suspended)).map (·.from_)).foldl max (d.clk.tide * 65536)

/-- A request stops after pos bytes of its message; its context is saved in 32 bytes' time (R362). -/
def LaRun.stopAt (r : LaRun) (pos : Nat) : LaRun :=
  { r with suspended := true, pos := pos, done := pos, from_ := r.from_ + laFix (pos - r.done) + laFix 32 }

/-- A request goes on; its context is restored first, in 32 bytes' time (R362). -/
def LaRun.goOn (r : LaRun) (free : Nat) : LaRun := { r with suspended := false, from_ := free + laFix 32 }

/-- A request leaves its engine at once. -/
def Dev.dropRun (d : Dev) (id : Nat) : Dev :=
  { d with cry := { d.cry with runs := d.cry.runs.filter (fun r => r.op != id) } }.updOp id
    (fun o => { o with going := o.going.filter (fun r => !(r.kind == 4 && 0x10 ≤ r.inst)) })

/-- An opening that has written plaintext carries TAG_FAIL (R376). -/
def Dev.markOpening (d : Dev) (id : Nat) : Dev :=
  if d.cry.runs.any (fun r => r.op == id) then
    d.updOp id (fun o => { o with tagFail := o.tagFail || (o.req.kind == 7 && o.req.code == 1) })
  else d

/-- The operations that name a slot end (R373, R376); carried is what a running one had processed. -/
def Dev.endSlotOps (d : Dev) (p : Nat → Bool) (detail : Nat) (tamper : Bool) : Dev :=
  let hit := d.ops.filter (fun o => !o.ended && (match d.opSlot o.req with | some k => p k | none => false))
  d.each hit fun d o =>
    let d := if tamper then d.markOpening o.id else d
    let pos := ((d.cry.runs.find? (fun r => r.op == o.id)).map d.laPos).getD 0
    let d := d.updOp o.id (fun o => { o with carried := if o.req.kind == 7 then pos else o.carried })
    (d.dropRun o.id).keyExhausted o.id detail

/-- ZERO: the slot is EMPTY at once, and its admitted operations end. A WRAP that waits for the slot ends with result 1
(its slot is no longer in a state to wrap). -/
def Dev.zeroSlot (d : Dev) (c k : Nat) : Dev :=
  let d := d.endSlotOps (· == k) 3 false
  let waits := d.cry.wraps.filter (fun w => w.1 == k)
  let d := { d with cry := { d.cry with wraps := d.cry.wraps.filter (fun w => w.1 != k) } }
  let d := d.each waits fun d w => d.chanResult w.2.1 1
  (d.emptySlot k).chanResult c 0

/-- ZERO (R373). -/
def execZero (ag : Agent) (chan : BitVec 2) (slot : BitVec 14) (record : BitVec 21) (s : State) :
    Host.Outcome State Fault Refusal :=
  s.run fun d => d.chanCommand ag chan.toNat 5 slot.toNat record.toNat fun d => d.zeroSlot chan.toNat slot.toNat

/-- A write of a channel's lock: the first bit set fixes the owner; a write that would set the other is discarded and
logged. -/
def Dev.lockChannel (d : Dev) (ag : Agent) (c : Nat) (steward headland : Bool) : Dev :=
  d.byRight ag (chanOff c 0) fun d =>
    let s := d.bit (Reg.CRY_CHAN_STEWARD c)
    let h := d.bit (Reg.CRY_CHAN_HEADLAND c)
    if (steward && headland) || (steward && h) || (headland && s) then d.discarded ag (chanOff c 0)
    else if steward then d.put (Reg.CRY_CHAN_STEWARD c) 1
    else if headland then d.put (Reg.CRY_CHAN_HEADLAND c) 1
    else d

/-- CHANNEL_LOCK (R373). -/
def execChannelLock (ag : Agent) (chan : BitVec 2) (steward headland : Bool) (s : State) : Host.Outcome State Fault Refusal :=
  s.run fun d => d.lockChannel ag chan.toNat steward headland

/-- Erase every key of the block (R376, R436): slots, wrapping key, contexts, DATA; every operation that names a slot
ends. -/
def Dev.eraseKeys (d : Dev) (detail : Nat) : Dev :=
  let d := d.endSlotOps (fun _ => true) detail true
  let waits := d.cry.wraps
  let d := d.each waits fun d w => d.chanResult w.2.1 1
  let d := d.each (d.listed (Reg.CRY_SLOT_STATE 0)) fun d k => d.emptySlot k
  { d with cry := { d.cry with wrapKey := none, runs := [], data := [], wraps := [], keys := [] } }.put Reg.CRY_STATUS_WRAP_KEY_VALID 0

/-- Headland derives and loads a wrapping key (R375). -/
def Dev.deriveWrapKey (d : Dev) : Dev :=
  { d with cry := { d.cry with wrapKey := some (Config.wrappingKey d.cry.derived), derived := d.cry.derived + 1 } }.put
    Reg.CRY_STATUS_WRAP_KEY_VALID 1

/-- TAMPER_ALARM (R376): source 0 voltage, 1 clock, 2 temperature, 3 mesh, 4 light. -/
def execTamperAlarm (source : Fin 5) (s : State) : Host.Outcome State Fault Refusal :=
  s.run fun d =>
    let d := ((d.eraseKeys 2).raise Reg.CRY_STATUS_TAMPER (2 ^ source.val)).cryCount 8
    (d.report { source := 0x050, kind := 0x22, sev := 2, detail := 2 ^ source.val }).mgmt .cry

/-! Look-aside engines (R358 to R364, R379, R380) -/

/-- The engine of a cipher operation; that of a storage command in its cipher stage is what the stage books (Table 3.4). -/
def Dev.engineOf (d : Dev) (o : Op) : Nat :=
  if o.req.kind == 6 then
    (((o.stage.map (·.needs)).getD []).find? (fun x => x.res.kind == 4 && 0x10 ≤ x.res.inst)).elim 0 (fun x => x.res.inst - 0x10)
  else match o.req.org with
  | .sub _ _ _ => o.aux
  | .ring _ _ | .nvme _ _ | .book _ _ _ | .wire _ => (d.cipherQueue o.req.tid).getD 0 / 32

/-- The local queue of a cipher operation: 0 to 15 for a thread's commands, 16 to 31 for a tenant's. -/
def Dev.queueOf (d : Dev) (o : Op) : Nat :=
  match o.req.org with
  | .sub t _ _ => t % 64 / 4
  | .ring _ _ | .nvme _ _ | .book _ _ _ | .wire _ => (d.cipherQueue o.req.tid).getD 0 % 32

/-- The resource of an engine. -/
def laRes (n : Nat) : Res := ⟨4, 0x10 + n, false⟩

/-- Whether an operation is ready for its engine. A thread's command reads its block when it starts, so only its engine
need be free. -/
def Dev.laReady (d : Dev) (n : Nat) (o : Op) : Bool := (o.req.kind == 7 || o.req.kind == 6) && d.engineOf o == n && o.readyFor (laRes n)

/-- The class as R362 orders it: a smaller number is tighter. -/
def Op.laClass (o : Op) : Nat := if o.slack then 3 else o.req.cls

/-- The request that runs on an engine, and the suspended ones. -/
def Dev.running (d : Dev) (n : Nat) : Option LaRun := d.cry.runs.find? (fun r => r.engine == n && !r.suspended)
def Dev.suspendedOn (d : Dev) (n : Nat) : List LaRun := d.cry.runs.filter (fun r => r.engine == n && r.suspended)

/-- Whether a ready request tighter than a class waits for an engine. -/
def Dev.tighterWaits (d : Dev) (n c : Nat) : Bool := d.ops.any (fun o => d.laReady n o && o.laClass < c)

/-- The claim-5 work of an engine in round-robin order after a queue, first in first out within each (R358). DESIGN CHOICE (log 184): the
unbooked cipher stage of a storage command, which R358 gives no queue, comes after the queues. -/
def Dev.pickQueue (d : Dev) (n : Nat) : Option Op :=
  let turn := Tab.get 0 d.cry.turn n
  let ready := d.ops.filter (fun o => o.slack && d.laReady n o)
  ((List.range 32).findSome? fun i => ready.find? (fun o => o.req.kind == 7 && d.queueOf o == (turn + 1 + i) % 32)).or
    (ready.find? (fun o => o.req.kind == 6))

/-- The request that an engine starts next: booked, late or early work, then claim 5. -/
def Dev.pickRequest (d : Dev) (n : Nat) : Option Op :=
  match d.pickBooked (laRes n) with
  | some o => some o
  | none => d.pickQueue n

/-- The check of a parameter block (R360, Table 14.2). -/
def blockOk (mode code n : Nat) (b : List Byte) : Bool :=
  let aad := leNat (b.take 4)
  let du := leNat ((b.drop 4).take 4)
  aad ≤ n && (aad == 0 || mode == 0 || mode == 1) && ((b.drop 20).take 4).all (· == 0) && ((b.drop 40).take 24).all (· == 0) &&
    (mode != 2 || (16 ≤ n && (du == 0 || (16 ≤ du && du ≤ 16777216)))) && code < 4

/-- The bytes of a mode's block (R362). -/
def modeBlock (mode : Nat) : Nat :=
  match mode with
  | 4 => 64 | 5 | 6 => 128 | 7 => 136 | 8 => 104 | 9 => 72 | _ => 16

/-- Whether a request may be suspended after pos bytes (R362): at a block boundary, and not between the last two blocks of
an XTS data unit that ends in a partial block. -/
def suspendable (mode n aad du pos : Nat) : Bool :=
  let b := modeBlock mode
  if n ≤ pos then false
  else if mode == 2 then
    let u := if du == 0 then n else du
    let unit := min u (n - pos / u * u)
    pos % u % 16 == 0 && !(unit % 16 != 0 && unit - unit % 16 == pos % u && pos % u != 0)
  else if pos ≤ aad then pos == aad || pos % b == 0
  else (pos - aad) % b == 0

/-- The refusal of a thread's command at its start, by Table 14.10: 2 parameter block, 3 slot, 4 range; 0 for none. A
reserved field or operation is refused as 1. -/
def Dev.subRefusal (d : Dev) (o : Op) : Nat :=
  let k := o.req.desc.keySlot.toNat
  match o.req.org with
  | .sub t _ _ =>
    if o.req.desc.bad || 4 ≤ o.req.code then 1
    else if !blockOk (d.slotMode k) o.req.code o.req.desc.length.toNat (o.data.take 128) then 2
    else if (d.namedSlot o.req).any (fun x => !x.2) then 3
    else if !d.subRanges (t / 64) o then 4
    else 0
  | .ring _ _ | .nvme _ _ | .book _ _ _ | .wire _ => 0

/-- The bytes that an engine processes for an operation: AAD and data of a request, the data of a storage command. -/
def Op.laBytes (o : Op) : Nat := if o.req.kind == 6 then stData o.req else o.req.desc.length.toNat

/-- An operation takes the engine, with the time it started; what is booked for it there is served by it. -/
def Dev.enterEngine (d : Dev) (n : Nat) (o : Op) : Dev :=
  let r : LaRun := { op := o.id, engine := n, started := d.clk.tide, from_ := d.laFree n, total := o.laBytes }
  let d := { d with cry := { d.cry with
      runs := d.cry.runs ++ [r]
      turn := if o.slack && o.req.kind == 7 then Tab.set 0 d.cry.turn n (d.queueOf o) else d.cry.turn } }
  (d.updOp o.id (fun o => { o.serve (laRes n) (o.needOf (laRes n)) with going := o.going ++ [laRes n] })).cryCount 0

/-- A request starts (R360, R371, R379): its block is checked, a thread's command is also checked as Table 14.10 orders,
then an invocation is drawn. The nonce drawn stands in its data, in NONCE, for a GCM encrypt or GMAC generate. -/
def Dev.startRequest (d : Dev) (n : Nat) (o : Op) : Dev :=
  let k := o.req.desc.keySlot.toNat
  let mode := d.slotMode k
  let sub := match o.req.org with
    | .sub _ _ _ => true
    | .ring _ _ | .nvme _ _ | .book _ _ _ | .wire _ => false
  if d.subRefusal o != 0 then d.endWith o.id 3 (d.subRefusal o)
  else if !sub && !blockOk mode o.req.code o.req.desc.length.toNat (o.data.take 128) then d.endWith o.id 3 4
  else
    let o := if sub then { o with admitted := d.clk.tide } else o
    let d := d.updOp o.id (fun p => { p with admitted := o.admitted })
    match d.drawInvocation k (!sub) with
    | none => (d.endWith o.id 0x31 1).cryCount 5
    | some (c, d) =>
      let seal_ := (mode == 0 && o.req.code == 0) || (mode == 1 && o.req.code == 2)
      let nonce := gcmNonce (d.inF (Reg.CRY_SLOT_SALT k)) c
      (d.updOp o.id (fun o => { o with data := if seal_ then putData o.data 8 nonce else o.data })).enterEngine n o

/-- A free engine starts the next request, but for one that a suspended request of its class comes before (R363). A storage command in its
cipher stage has no parameter block; its data has been read. -/
def Dev.laStart (d : Dev) (n : Nat) : Dev :=
  if (d.running n).isSome || d.boot.thermTrip then d
  else match d.pickRequest n with
    | none => d
    | some o =>
      if (d.suspendedOn n).any (fun r => match d.op? r.op with | some p => p.laClass ≤ o.laClass | none => false) then d
      else if o.req.kind == 6 then d.enterEngine n o
      else
        let d := if o.fetched then d else (d.updOp o.id (fun o => { o with fetched := true })).startReads o
        match d.op? o.id with
        | some o => if o.reads != 0 then d else d.startRequest n o
        | none => d

/-- LOOKASIDE_REQUEST_START (R371): a free engine starts the next request, or resumes none; where a suspended request
goes first, RESUME does it. -/
def execLookasideRequestStart (engine : BitVec 5) (s : State) : Host.Outcome State Fault Refusal := s.run fun d => d.laStart engine.toNat

/-- Whether the running request may be suspended at a position: from where it has come to on, at the next block boundary. -/
def Dev.mayStop (d : Dev) (r : LaRun) (o : Op) (pos : Nat) : Bool :=
  let du := leNat ((o.data.drop 4).take 4)
  let ok (x : Nat) : Bool := if o.req.kind == 6 then x % 16 == 0 && x < r.total
    else suspendable (d.slotMode o.req.desc.keySlot.toNat) o.req.desc.length.toNat o.aadLen du x
  d.laPos r ≤ pos && ok pos && (List.range (pos - d.laPos r)).all (fun i => !ok (d.laPos r + i))

/-- SUSPEND (R362): the running request stops after pos bytes for a ready one of a strictly tighter class. -/
def execSuspend (engine : BitVec 5) (pos : BitVec 32) (s : State) : Host.Outcome State Fault Refusal :=
  s.run fun d =>
    let n := engine.toNat
    match d.running n with
    | none => d
    | some r =>
      match d.op? r.op with
      | none => d
      | some o =>
        if d.tighterWaits n o.laClass && d.mayStop r o pos.toNat then
          { d with cry := { d.cry with runs := d.cry.runs.map (fun (x : LaRun) => if x.op == r.op then x.stopAt pos.toNat else x) } }.cryCount 6
        else d

/-- The suspended request of the tightest class, if it may run again: no request runs, and no tighter one waits (R363). -/
def Dev.laResume (d : Dev) (n : Nat) : Option LaRun :=
  let cls (r : LaRun) : Nat := ((d.op? r.op).map Op.laClass).getD 4
  if (d.running n).isSome then none
  else (firstBy (fun a b => cls a < cls b) (d.suspendedOn n)).filter (fun r => !d.tighterWaits n (cls r))

/-- RESUME (R363): the suspended request of the tightest class runs again once no tighter one waits. -/
def execResume (engine : BitVec 5) (s : State) : Host.Outcome State Fault Refusal :=
  s.run fun d => match d.laResume engine.toNat with
    | none => d
    | some r => { d with cry := { d.cry with runs := d.cry.runs.map (fun (x : LaRun) =>
        if x.op == r.op then x.goOn (d.laFree engine.toNat) else x) } }

/-- The outcome of a request (R359, R364): the data written at ADDR1, and the tag written or compared. -/
def Dev.cipherResult (d : Dev) (o : Op) : Dev × Bool :=
  let x := o.req.desc
  let k := x.keySlot.toNat
  let mode := d.slotMode k
  let key := d.slotKey k
  let n := x.length.toNat
  let aadLen := o.aadLen
  let aad := (o.data.drop 128).take aadLen
  let src := (o.data.drop (128 + aadLen)).take (n - aadLen)
  let nonce := if mode == 2 then (o.data.drop 24).take 16 else (o.data.drop 8).take 12
  let du := leNat ((o.data.drop 4).take 4)
  let out := fitBytes src.length (Config.cipherData mode (o.req.code == 1) key nonce du src)
  let covers := if o.req.code == 0 then out else src
  let tag := fitBytes (tagBytes mode) (Config.cipherTag mode key nonce aad covers)
  let given := ((o.data.drop 64).take 16)
  let d := if o.req.code < 2 then d.writeOut o x.addr1.toNat out else d
  let sealing := o.req.code == 0 || o.req.code == 2
  let d := if sealing && (mode == 0 || mode == 1) then d.writeOut o (x.addr2.toNat + 8) nonce else d
  let d := if sealing && mode != 2 then d.writeOut o (x.addr2.toNat + 64) tag else d
  (d, !sealing && mode != 2 && tag != given)

/-- A request ends on its engine. -/
def Dev.finishRequest (d : Dev) (n : Nat) (r : LaRun) : Dev :=
  let d := d.dropRun r.op
  match d.op? r.op with
  | none => d
  | some o =>
    if o.ended then d.dropOp o.id
    else
      let len := if o.req.kind == 6 then r.total else o.req.desc.length.toNat
      let (d, bad) := if o.status == 0 && o.req.kind == 7 then d.cipherResult o else (d, false)
      let d := d.cryCount 1 len
      let d := if bad then d.cryCount 4 else d
      let d := d.updOp o.id (fun o => { o with
          carried := if o.req.kind == 6 then o.carried else len, tagFail := bad
          status := if bad then 0x30 else o.status
          detail := if bad then 1 else o.detail })
      d.itemDone o.id (laRes n)

/-- Whether a request has been processed, or its operation has ended. -/
def Dev.laEnds (d : Dev) (r : LaRun) : Bool :=
  r.from_ + laFix (r.total - r.done) ≤ d.clk.tide * 65536 || !(d.op? r.op).any (fun o => !o.ended)

/-- LOOKASIDE_REQUEST_DONE (R364): the running request ends, its tag is written or checked. -/
def execLookasideRequestDone (engine : BitVec 5) (s : State) : Host.Outcome State Fault Refusal :=
  s.run fun d =>
    match d.running engine.toNat with
    | some r => if d.laEnds r then d.finishRequest engine.toNat r else d
    | none => d

/-- What is due on the look-aside engines: the end of the running request, its suspension for a tighter one, a suspended one's return. -/
def Dev.laInstrs (d : Dev) : List Instr :=
  (d.cry.runs.map (·.engine)).eraseDups.flatMap fun n =>
    match d.running n, (d.running n).bind (fun r => d.op? r.op) with
    | some r, some o =>
      if d.laEnds r then [.lookasideRequestDone (BitVec.ofNat 5 n)]
      else if d.tighterWaits n o.laClass then
        (((List.range 272).map (d.laPos r + ·)).find? (d.mayStop r o)).toList.map fun x => .suspend (BitVec.ofNat 5 n) (BitVec.ofNat 32 x)
      else []
    | some _, none => [.lookasideRequestDone (BitVec.ofNat 5 n)]
    | none, _ => if (d.laResume n).isSome then [.resume (BitVec.ofNat 5 n)] else []

/-- At a tick boundary the free engines start what is ready. -/
def Dev.startLookaside (d : Dev) : Dev :=
  d.each ((d.ops.filter (fun o => d.laReady (d.engineOf o) o)).map d.engineOf).eraseDups Dev.laStart

/-! Opening received frames (R366, R367) -/

/-- The active policers of a tenant. -/
def Dev.tenantPolicers (d : Dev) (tid : Nat) : List (Nat × Policer) := d.cal.policers.filter (fun p => p.2.active && p.2.tid == tid)

/-- Book the inline amounts of policers one after another, if each finds room. -/
def bookInline (d : Dev) : List (Nat × Policer) → Option Dev
  | [] => some d
  | (i, p) :: r =>
    let q := { p with inline := true }
    if d.burstOk p && (d.setPolicer i {}).standingRoom p.cls (d.policerNeeds q) then bookInline (d.setPolicer i q) r else none

/-- RX_OPEN_CHECK (R367): a change of RX_OPEN books the inline amounts of every active policer of the tenant, or none. -/
def Dev.checkRxOpen (d : Dev) (tid : Nat) : Dev :=
  let ps := d.tenantPolicers tid
  if !d.on (Reg.CRY_TENANT_RX_OPEN tid) then
    (d.each ps fun d p => d.setPolicer p.1 { p.2 with inline := false }).put (Reg.CRY_TENANT_RX_OPEN_IN_FORCE tid) 0
  else if d.bit (Reg.CRY_TENANT_RX_OPEN_IN_FORCE tid) then d
  else match bookInline d ps with
    | some d => d.put (Reg.CRY_TENANT_RX_OPEN_IN_FORCE tid) 1
    | none => d.raise Reg.CRY_STATUS_OPEN_REFUSED

/-- RX_OPEN_CHECK. -/
def execRxOpenCheck (tid : BitVec 9) (s : State) : Host.Outcome State Fault Refusal :=
  s.run fun d => d.ifDue (.rxOpen tid.toNat) fun d => d.checkRxOpen tid.toNat

end Sys2Proof.Machine
end

