-- ==== Sys2Proof/Machine/Reef.lean ====
section
/-! DEFINITION. Reef: the exact-match table and the prefix memory, lookups, inserts and deletes, paths, ageing, learning
(chapter 11). -/

namespace Sys2Proof.Machine

open Sys2Proof

/-- A counter of Table 11.5. -/
def Dev.reefCount (d : Dev) (n : Nat) (by_ : Nat := 1) : Dev := d.bump (Reg.REEF_CNT_COUNT n) by_

/-! Keys and buckets (R277, R278) -/

/-- The hash of a key under a seed. -/
def reefHash (seed : Nat) (key : List Byte) : Nat := crc32c (natLe 4 seed ++ natLe 1 key.length ++ key)

/-- XOR of numbers as 32-bit words. -/
def xor32 (a b : Nat) : Nat := (BitVec.ofNat 32 a ^^^ BitVec.ofNat 32 b).toNat

/-- The two candidate buckets of a key. -/
def buckets (seed : Nat) (key : List Byte) : Nat × Nat :=
  let b0 := reefHash seed key % 2 ^ 22
  let b1 := reefHash (xor32 seed 0x5A5A5A5A) key % 2 ^ 22
  (b0, if b1 == b0 then xor32 b0 1 else b1)

/-- The fingerprint of a key. -/
def fingerprint (seed : Nat) (key : List Byte) : Nat :=
  let fp := reefHash (xor32 seed 0xA5A5A5A5) key % 2 ^ 12
  if fp == 0 then 1 else fp

/-- The candidate buckets of a key under the seed taken at release. -/
def Dev.bucketsOf (d : Dev) (key : List Byte) : Nat × Nat := buckets d.reef.seed key

/-- The positions of a bucket's slots; a position is bucket × 4 + slot. -/
def slotsOf (b : Nat) : List Nat := [4 * b, 4 * b + 1, 4 * b + 2, 4 * b + 3]

/-- The candidate positions of a key in the order of a lookup. -/
def Dev.places (d : Dev) (key : List Byte) : List Nat :=
  let b := d.bucketsOf key
  slotsOf b.1 ++ slotsOf b.2

/-- The address of a position in HBM, and its group (R277, R414). -/
def emAddr (pos : Nat) : Nat :=
  let b := pos / 4
  (if b % 2 == 0 then 0x205E0000000 else 0x20BE0000000) + b / 2 * 256 + pos % 4 * 64
/-- The HBM group of a position. -/
def emGroup (pos : Nat) : Nat := hbmGroup (emAddr pos)

/-- What a position holds. -/
def Dev.em (d : Dev) (pos : Nat) : Option REntry := Tab.get none d.reef.em pos

/-- The current epoch number's low 16 bits. -/
def Dev.epoch16 (d : Dev) : Nat := d.clk.tide / epochNs % 65536

/-! The entry in memory (R279, R289) -/

/-- The eight words of an entry (Table 11.1). -/
def REntry.words (e : REntry) : List Nat :=
  (List.range 5).map (fun w => leAt e.key (8 * w) 8) ++
  [e.act0 % 2 ^ 64, e.act1 % 2 ^ 64,
   2 ^ 63 + e.static.toNat * 2 ^ 62 + e.learned.toNat * 2 ^ 61 + e.key.length % 64 * 2 ^ 55 + e.owner % 512 * 2 ^ 46 +
     e.port % 16 * 2 ^ 42 + e.age % 65536]

/-- The 64 bytes of an entry, each word little-endian. -/
def REntry.image (e : REntry) : List Byte := e.words.flatMap (natLe 8)

/-- The entry that 64 bytes hold: none where VALID is 0. -/
def entryOf (l : List Byte) : Option REntry :=
  let w := leAt l 56 8
  if w.testBit 63 then
    some { key := l.take (bits w 60 55), act0 := leAt l 40 8, act1 := leAt l 48 8, static := w.testBit 62, learned := w.testBit 61,
           owner := bits w 54 46, port := bits w 45 42, age := w % 65536 }
  else none

/-- The bytes that HBM holds at a position: those of its entry, with the AGE of the last write there. -/
def Dev.hbmImage (d : Dev) (pos : Nat) : List Byte :=
  match d.em pos with
  | none => List.replicate 64 0
  | some e => { e with age := (Tab.get none d.reef.aged pos).getD e.age }.image

/-- The two RS(36,32) codewords of a position, with their addresses folded in (R279, R415). -/
def Dev.hbmCodewords (d : Dev) (pos : Nat) : List Byte × List Byte :=
  let l := d.hbmImage pos
  (codeword (emAddr pos) (l.take 32), codeword (emAddr pos + 32) (l.drop 32))

/-! Writes (R284) -/

/-- Put an exact-match position: its poison goes, and the tag follows. -/
def Dev.putEm (d : Dev) (pos : Nat) (e : Option REntry) : Dev :=
  { d with reef := { d.reef with
      em := Tab.set none d.reef.em pos e
      emPoison := Tab.set false d.reef.emPoison pos false
      aged := Tab.set none d.reef.aged pos none
      ageDue := d.reef.ageDue.filter (· != pos)
      hot := if e.isNone then d.reef.hot.filter (· != pos) else d.reef.hot } }

/-- Put a prefix index. -/
def Dev.putPfx (d : Dev) (ix : Nat) (e : Option PEntry) : Dev :=
  { d with reef := { d.reef with
      pfx := Tab.set none d.reef.pfx ix e, pfxPoison := Tab.set false d.reef.pfxPoison ix false } }

/-- Make one write. -/
def Dev.reefWrite (d : Dev) (w : RWrite) : Dev :=
  match w with
  | .em pos e => d.putEm pos e
  | .pfx ix e => d.putPfx ix e

/-- Queue a write for rank 7. -/
def Dev.queueWrite (d : Dev) (w : RWrite) : Dev := { d with reef := { d.reef with writes := d.reef.writes ++ [w] } }

/-- The queued writes are made. -/
def Dev.flushReef (d : Dev) : Dev :=
  d.reef.writes.foldl Dev.reefWrite { d with reef := { d.reef with writes := [] } }

/-- The tables after the steps that the running paths have still to make in this tick, which rank 7 makes first (R284). -/
def Dev.stepped (d : Dev) : Dev :=
  let d := match d.reef.emPath with
    | some p => if d.reef.emStepped then d else match p.moves with
      | (a, b) :: _ => d.putEm b (d.em a)
      | [] => d.putEm p.last p.entry
    | none => d
  match d.reef.pfxPath with
  | some p => if d.reef.pfxStepped then d else match p.moves with
    | (a, b) :: _ => d.putPfx b (Tab.get none d.reef.pfx a)
    | [] => d.putPfx p.last p.entry
  | none => d

/-- The tables as they will stand after the steps and writes already decided for this tick: what a later decision of the tick sees. -/
def Dev.decided (d : Dev) : Dev := d.reef.writes.foldl Dev.reefWrite d.stepped

/-- The group of the running path's write in this tick. -/
def Dev.stepGroup (d : Dev) : List Nat :=
  match d.reef.emPath with
  | some p => if d.reef.emStepped then [] else [emGroup (match p.moves with | (_, b) :: _ => b | [] => p.last)]
  | none => []

/-! Capacity (R283) -/

/-- The bursts that a group of HBM has left for Reef's lookups in this slot, of its reserve and of what is not booked; the sweep's visit
comes before them. -/
def Dev.burstsLeft (d : Dev) (g : Nat) : Nat :=
  let r : Res := ⟨6, g, false⟩
  let b := d.booked r d.clk.slotSeq 0 + d.booked r d.clk.slotSeq 1 + d.booked r d.clk.slotSeq 2
  598 - Tab.get 0 d.reef.used g - b - (if d.reef.swept then 0 else 1)

/-- The groups of the reads of positions that take a burst: those that the hot-entry store does not hold. -/
def Dev.coldGroups (d : Dev) (reads : List Nat) : List Nat := (reads.filter (fun p => !d.reef.hot.contains p)).map emGroup

/-- Whether a list of bursts, named by their groups, finds capacity. -/
def Dev.burstsFit (d : Dev) (gs : List Nat) : Bool := gs.all fun g => gs.count g ≤ d.burstsLeft g

/-- Whether the reads of positions find capacity. -/
def Dev.readsFit (d : Dev) (reads : List Nat) : Bool := d.burstsFit (d.coldGroups reads)

/-- Take a burst of a group. -/
def Dev.takeBurst (d : Dev) (g : Nat) : Dev := { d with reef := { d.reef with used := Tab.upd 0 d.reef.used g (· + 1) } }

/-- The AGE rewrites that wait and find capacity reach HBM (R283, R289): those of entries that the hot-entry store does not hold, or that
the sweep has visited. -/
def Dev.rewriteAges (d : Dev) : Dev :=
  d.each ((Tab.keys d.reef.aged).filter fun p => !d.reef.hot.contains p || d.reef.ageDue.contains p) fun d p =>
    if d.burstsLeft (emGroup p) == 0 then d
    else { d with reef := { d.reef with aged := Tab.set none d.reef.aged p none, ageDue := d.reef.ageDue.filter (· != p) } }.takeBurst
      (emGroup p)

/-! Lookups (R280 to R283, R288) -/

/-- The positions whose tag shows a key's fingerprint, in order. -/
def Dev.tagged (d : Dev) (key : List Byte) : List Nat :=
  (d.places key).filter fun p => match d.em p with
    | some e => fingerprint d.reef.seed e.key == fingerprint d.reef.seed key
    | none => false

/-- The positions a lookup reads: the tagged ones up to the one that matches. -/
def Dev.readsOf (d : Dev) (key : List Byte) : List Nat :=
  let t := d.tagged key
  match t.findIdx? (fun p => match d.em p with | some e => e.key == key | none => false) with
  | some i => t.take (i + 1)
  | none => t

/-- A position's AGE changes, in the tables; HBM keeps the old one until it is written again (R289). -/
def Dev.setAge (d : Dev) (p : Nat) (e : REntry) : Dev :=
  if e.age == d.epoch16 then d
  else { d with reef := { d.reef with
      em := Tab.set none d.reef.em p (some { e with age := d.epoch16 })
      aged := Tab.set none d.reef.aged p (some ((Tab.get none d.reef.aged p).getD e.age)) } }

/-- An entry's refresh applies to every copy of it, and to those that this tick or a path is still to write (R287, R288). -/
def Dev.refresh (d : Dev) (key : List Byte) : Dev :=
  let up (e : REntry) : REntry := { e with age := d.epoch16 }
  let late (w : RWrite) : RWrite := match w with
    | .em p (some e) => if e.key == key then .em p (some (up e)) else w
    | _ => w
  let path (p : EmPath) : EmPath := { p with entry := p.entry.map fun e => if e.key == key then up e else e }
  let d := { d with reef := { d.reef with writes := d.reef.writes.map late, emPath := d.reef.emPath.map path } }
  d.each (d.places key) fun d p => match d.em p with
    | some e => if e.key == key then d.setAge p e else d
    | none => d

/-- The answer of a lookup. -/
inductive LookAns where
  | miss
  | hit (act0 act1 arg : Nat)
  | poison
  | shed
deriving DecidableEq, Repr

/-- The number of a place of the tables: an exact-match position, the tag line of a bucket, a prefix index. -/
def emPlace (pos : Nat) : Nat := pos
def tagPlace (b : Nat) : Nat := 2 ^ 24 + b
def pfxPlace (i : Nat) : Nat := 2 ^ 25 + i

/-- Whether the read of an entry, a tag line or a prefix entry fails: it is poisoned, or an error of this tick has met it. -/
def Dev.emBad (d : Dev) (p : Nat) : Bool := Tab.get false d.reef.emPoison p || d.reef.found.contains (emPlace p)
def Dev.tagBad (d : Dev) (b : Nat) : Bool := Tab.get false d.reef.tagPoison b || d.reef.found.contains (tagPlace b)
def Dev.pfxBad (d : Dev) (i : Nat) : Bool := Tab.get false d.reef.pfxPoison i || d.reef.found.contains (pfxPlace i)

/-- A failed read has one record (R299): where the error was found in this tick, that of its discovery stands for it. -/
def Dev.reportReef (d : Dev) (place src a : Nat) : Dev :=
  if d.reef.found.contains place then { d with reef := { d.reef with found := d.reef.found.erase place } }
  else d.report { source := 0x040, subsrc := src, kind := 0x04, sev := 1, addr := a }

/-- The tag line that a key's lookup finds poisoned, and the entry. -/
def Dev.badTag (d : Dev) (key : List Byte) : Option Nat := [(d.bucketsOf key).1, (d.bucketsOf key).2].find? d.tagBad

/-- A failed read of a tag line, or of an entry, is counted where a lookup makes it, and logged. -/
def Dev.tagFails (d : Dev) (b : Nat) : Dev := d.reportReef (tagPlace b) 0x71 0
def Dev.emFails (d : Dev) (p : Nat) : Dev := d.reportReef (emPlace p) ((d.memSource (emAddr p)).getD 0) (emAddr p)

/-- A read of the hot-entry store or of HBM: a pipeline's read is placed in the store. -/
def Dev.touchHot (d : Dev) (pipeline hit : Bool) (pos : Nat) : Dev :=
  let was := d.reef.hot.contains pos
  let d := if was then d else d.takeBurst (emGroup pos)
  let d := if was && hit then d.reefCount 2 else d
  if (was && hit) || (!was && pipeline) then
    { d with reef := { d.reef with hot := (pos :: d.reef.hot.filter (· != pos)).take 131072 } } else d

/-- An exact-match lookup, by a pipeline or another reader. -/
def Dev.lookEm (d : Dev) (key : List Byte) (pipeline : Bool) : LookAns × Dev :=
  let d := d.reefCount 0
  let reads := d.readsOf key
  match d.badTag key with
  | some b => (.poison, (d.reefCount 4).tagFails b)
  | none =>
    if pipeline && !d.readsFit reads then (.shed, d.reefCount 3)
    else match reads.find? d.emBad with
    | some p => (.poison, ((d.each reads fun d p => d.touchHot pipeline false p).reefCount 4).emFails p)
    | none =>
      let hitAt := reads.find? (fun p => match d.em p with | some e => e.key == key | none => false)
      let d := d.each reads fun d p => d.touchHot pipeline (hitAt == some p) p
      match hitAt.bind d.em with
      | some e =>
        let d := (d.refresh key).reefCount 1
        (.hit e.act0 e.act1 d.epoch16, d)
      | none => (.miss, d)

/-- Whether a prefix entry matches a 160-bit key. -/
def PEntry.matches (e : PEntry) (key : Nat) : Bool := key / 2 ^ (160 - e.len) == e.value / 2 ^ (160 - e.len)

/-- A prefix lookup (R296): the valid matching entry with the lowest index; a poisoned entry reached first is POISON. -/
def Dev.lookPfx (d : Dev) (key : List Byte) : LookAns × Dev :=
  let d := d.reefCount 0
  let k := beNat key
  let hit (p : Nat × Option PEntry) : Bool := d.pfxBad p.1 || (match p.2 with | some e => e.matches k | none => false)
  match d.reef.pfx.find? hit with
  | some (i, some e) =>
    if d.pfxBad i then (.poison, (d.reefCount 4).reportReef (pfxPlace i) 0x71 0)
    else (.hit e.act0 e.act1 e.len, d.reefCount 1)
  | _ => (.miss, d)

/-- A lookup of either table: 0 exact-match, 1 prefix. -/
def Dev.look (d : Dev) (table : Nat) (key : List Byte) (pipeline : Bool) : LookAns × Dev :=
  if table == 1 then d.lookPfx key else d.lookEm key pipeline

/-! Answers -/

/-- A command is answered: a thread by a 3-word reply, the steward in REEF_CMD_STATUS at the end of the tick. -/
def Dev.answer (d : Dev) (c : RCmd) (status result arg act0 act1 : Nat) : Dev :=
  match c.by_ with
  | .thread t ch token =>
    { d with reef := { d.reef with replies := d.reef.replies ++ [(t, ch, [replyHeader token status result 2 arg, act0, act1])] } }
  | .steward _ => { d with reef := { d.reef with result := some [status, result, arg, act0, act1] } }

/-- The first reply that waits is posted (R227). -/
def Dev.postReply (d : Dev) : Dev :=
  match d.reef.replies with
  | [] => d
  | (t, ch, ws) :: r => { d with reef := { d.reef with replies := r } }.unitPost (unitEnd 0x032) ch ws (some t)

/-- REEF_REPLY (R227). -/
def execReefReply (s : State) : Host.Outcome State Fault Refusal := s.run Dev.postReply

/-- Every reply of the tick is posted that Reef need not keep back (R222), and the steward's result lands, at its end. -/
def Dev.landReplies (d : Dev) : Dev :=
  let one (d : Dev) (x : Nat × Nat × List Nat) : Dev :=
    if d.mayPost (unitEnd 0x032) (x.1 / 64) then d.unitPost (unitEnd 0x032) x.2.1 x.2.2 (some x.1)
    else { d with reef := { d.reef with replies := d.reef.replies ++ [x] } }
  let d := { d with reef := { d.reef with replies := [] } }.each d.reef.replies one
  match d.reef.result with
  | some r =>
    let g (i : Nat) := r.getD i 0
    (((((({ d with reef := { d.reef with result := none } }.put Reg.REEF_CMD_STATUS (g 0)).put Reg.REEF_CMD_RESULT (g 1)).put
      Reg.REEF_CMD_ARG (g 2)).put (Reg.REEF_CMD_RESULT_ACT 0) (g 3)).put (Reg.REEF_CMD_RESULT_ACT 1) (g 4))).put Reg.REEF_CMD_BUSY 0
  | none => d

/-! Exact-match inserts (R285 to R287) -/

/-- MAX_KICKS as it acts. -/
def Dev.maxKicks (d : Dev) : Nat := limit 1 8 (d.inF Reg.REEF_CTRL_MAX_KICKS)

/-- The positions that a running path reserves. -/
def Dev.reserved (d : Dev) : List Nat :=
  match d.reef.emPath with
  | some p => p.slots
  | none => []

/-- Whether a position is free for an insert. -/
def Dev.freePos (d : Dev) (pos : Nat) : Bool := (d.em pos).isNone && !d.reserved.contains pos

/-- The other candidate bucket of the entry at a position. -/
def Dev.otherBucket (d : Dev) (pos : Nat) : Nat :=
  match d.em pos with
  | some e => let b := d.bucketsOf e.key; if pos / 4 == b.1 then b.2 else b.1
  | none => pos / 4

/-- A path of n relocations from the entry at a position: the positions it goes through and the free slot at its end. -/
def Dev.pathFrom (d : Dev) (seen : List Nat) : Nat → Nat → Option (List Nat)
  | 0, _ => none
  | 1, pos => ((slotsOf (d.otherBucket pos)).find? d.freePos).map (fun f => [pos, f])
  | n + 1, pos =>
    (slotsOf (d.otherBucket pos)).findSome? fun q =>
      if seen.contains q || q == pos || (d.em q).isNone || d.reserved.contains q then none
      else (d.pathFrom (pos :: seen) n q).map (pos :: ·)

/-- The shortest path for a key, of at most MAX_KICKS steps; ties go to the lower bucket, then the lower slot. -/
def Dev.findPath (d : Dev) (key : List Byte) : Option (List Nat) :=
  let b := d.bucketsOf key
  let roots := (slotsOf (min b.1 b.2) ++ slotsOf (max b.1 b.2)).filter (fun p => !d.reserved.contains p)
  (List.range d.maxKicks).findSome? fun k => roots.findSome? fun p => d.pathFrom [] (k + 1) p

/-- The moves of a path, last entry first. -/
def movesOf : List Nat → List (Nat × Nat)
  | a :: b :: r => movesOf (b :: r) ++ [(a, b)]
  | _ => []

/-- Where an insert stands. -/
inductive InsAns where
  | present (old : REntry)
  | place (pos : Nat)
  | path (l : List Nat)
  | busy
  | noRoom
deriving DecidableEq, Repr

/-- The entry that the running path has still to write, if it has the key. -/
def Dev.pendingEm (d : Dev) (key : List Byte) : Option REntry :=
  (d.reef.emPath.bind (·.entry)).filter (·.key == key)

/-- The decision of an exact-match insert, on the tables with what this tick has already decided. One that needs a path waits for the tick
after the running path's last write (R287). -/
def Dev.insDecision (d : Dev) (key : List Byte) : InsAns :=
  let v := d.decided
  match ((v.places key).findSome? (fun p => (v.em p).filter (·.key == key))).or (d.pendingEm key) with
  | some e => .present e
  | none => match (v.places key).find? v.freePos with
    | some p => .place p
    | none => if d.reef.emPath.isSome || d.reef.emStepped then .busy else match v.findPath key with
      | some l => .path l
      | none => .noRoom

/-- Start a path: its first write is one of this tick's (R286). -/
def Dev.startPath (d : Dev) (l : List Nat) (e : REntry) (c : Option RCmd) : Dev :=
  let v := d.decided
  let (w, later) := match movesOf l with
    | (a, b) :: r => ([RWrite.em b (v.em a)], r)
    | [] => ([], [])
  { d with reef := { d.reef with
      emPath := some { moves := later, last := l.headD 0, entry := some e, cmd := c, slots := l }
      emStepped := true, writes := d.reef.writes ++ w } }.reefCount 7 (l.length - 1)

/-- A replace applies to every copy of an entry, and to the one a path is still to write. -/
def Dev.replaceEm (d : Dev) (key : List Byte) (f : REntry → REntry) : Dev :=
  let v := d.decided
  let d := d.each (v.places key) fun d p => match v.em p with
    | some e => if e.key == key then d.queueWrite (.em p (some (f e))) else d
    | none => d
  match d.reef.emPath, d.pendingEm key with
  | some p, some e => { d with reef := { d.reef with emPath := some { p with entry := some (f e) } } }
  | _, _ => d

/-- Put a command at the end of those that wait. -/
def Dev.waitCmd (d : Dev) (c : RCmd) : Dev := { d with reef := { d.reef with cmds := d.reef.cmds ++ [c] } }

/-- The positions that a decided insert, or a delete, writes in its tick. -/
def Dev.insWrites (d : Dev) (key : List Byte) : List Nat :=
  match d.insDecision key with
  | .present _ => (d.decided.places key).filter fun p => match d.decided.em p with | some e => e.key == key | none => false
  | .place p => [p]
  | .path l => l.getLast?.toList
  | .busy | .noRoom => []
def Dev.delWrites (d : Dev) (key : List Byte) : List Nat :=
  (d.decided.places key).filter fun p => match d.decided.em p with | some e => e.key == key | none => false

/-- The bursts of the reads and writes of an insert or delete are taken. -/
def Dev.takeBursts (d : Dev) (key : List Byte) (ws : List Nat) : Dev :=
  d.each (d.coldGroups (d.readsOf key) ++ ws.map emGroup) Dev.takeBurst

/-- The device in which an exact-match insert or delete has met a failed read of its buckets, if it has (R227). -/
def Dev.bucketFails (d : Dev) (key : List Byte) : Option Dev :=
  match d.badTag key with
  | some b => some (d.tagFails b)
  | none => ((d.readsOf key).find? d.emBad).map d.emFails

/-- An exact-match insert by command. -/
def Dev.insEm (d : Dev) (c : RCmd) : Dev :=
  let static := match c.by_ with
    | .steward st => st
    | .thread _ _ _ => !d.on Reg.REEF_CTRL_INS_AGES
  let e : REntry := { key := c.key, act0 := c.act0, act1 := c.act1, static := static, age := d.epoch16 }
  match d.insDecision c.key with
  | .present old =>
    let up (x : REntry) : REntry := { x with act0 := c.act0, act1 := c.act1, age := d.epoch16, learned := false, owner := 0, port := 0 }
    (d.replaceEm c.key up).answer c 0 3 0 old.act0 old.act1
  | .place p => ((d.queueWrite (.em p (some e))).reefCount 5).answer c 0 2 0 0 0
  | .path l => (d.startPath l e (some c)).reefCount 5
  | .busy => d.waitCmd c
  | .noRoom => (d.reefCount 6).answer c 0 6 0 0 0

/-- An exact-match delete: every copy is cleared, and a path's later step writes an empty slot (R287). -/
def Dev.delEm (d : Dev) (c : RCmd) : Dev :=
  let v := d.decided
  let at_ := (v.places c.key).filter (fun p => match v.em p with | some e => e.key == c.key | none => false)
  let late := d.pendingEm c.key
  if at_.isEmpty && late.isNone then d.answer c 0 5 0 0 0
  else
    let d := d.each at_ fun d p => d.queueWrite (.em p none)
    let d := if late.isNone then d else
      { d with reef := { d.reef with emPath := d.reef.emPath.map (fun (p : EmPath) => { p with entry := none }) } }
    (d.reefCount 8).answer c 0 4 0 0 0

/-! Prefix inserts and deletes (R295, R297, R298) -/

/-- The entries of the prefix memory in index order. -/
def Dev.pfxList (d : Dev) : List (Nat × PEntry) := d.reef.pfx.filterMap (fun p => p.2.map (fun e => (p.1, e)))

/-- The prefix indexes that a running path reserves. -/
def Dev.pfxReserved (d : Dev) : List Nat :=
  match d.reef.pfxPath with
  | some p => p.slots
  | none => []

/-- The number of prefix indexes. -/
def pfxSize : Nat := 262144

/-- The lowest index from i on that is not used, for at most fuel steps. -/
def freeUp (used : List Nat) : Nat → Nat → Nat
  | 0, i => i
  | n + 1, i => if used.contains i then freeUp used n (i + 1) else i

/-- The highest index below i that is not used. -/
def freeDown (used : List Nat) : Nat → Option Nat
  | 0 => none
  | i + 1 => if used.contains i then freeDown used i else some i

/-- The first indexes of the runs of one length in a list of entries with rising indexes. -/
def runStarts : Option Nat → List (Nat × PEntry) → List Nat
  | _, [] => []
  | l, (i, e) :: r => if l == some e.len then runStarts l r else i :: runStarts (some e.len) r

/-- Moves that carry the entry at each start to the next, the last one to the free index; made from the free index
back. -/
def shiftMoves : List Nat → Nat → List (Nat × Nat)
  | [], _ => []
  | [a], f => [(a, f)]
  | a :: b :: r, f => shiftMoves (b :: r) f ++ [(a, b)]

/-- Where a prefix insert stands: its index, or the moves that open one. -/
inductive PfxAns where
  | present (old : PEntry)
  | place (ix : Nat)
  | path (moves : List (Nat × Nat)) (last : Nat)
  | busy
  | noRoom
deriving DecidableEq, Repr

/-- The prefix entry that the running path has still to write, if it has the value and the length. -/
def Dev.pendingPfx (d : Dev) (value len : Nat) : Option PEntry :=
  (d.reef.pfxPath.bind (·.entry)).filter (fun e => e.len == len && e.value == value)

/-- The decision of a prefix insert (R297). -/
def Dev.pfxDecision (d : Dev) (value len : Nat) : PfxAns :=
  let v := d.decided
  let es := v.pfxList
  let used := es.map (·.1) ++ v.pfxReserved
  let from_ := ((es.filter (fun p => len < p.2.len)).map (fun p => p.1 + 1)).foldl max 0
  let until_ := ((es.filter (fun p => p.2.len < len)).map (·.1)).foldl min pfxSize
  match ((es.find? (fun p => p.2.len == len && p.2.value == value)).map (·.2)).or (d.pendingPfx value len) with
  | some e => .present e
  | none =>
    let f := freeUp used (used.length + 1) from_
    if f < until_ then .place f
    else if d.reef.pfxPath.isSome || d.reef.pfxStepped then .busy
    else
      let dn := freeUp used (used.length + 1) until_
      let up := freeDown used from_
      let dnStarts := runStarts none (es.filter (fun p => until_ ≤ p.1 && p.1 < dn))
      let upEnds := match up with
        | some u => runStarts none (es.filter (fun p => u < p.1 && p.1 < from_)).reverse
        | none => []
      if dn < pfxSize && (up.isNone || dnStarts.length ≤ upEnds.length) then .path (shiftMoves dnStarts dn) (dnStarts.headD dn)
      else match up with
        | some u => .path (shiftMoves upEnds u) (upEnds.headD u)
        | none => .noRoom

/-- The value of a prefix, its bits below the length zero. -/
def pfxValue (key : List Byte) (len : Nat) : Nat := beNat key / 2 ^ (160 - len) * 2 ^ (160 - len)

/-- Start a prefix path: its first move is one of this tick's writes. -/
def Dev.startPfx (d : Dev) (ms : List (Nat × Nat)) (last : Nat) (e : PEntry) (c : RCmd) : Dev :=
  let v := d.decided
  let (w, later) := match ms with
    | (a, b) :: r => ([RWrite.pfx b (Tab.get none v.reef.pfx a)], r)
    | [] => ([], [])
  { d with reef := { d.reef with
      pfxPath := some { moves := later, last := last, entry := some e, cmd := c, slots := last :: ms.flatMap (fun (m : Nat × Nat) => [m.1, m.2]) }
      pfxStepped := true, writes := d.reef.writes ++ w } }.reefCount 14 ms.length

/-- Every copy of a prefix entry is written anew, or cleared, and the one that a path is still to write as well. -/
def Dev.writePfx (d : Dev) (value len : Nat) (e : Option PEntry) : Dev :=
  let v := d.decided
  let late := d.pendingPfx value len
  let d := d.each (v.pfxList.filter (fun p => p.2.len == len && p.2.value == value)) fun d p => d.queueWrite (.pfx p.1 e)
  if late.isNone then d else { d with reef := { d.reef with pfxPath := d.reef.pfxPath.map (fun (p : PfxPath) => { p with entry := e }) } }

/-- A prefix insert. -/
def Dev.insPfx (d : Dev) (c : RCmd) : Dev :=
  let val := pfxValue c.key c.plen
  let e : PEntry := ⟨val, c.plen, c.act0, c.act1⟩
  match d.pfxDecision val c.plen with
  | .present old => (d.writePfx val c.plen (some e)).answer c 0 3 0 old.act0 old.act1
  | .place i => ((d.queueWrite (.pfx i (some e))).reefCount 5).answer c 0 2 0 0 0
  | .path ms l => (d.startPfx ms l e c).reefCount 5
  | .busy => d.waitCmd c
  | .noRoom => (d.reefCount 6).answer c 0 6 0 0 0

/-- A prefix delete. -/
def Dev.delPfx (d : Dev) (c : RCmd) : Dev :=
  let val := pfxValue c.key c.plen
  let held := d.decided.pfxList.any (fun p => p.2.len == c.plen && p.2.value == val) || (d.pendingPfx val c.plen).isSome
  if held then ((d.writePfx val c.plen none).reefCount 8).answer c 0 4 0 0 0 else d.answer c 0 5 0 0 0

/-! Commands (R226 to R228, R300) -/

/-- Whether a command's fields lie in their ranges (Table 8.10). -/
def reefFieldsOk (op table keyLen plen : Nat) (key : List Byte) (act0 act1 : Nat) (reserved : Bool) : Bool :=
  !reserved && 1 ≤ op && op ≤ 3 && (table == 0 || table == 1) &&
    (if table == 1 then keyLen == 20 else 1 ≤ keyLen && keyLen ≤ 40) &&
    (if table == 1 && op != 1 then plen ≤ 160 else plen == 0) &&
    (key.drop keyLen).all (· == 0) && (op == 2 || (act0 == 0 && act1 == 0))

/-- A lookup by command. -/
def Dev.lookCmd (d : Dev) (c : RCmd) : Dev :=
  match d.look c.table c.key false with
  | (.hit a0 a1 arg, d) => d.answer c 0 1 arg a0 a1
  | (.miss, d) | (.shed, d) => d.answer c 0 0 0 0 0
  | (.poison, d) => d.answer c 0x61 0 0 0 0

/-- The positions that a command writes. -/
def Dev.cmdWrites (d : Dev) (c : RCmd) : List Nat :=
  if c.op == 1 then [] else if c.op == 2 then d.insWrites c.key else d.delWrites c.key

/-- Whether a command's reads, and its writes, fit (R283): the prefix memory takes none. A running path's step comes before it. -/
def Dev.cmdFits (d : Dev) (c : RCmd) : Bool :=
  c.table == 1 || c.bad || d.burstsFit (d.stepGroup ++ d.coldGroups (d.readsOf c.key) ++ (d.cmdWrites c).map emGroup)

/-- An exact-match insert or delete: POISON where a read of its buckets fails (R227), else f with its bursts taken. -/
def Dev.bucketCmd (d : Dev) (c : RCmd) (f : Dev → Dev) : Dev :=
  match d.bucketFails c.key with
  | some e => e.answer c 0x61 0 0 0 0
  | none => f (d.takeBursts c.key (d.cmdWrites c))

/-- Apply a command. -/
def Dev.applyCmd (d : Dev) (c : RCmd) : Dev :=
  if c.bad then d.answer c 3 0 0 0 0
  else
    match c.op, c.table with
    | 1, _ => d.lookCmd c
    | 2, 1 => d.insPfx c
    | 2, _ => d.bucketCmd c (·.insEm c)
    | _, 1 => d.delPfx c
    | _, _ => d.bucketCmd c (·.delEm c)

/-- A command arrives: it is applied when Breakwater is released and its reads fit; otherwise it waits. -/
def Dev.reefCmd (d : Dev) (c : RCmd) : Dev := if d.released && d.cmdFits c then d.applyCmd c else d.waitCmd c

/-- The steward's commands that wait are tried again, after the threads' (R62, R283). -/
def Dev.retryCmds (d : Dev) : Dev :=
  let mine (c : RCmd) : Bool := match c.by_ with | .steward _ => true | .thread _ _ _ => false
  (d.reef.cmds.filter mine).foldl Dev.reefCmd { d with reef := { d.reef with cmds := d.reef.cmds.filter (fun c => !mine c) } }

/-- The key that the KEY registers hold. -/
def Dev.cmdKey (d : Dev) : List Byte := (List.range 5).flatMap (fun w => natLe 8 (d.inF (Reg.REEF_CMD_KEY w)))

/-- A REEF_CMD write with GO. -/
def Dev.stewardCmd (d : Dev) (ag : Agent) (op : Nat) (static : Bool) (table keyLen plen : Nat) (reserved : Bool) : Dev :=
  d.byRight ag 0x400100 fun d =>
    if d.bit Reg.REEF_CMD_BUSY then d.discarded ag 0x400100
    else
      let d := ((((d.store Reg.REEF_CMD_OP op).store Reg.REEF_CMD_STATIC (if static then 1 else 0)).store Reg.REEF_CMD_TABLE table).store
        Reg.REEF_CMD_KEY_LEN keyLen).store Reg.REEF_CMD_PREFIX_LEN plen
      let key := d.cmdKey
      let a0 := d.inF (Reg.REEF_CMD_ACT 0)
      let a1 := d.inF (Reg.REEF_CMD_ACT 1)
      let c : RCmd := { by_ := .steward static, op := op, table := table, key := key.take keyLen, plen := plen, act0 := a0, act1 := a1,
                        bad := !reefFieldsOk op table keyLen plen key (if op == 2 then a0 else 0) (if op == 2 then a1 else 0) reserved }
      (d.put Reg.REEF_CMD_BUSY 1).reefCmd c

/-- REEF_CMD_LOOK (R300). -/
def execReefCmdLook (ag : Agent) (static : Bool) (table : BitVec 2) (keyLen plen : BitVec 8) (reserved : Bool) (s : State) :
    Host.Outcome State Fault Refusal :=
  s.run fun d => d.stewardCmd ag 1 static table.toNat keyLen.toNat plen.toNat reserved

/-- REEF_CMD_INS (R300). -/
def execReefCmdIns (ag : Agent) (static : Bool) (table : BitVec 2) (keyLen plen : BitVec 8) (reserved : Bool) (s : State) :
    Host.Outcome State Fault Refusal :=
  s.run fun d => d.stewardCmd ag 2 static table.toNat keyLen.toNat plen.toNat reserved

/-- REEF_CMD_DEL (R300). -/
def execReefCmdDel (ag : Agent) (static : Bool) (table : BitVec 2) (keyLen plen : BitVec 8) (reserved : Bool) (s : State) :
    Host.Outcome State Fault Refusal :=
  s.run fun d => d.stewardCmd ag 3 static table.toNat keyLen.toNat plen.toNat reserved

/-! Rank 7: path steps, learning, ageing -/

/-- One write of the running exact-match path: a move, or the new entry with its reply (R286); without a burst for it, the path waits
(R283). -/
def Dev.pathStep (d : Dev) : Dev :=
  match d.reef.emPath with
  | none => d
  | some p =>
    if !d.burstsFit d.stepGroup then d else
    let d := { d.each d.stepGroup Dev.takeBurst with reef := { (d.each d.stepGroup Dev.takeBurst).reef with emStepped := true } }
    match p.moves with
    | (a, b) :: r => { d with reef := { d.reef with emPath := some { p with moves := r } } }.putEm b (d.em a)
    | [] =>
      let d := { d with reef := { d.reef with emPath := none } }.putEm p.last p.entry
      match p.cmd with
      | some c => d.answer c 0 2 0 0 0
      | none => d

/-- REEF_PATH_STEP (R286). -/
def execReefPathStep (s : State) : Host.Outcome State Fault Refusal := s.run fun d => if d.reef.emStepped then d else d.pathStep

/-- One move of the running prefix path, or the new entry with its reply (R297). -/
def Dev.pfxStep (d : Dev) : Dev :=
  match d.reef.pfxPath with
  | none => d
  | some p =>
    let d := { d with reef := { d.reef with pfxStepped := true } }
    match p.moves with
    | (a, b) :: r => { d with reef := { d.reef with pfxPath := some { p with moves := r } } }.putPfx b (Tab.get none d.reef.pfx a)
    | [] => ({ d with reef := { d.reef with pfxPath := none } }.putPfx p.last p.entry).answer p.cmd 0 2 0 0 0

/-- PFX_MOVE (R297). -/
def execPfxMove (s : State) : Host.Outcome State Fault Refusal := s.run fun d => if d.reef.pfxStepped then d else d.pfxStep

/-- One learn request is committed (R294); false where it waits for the running path, or for bursts (R283). -/
def Dev.commitLearn (d : Dev) (l : Learn) : Dev × Bool :=
  let e : REntry := { key := l.key, act0 := l.act0, act1 := l.act1, learned := true, owner := l.owner, port := l.port, age := d.epoch16 }
  let ws := match d.insDecision l.key with | .present _ => [] | _ => d.insWrites l.key
  if !d.burstsFit (d.coldGroups (d.readsOf l.key) ++ ws.map emGroup) then (d, false)
  else
  let d := d.takeBursts l.key ws
  match d.insDecision l.key with
  | .present _ => ((d.refresh l.key).reefCount 10, true)
  | .place p => ((d.putEm p (some e)).reefCount 10, true)
  | .path ps => ((d.startPath ps e none).reefCount 10, true)
  | .busy => (d, false)
  | .noRoom => (d.reefCount 13, true)

/-- Up to n requests of the learn queue are committed. -/
def Dev.commitLearns (d : Dev) : Nat → Dev
  | 0 => d
  | n + 1 => match d.reef.learnQ with
    | [] => d
    | l :: r => match d.commitLearn l with
      | (e, true) => { e with reef := { e.reef with learnQ := r } }.commitLearns n
      | (_, false) => d

/-- LEARN_COMMIT (R294): up to two requests, once in a tick, after the writes of the tick's commands. -/
def execLearnCommit (s : State) : Host.Outcome State Fault Refusal :=
  s.run fun d => if d.reef.committed then d else
    let d := (d.flushReef.commitLearns 2).flushReef
    { d with reef := { d.reef with committed := true } }

/-- AGE_LIMIT as it acts. -/
def Dev.ageLimit (d : Dev) : Nat := limit 1 0xFF80 (d.inF Reg.REEF_AGE_AGE_LIMIT)

/-- Whether an entry is stale (R290). -/
def Dev.stale (d : Dev) (e : REntry) : Bool :=
  d.on Reg.REEF_AGE_AGE_ENABLE && !e.static && d.ageLimit ≤ (d.epoch16 + 65536 - e.age) % 65536

/-- The sweep's visit of one position: a poisoned entry is removed and the tag line is written again (R299); a stale one is
removed (R291); a path's entries are passed over (R287). -/
def Dev.visit (d : Dev) (pos : Nat) : Dev :=
  if d.reserved.contains pos then d
  else if d.emBad pos then
    ({ d with reef := { d.reef with tagPoison := Tab.set false d.reef.tagPoison (pos / 4) false } }.putEm pos none).reefCount 15 |>.emFails pos
  else match d.em pos with
    | some e =>
      if d.stale e then (d.putEm pos none).reefCount 9
      else if (Tab.get none d.reef.aged pos).isSome && !d.reef.ageDue.contains pos then
        { d with reef := { d.reef with ageDue := d.reef.ageDue ++ [pos] } }
      else d
    | none => d

/-- The position of entry n of a group in ascending address order: the group has the bursts whose address bits name it. -/
def groupPos (g n : Nat) : Nat :=
  let burst := n / 4 * 32 + g % 8 * 4 + n % 4
  (burst / 4 * 2 + g / 8) * 4 + burst % 4

/-- The sweep visits one entry of every group (R291), and moves on. -/
def Dev.sweepVisit (d : Dev) : Dev :=
  let n := d.reef.sweep
  let d := d.each (List.range 16) fun d g => (d.takeBurst g).visit (groupPos g n)
  { d with reef := { d.reef with sweep := (n + 1) % 1048576, swept := true } }

/-- AGEING_SWEEP_VISIT (R291): once in a slot, after the writes of the tick's commands. -/
def execAgeingSweepVisit (s : State) : Host.Outcome State Fault Refusal :=
  s.run fun d => if d.reef.swept then d else d.flushReef.sweepVisit

/-- Reef's rank 7 at the end of a tick (R284), with what commands have not already done. -/
def Dev.reefEnd (d : Dev) : Dev :=
  let d := if d.reef.emStepped then d else d.pathStep
  let d := if d.reef.pfxStepped then d else d.pfxStep
  let d := d.flushReef
  let d := if d.reef.committed then d else (d.commitLearns 2).flushReef
  let d := if d.reef.swept then d else d.sweepVisit
  { d with reef := { d.reef with emStepped := false, pfxStepped := false, committed := false, found := [] } }.landReplies

/-- A slot starts: its bursts are free, and the sweep has a visit to make. -/
def Dev.reefSlot (d : Dev) : Dev := { d with reef := { d.reef with used := [], swept := false } }

/-! Counts (Table 11.2, Table 11.4, R293) -/

/-- The entries, copies on a path counted once. -/
def Dev.emEntries (d : Dev) : List REntry :=
  (d.reef.em.filterMap (·.2)).foldl (fun l e => if l.any (fun x => x.key == e.key) then l else l ++ [e]) []

/-- The entry that a learning commit's path has still to write counts as learned. -/
def Dev.lateLearned (d : Dev) : List REntry :=
  ((d.reef.emPath.bind (·.entry)).filter (fun e => e.learned && d.emEntries.all (fun x => x.key != e.key))).toList

/-- Learned and queued entries of a port, and of a tenant. -/
def Dev.portLearned (d : Dev) (p : Nat) : Nat :=
  ((d.emEntries ++ d.lateLearned).filter (fun e => e.learned && e.port == p)).length + (d.reef.learnQ.filter (fun l => l.port == p)).length
/-- Those charged to a tenant. -/
def Dev.tenantLearned (d : Dev) (t : Nat) : Nat :=
  ((d.emEntries ++ d.lateLearned).filter (fun e => e.learned && e.owner == t)).length + (d.reef.learnQ.filter (fun l => l.owner == t)).length

end Sys2Proof.Machine
end

