-- ==== Sys2Proof/Machine/Net.lean ====
section
/-! DEFINITION. Frames: their check sequence, PTP event messages, receive operations, runs held for shoals, and the order of
claims on a port's transmit side (chapters 04, 09, 10 and 15). -/

namespace Sys2Proof.Machine

open Sys2Proof

/-- A port counter of Table 9.7, and a classification counter of Table 10.13. -/
def Dev.macCount (d : Dev) (p n : Nat) (by_ : Nat := 1) : Dev := d.bump (Reg.MAC_CNT_COUNT p n) by_
def Dev.prsCount (d : Dev) (n : Nat) : Dev := d.bump (Reg.PRS_CNT_COUNT n)

/-- The codewords that a port's receiver corrected, and could not correct, in a tick (Table 9.7). DESIGN CHOICE (log 193): what the line brings
is a free value; of codewords of 5,440 bits at most two end in a tick. -/
def fecOutcome (v : Nat) : Nat × Nat :=
  match v with
  | 0 => (0, 0) | 1 => (1, 0) | 2 => (2, 0) | 3 => (0, 1) | 4 => (0, 2) | _ => (1, 1)
def Dev.fecTick (d : Dev) (p : Nat) : Dev :=
  let (v, d) := d.draw 5
  let (good, bad) := fecOutcome v
  (d.macCount p 9 good).macCount p 10 bad

/-- Every port that is aligning or up receives codewords (Table 9.2). -/
def Dev.fecTicks (d : Dev) : Dev :=
  d.each ((List.range 16).filter fun p => d.portActive p && 2 ≤ d.rd (Reg.MAC_STATUS_LINK_STATE p)) Dev.fecTick

/-! Bytes of frames -/

/-- A byte, and two bytes in network order; beyond the end they read as 0. -/
def byteAt (l : List Byte) (i : Nat) : Nat := (l.getD i 0).toNat
def be16 (l : List Byte) (i : Nat) : Nat := byteAt l i * 256 + byteAt l (i + 1)

/-- The frame check sequence of a frame's bytes before it. -/
def fcsOf (l : List Byte) : List Byte := natLe 4 (crc32 l)

/-- A frame without its last 4 bytes. -/
def body (l : List Byte) : List Byte := l.take (l.length - 4)

/-- Bytes replaced from an offset on. -/
def patch (l : List Byte) (at_ : Nat) (x : List Byte) : List Byte := l.take at_ ++ x ++ l.drop (at_ + x.length)

/-- A type that stands for a tag. -/
def isTag (t : Nat) : Bool := t == 0x8100 || t == 0x88A8

/-- Where the L2 header ends: at the first Ethertype that is not a tag's, at most two tags deep (R365). -/
def l2Len (l : List Byte) : Nat :=
  if !isTag (be16 l 12) then 12 else if !isTag (be16 l 16) then 16 else 20

/-! PTP event messages (R248, R250) -/

/-- Where the PTP header of a frame stands, and its UDP header with whether it is IPv6. -/
def ptpAt (l : List Byte) : Option (Nat × Option (Nat × Bool)) :=
  let e := l2Len l
  let ip := e + 2
  if be16 l e == 0x88F7 then some (ip, none)
  else if be16 l e == 0x0800 && byteAt l ip == 0x45 && be16 l (ip + 6) % 8192 == 0 && byteAt l (ip + 9) == 17 &&
      be16 l (ip + 22) == 319 then some (ip + 28, some (ip + 20, false))
  else if be16 l e == 0x86DD && byteAt l ip / 16 == 6 && byteAt l (ip + 6) == 17 && be16 l (ip + 42) == 319 then
    some (ip + 48, some (ip + 40, true))
  else none

/-- The same, for an event message: messageType 0 to 3 (the layout of the PTP header is IEEE 1588's, PRESUMED). -/
def eventAt (l : List Byte) : Option (Nat × Option (Nat × Bool)) :=
  match ptpAt l with
  | some (o, u) => if o + 34 ≤ l.length && byteAt l o % 16 < 4 then some (o, u) else none
  | none => none

/-- messageType of a PTP header. -/
def ptpType (l : List Byte) (o : Nat) : Nat := byteAt l o % 16

/-- The sum of 16-bit words. -/
def sum16 : List Byte → Nat
  | a :: b :: r => a.toNat * 256 + b.toNat + sum16 r
  | [a] => a.toNat * 256
  | [] => 0

/-- A ones' complement sum folded to 16 bits. -/
def fold16 (n : Nat) : Nat := if n == 0 then 0 else (n - 1) % 65535 + 1

/-- A frame in which bytes from an even offset of its UDP datagram on have changed gets its UDP checksum updated, if it is nonzero
(R250). -/
def fixUdp (old new : List Byte) (udp : Option (Nat × Bool)) : List Byte :=
  match udp with
  | none => new
  | some (u, _) =>
    let c := be16 old (u + 6)
    if c == 0 then new
    else
      let n := old.length - u
      let was := sum16 ((old.drop u).take n)
      let now := sum16 ((new.drop u).take n)
      let x := 65535 - fold16 ((65535 - c) + (65535 * (was / 65535 + 1) - was) + now)
      patch new (u + 6) (natBe 2 (if x == 0 then 65535 else x))

/-- correctionField with an amount in 2^−16 ns added. -/
def addCorrection (l : List Byte) (o : Nat) (delta : Int) : List Byte :=
  patch l (o + 8) (natBe 8 (wrap 64 ((beNat ((l.drop (o + 8)).take 8) : Int) + delta)))

/-! Receive operations (R69, R390, R502, R506, R508) -/

/-- The index of a receive queue. -/
def rqKey (tid rq : Nat) : Nat := tid * 256 + rq

/-- Whether a tenant's receive queue takes frames: it is enabled, and its function neither in reset nor without Bus Master
Enable (R242, R264, R390). -/
def Dev.rxReady (d : Dev) (tid rq : Nat) : Bool := rq < 256 && d.mayIssue tid && d.ringOn tid (qKey 2 rq)

/-- A receive operation for a frame sampled at a time: green ones are admitted by rate, all others are Slack. -/
def Dev.newRx (d : Dev) (port tid rq cls len at_ : Nat) (green : Bool) : Dev × Nat :=
  let id := d.nextOp
  let q : Req := { id := id, kind := 2, cls := if green then cls else 3, tid := tid, src := port, org := .wire port, desc := {},
                   tick := d.clk.tick, time := at_ }
  let promise := at_ + d.contractBound tid 2 cls
  let d := { d with nextOp := id + 1 }
  let d := if green then d.input (.byRate q promise (ceilDiv len 256 * 256)) else d
  let e := d.adm.entries.find? (fun e => e.op == id)
  let o : Op := { req := q, admitted := at_, promise := promise, slack := e.isNone, entry := e.map (·.ix), waiting := true,
                  dest := some (tid, rq) }
  ({ d with ops := d.ops ++ [o] }, id)

/-- A received frame's operation ends without a completion; past its promise it counts as ENV_LATE. -/
def Dev.dropRx (d : Dev) (id : Nat) : Dev :=
  d.withOp id fun d o => (d.input (.close id ({ o with envFail := true }.lateCount d.clk.tide))).dropOp id

/-- A frame takes a posted buffer: its bytes are to be written there, or it is too long for it. -/
def Dev.takeBuffer (d : Dev) (o : Op) (tid rq : Nat) (b : Posted) (rest : List Posted) : Dev :=
  let d := { d with host := { d.host with posted := Tab.set [] d.host.posted (rqKey tid rq) rest } }
  let d := d.put (Reg.TEN_Q_HEAD tid (qKey 2 rq)) ((b.index + 1) % d.ringSize tid (qKey 2 rq))
  let n := o.data.length
  if b.len < n then (d.raise (Reg.TEN_STATUS_RX_TOO_LONG tid)).dropRx o.id
  else
    let desc : Desc := { o.req.desc with addr0 := BitVec.ofNat 64 b.addr, interrupt := b.interrupt }
    let stage : Stage := ⟨1, need ⟨1, linkOf tid, false⟩ (hostBytes n + 64 + if b.interrupt then 64 else 0), 0⟩
    d.updOp o.id (fun o => { o with
      req := { o.req with desc := desc }, postIndex := b.index, waiting := false, held := 0, plan := [stage] })

/-- The bytes that a tenant's frames hold while they wait for buffers (R506). -/
def Dev.rxHeld (d : Dev) (tid : Nat) : Nat := ((d.ops.filter (fun o => o.req.kind == 2 && o.req.tid == tid)).map (·.held)).sum

/-- A receive operation's bytes are due at the host: it takes a buffer, waits for one, or is dropped. The stored length counts
against the quota. -/
def Dev.deliverRx (d : Dev) (id : Nat) (bytes : List Byte) (stored : Nat) : Dev :=
  d.withOp id fun d o =>
    match o.dest with
    | none => d
    | some (tid, rq) =>
      let d := d.updOp id (fun o => { o with data := bytes, queued := d.nextOp })
      let d := { d with nextOp := d.nextOp + 1 }
      let n := ceilDiv stored 256 * 256
      match Tab.get [] d.host.posted (rqKey tid rq) with
      | b :: rest => match d.op? id with
        | some o => d.takeBuffer o tid rq b rest
        | none => d
      | [] =>
        if d.inF (Reg.HST_TEN_RX_HOLD_KIB tid) * 1024 < d.rxHeld tid + n then
          (d.hostCount tid 10).dropRx id
        else (d.failAssumption id).updOp id (fun o => { o with held := n })

/-- The frames that wait for a buffer of a queue, in arrival order. -/
def Dev.rxWaiting (d : Dev) (tid rq : Nat) : List Op :=
  sortIn (fun (a b : Op) => a.queued ≤ b.queued)
    (d.ops.filter (fun o => o.req.kind == 2 && o.held != 0 && !o.ended && o.dest == some (tid, rq)))

/-- Frames that wait take the buffers that a queue has, in arrival order. -/
def Dev.serveRx (d : Dev) (tid rq : Nat) : Dev :=
  d.each (d.rxWaiting tid rq) fun d o =>
    match Tab.get [] d.host.posted (rqKey tid rq) with
    | b :: rest => d.takeBuffer o tid rq b rest
    | [] => d

/-- RX_POST (R390): a buffer is posted to a receive queue; where the queue is not enabled it is forgotten. -/
def execRxPost (tid : BitVec 9) (ring : BitVec 6) (head : BitVec 16) (desc : Desc) (s : State) :
    Host.Outcome State Fault Refusal :=
  s.run fun d =>
    let t := tid.toNat
    let rq := desc.target.toNat % 65536
    if !(rq < 256 && d.ringOn t (qKey 2 rq)) || desc.bad || desc.devMem then d.raise (Reg.TEN_STATUS_POST_DROPPED t)
    else
      let i := Tab.get 0 d.host.postNext (rqKey t rq)
      let b : Posted := { index := i, addr := desc.addr1.toNat, len := desc.length.toNat, interrupt := desc.interrupt, time := d.clk.tide }
      let d := { d with host := { d.host with
          postNext := Tab.set 0 d.host.postNext (rqKey t rq) ((i + 1) % 65536)
          posted := Tab.upd [] d.host.posted (rqKey t rq) (· ++ [b]) } }
      (d.put (Reg.TEN_Q_TAIL t (qKey 2 rq)) ((i + 1) % d.ringSize t (qKey 2 rq))).serveRx t rq

/-! Runs held for shoals (R213, R266, R267) -/

/-- The cells of a run: headroom and frame. -/
def runCells (len : Nat) : Nat := 2 + ceilDiv len 64

/-- Whether n cells from c lie in the packet buffer and meet no run. -/
def Dev.cellsFree (d : Dev) (c n : Nat) : Bool :=
  c + n ≤ 2097152 && d.net.runs.all (fun r => c + n ≤ r.cell || r.cell + runCells r.len ≤ c)

/-- Where a run of n cells goes: which free cells the device takes, the spec does not say. -/
def Dev.findCells (d : Dev) (n : Nat) : Option Nat × Dev :=
  let (v, d) := d.draw 2097151
  ((v :: 0 :: d.net.runs.map (fun r => r.cell + runCells r.len)).find? (fun c => d.cellsFree c n), d)

/-- A packet handle (Table 8.5). -/
def Run.handle (r : Run) : Nat := r.gen % 256 * 2 ^ 48 + r.shoal * 2 ^ 44 + r.len * 2 ^ 21 + r.cell

/-- Cells held for a shoal, in bytes. -/
def Dev.runBytes (d : Dev) (s : Nat) : Nat := ((d.net.runs.filter (fun r => r.shoal == s)).map (fun r => runCells r.len * 64)).sum

/-- The shoal whose pattern engine serves a channel: the channel is enabled, its consumer is a thread, and its producer that
shoal's pattern engine (R266). -/
def Dev.handoffShoal (d : Dev) (ch : Nat) : Option Nat :=
  let c := d.chanConsumer ch
  if d.chanOn ch && isThreadEnd c && d.chanProducer ch == shoalEnd (c / 64) 2 then some (c / 64) else none

/-- The messages in a channel of handoffs, and the handoffs made for it that are not yet in it. -/
def Dev.handoffQueue (d : Dev) (ch : Nat) : Nat :=
  (d.chan ch).msgs.length + (d.chan ch).held.length + (d.net.handoffs.filter (fun h => h.channel == ch)).length

/-- The handoffs of a shoal's pattern engine that wait on full channels (R267). -/
def Dev.handoffsWaiting (d : Dev) (s : Nat) : Nat :=
  (((Tab.keys d.chans ++ d.net.handoffs.map (·.channel)).eraseDups.filter (fun ch => d.chanProducer ch == shoalEnd s 2)).map
    (fun ch => d.handoffQueue ch - 16)).sum

/-- The receive timestamp record (Table 9.3); no correction is applied on ingress. -/
def stampRecord (stamp : Int) (port : Nat) (event : Bool) : List Byte :=
  natLe 8 (wrap 64 (stamp / 65536)) ++ natLe 2 (stamp % 65536).toNat ++ natLe 1 port ++ natLe 1 (if event then 1 else 0) ++ natLe 4 0

/-- A run is made for a shoal with a frame's bytes. What nothing has written of its cells is free. -/
def Dev.makeRun (d : Dev) (s port cell : Nat) (bytes : List Byte) (record : List Byte) : Dev × Run :=
  let r : Run := { shoal := s, cell := cell, gen := Tab.get 0 d.net.gens cell, len := bytes.length, port := port }
  let pad := runCells bytes.length * 64 - 128 - bytes.length
  let (v, d) := d.draw (2 ^ (8 * (112 + pad)) - 1)
  let junk := natLe (112 + pad) v
  let d := d.memPut (packetBase + cell * 64) (record ++ junk.take 112 ++ bytes ++ junk.drop 112)
  ({ d with net := { d.net with runs := d.net.runs ++ [r] } }, r)

/-! What waits for a port (R107 to R113, R117, R238, R245) -/

/-- The transmit side of a port as a resource. -/
def macTx (p : Nat) : Res := ⟨5, p, false⟩

/-- The connection of an operation that goes out over Swash. -/
def Dev.opConn (d : Dev) (o : Op) : Nat :=
  if o.req.kind == 6 then d.inF (Reg.STG_BE_CONN o.req.backend) else o.req.desc.target.toNat % 2 ^ 20

/-- The lengths of an operation's frames, in order. -/
def Dev.opFrames (d : Dev) (o : Op) : List Nat :=
  let x := o.req.desc
  match o.req.kind with
  | 1 => [txFrameLen x]
  | 3 => d.msgFrames (d.opConn o) x.length.toNat x.cipher
  | 5 => [d.packetLen (d.opConn o) 0 x.cipher]
  | 6 =>
    let c := d.opConn o
    let sealed := d.on (Reg.SWH_C_TX_KEY_EN c)
    d.msgFrames c (if o.req.code == 1 then stData o.req else 0) sealed ++ [d.packetLen c 32 sealed]
  | _ => []

/-- A candidate for a port: its place in arrival order, frame length, queue, tenant, leaf, what it is, whether it was held
through a link down, and its promise for the order of held frames. -/
structure Cand where
  num : Nat
  len : Nat
  q : Nat
  tid : Nat
  leaf : Nat
  what : TxWhat
  held : Bool
  promise : Nat
deriving DecidableEq, Repr

/-- The transmit queue of an operation. -/
def Dev.opQueue (d : Dev) (o : Op) : Nat :=
  if o.req.kind == 1 then o.req.desc.target.toNat / 16 % 16 else d.inF (Reg.SWH_C_QUEUE (d.opConn o))

/-- An operation in its wire stage as a candidate. From the fall of HOLDUP_WARN_N no request record goes to a remote backend (R351). -/
def Dev.opCand (d : Dev) (o : Op) : Option Cand :=
  match (d.opFrames o).drop o.sent with
  | n :: r => if o.req.kind == 6 && r.isEmpty && d.bit Reg.HDL_STATUS_HOLDUP_STOP then none else some
      { num := o.queued, len := n, q := d.opQueue o, tid := o.req.tid,
        leaf := if o.req.kind == 1 then 2 ^ 20 + o.req.tid else d.opConn o, what := .op o.id, held := o.held != 0,
        promise := if o.slack then 2 ^ 64 else o.promise }
  | [] => none

/-- An item as a candidate. -/
def TxItem.cand (i : TxItem) : Cand :=
  { num := i.id, len := i.len, q := i.q, tid := i.tid, leaf := i.leaf, what := i.what, held := i.held, promise := 2 ^ 64 }

/-- Whether a candidate is a Swash packet. -/
def Dev.swashWhat (d : Dev) (w : TxWhat) : Bool :=
  match w with
  | .op id => match d.op? id with
    | some o => o.req.kind != 1
    | none => false
  | .frame _ _ => false
  | .resp _ | .again _ _ | .control _ _ _ _ _ => true

/-- The time that a frame takes on the wire with preamble, delimiter and gap, and up to its last bit, in 2^-16 ns. -/
def Dev.wireFix (d : Dev) (len : Nat) : Nat := ceilDiv ((len + 20) * 65536) d.portBytesPerNs
def Dev.lastFix (d : Dev) (len : Nat) : Nat := ceilDiv ((len + 8) * 65536) d.portBytesPerNs

/-- The time of a moment of this tick, in 2^-16 ns. -/
def Dev.fixAt (d : Dev) (sub : Nat) : Nat := d.clk.tide * 65536 + sub

/-- Whether an operation in its wire stage may send a frame on a port, while frames of it may still be on the wire. -/
def Dev.mayTx (o : Op) (p : Nat) : Bool :=
  !o.ended && !o.waiting && (match o.stage with
    | some s => s.needs.any (fun x => x.res = macTx p)
    | none => false)

/-- The priority of a queue, and whether it is paused (R245). -/
def Dev.queuePri (d : Dev) (p q : Nat) : Nat := d.inF (Reg.MAC_PFC_PFC_MAP p) / 2 ^ (3 * q) % 8
def Dev.pausedQ (d : Dev) (p q : Nat) : Bool := (d.rd (Reg.MAC_STATUS_PAUSED p)).testBit (d.queuePri p q)
/-- PFC_MODE as it acts. -/
def Dev.pfcMode (d : Dev) (p : Nat) : Nat := d.inF (Reg.MAC_PORT_CTL_PFC_MODE p) % 3

/-- The gates of a port at the k-th tick boundary from this one on: those that stand now, then those of the list that will govern (R118), in a
step tick by the new time (R119). -/
def Dev.gatesAhead (d : Dev) (p k : Nat) : Nat × Bool :=
  if k == 0 then (Tab.get 0xFFFF d.cal.gates p, d.exclusiveNow p)
  else gateState (d.gateListOn p (d.calTide + 8 * k)) (d.calTide + 8 * k)

/-- The tick boundaries, counted from this one, that lie before a time in 2^-16 ns. -/
def Dev.boundariesTo (d : Dev) (stop : Nat) : List Nat :=
  List.range (ceilDiv (stop - d.clk.tide * 65536) 524288)

/-- Whether a queue's gate is open up to a time (R112): it does not close before, and no exclusive window that shuts it begins. -/
def Dev.gateStays (d : Dev) (p q stop : Nat) : Bool :=
  (d.boundariesTo stop).all fun k => (d.gatesAhead p k).1.testBit q

/-- Whether an exclusive window keeps a booked frame of a queue up to a time (R117). -/
def Dev.windowKeeps (d : Dev) (p q stop : Nat) : Bool :=
  (d.boundariesTo stop).any fun k => (d.gatesAhead p k).2 && !(d.gatesAhead p k).1.testBit q

/-- Whether a booked frame may start in its booked slot (R117, R245), sub into the tick: only an exclusive window, or a pause in full mode,
keeps it. -/
def Dev.bookedMay (d : Dev) (p q len sub : Nat) : Bool :=
  !d.windowKeeps p q (d.fixAt sub + d.lastFix len) && !(d.pfcMode p == 2 && d.pausedQ p q)

/-- The end of the first exclusive window from now on, by tick boundaries, at most 160 on. -/
def Dev.windowEnd (d : Dev) (p : Nat) : Nat :=
  let ks := (List.range 160).dropWhile fun k => !(d.gatesAhead p k).2
  d.clk.tide + 8 * ((ks.dropWhile fun k => (d.gatesAhead p k).2).headD 160)

/-- The planned start of the next booked frame, in ns, if there is one (R109): the end of the exclusive window that keeps one, or the start of
the next slot where it holds bookings whose frames have not been placed; a frame booked there itself may start before it. -/
def Dev.nextBooked (d : Dev) (p sub : Nat) (self : Option Nat) : Option Nat :=
  let r := macTx p
  let kept (o : Op) : Bool := Dev.mayTx o p && d.claimOf o r == 1 && (match d.opCand o with
    | some c => d.windowKeeps p c.q (d.fixAt sub + d.lastFix c.len)
    | none => false)
  let next (o : Op) : Bool := !o.slack && !o.ended && o.booked.any (fun h => h.res = r && h.slot == d.clk.slotSeq + 1)
  if d.ops.any kept then some (d.windowEnd p)
  else if d.ops.any next && !d.ops.any (fun o => some o.id == self && next o) then some ((d.clk.tide / 256 + 1) * 256)
  else none

/-- Whether a frame that is not booked in this slot may start, sub into the tick: its gate stays open for it, it ends before the next booked
frame's planned start, and its queue is not paused. -/
def Dev.unbookedMay (d : Dev) (p q len sub : Nat) (self : Option Nat := none) : Bool :=
  d.gateStays p q (d.fixAt sub + d.lastFix len) &&
    (match d.nextBooked p sub self with | some t => d.fixAt sub + d.wireFix len ≤ t * 65536 | none => true) &&
    !(d.pfcMode p != 0 && d.pausedQ p q)

/-- Everything unbooked that waits in a port's queue: late work, retransmissions and answers, Slack and forwarded frames, and early work. -/
def Dev.unbookedCands (d : Dev) (p q : Nat) : List Cand :=
  ((d.ops.filter (fun o => Dev.mayTx o p && d.claimOf o (macTx p) != 1)).filterMap d.opCand ++
    (d.net.items.filter (fun i => i.port == p)).map TxItem.cand).filter (fun c => c.q == q)

/-- Held frames go before the other unbooked frames of their queue, in order of promise and then of arrival (R238): whether it is a
candidate's turn. What has no promise comes after what has. -/
def Dev.inTurn (d : Dev) (p : Nat) (c : Cand) : Bool :=
  let before (a b : Cand) : Bool := a.promise < b.promise || (a.promise == b.promise && a.num < b.num)
  match firstBy before ((d.unbookedCands p c.q).filter (·.held)) with
  | some x => x.num == c.num
  | none => true

/-- Whether a connection's congestion rate lets an unbooked packet go (R312); a native leaf has none. -/
def Dev.ccOpen (d : Dev) (leaf : Nat) : Bool := 2 ^ 20 ≤ leaf || 0 ≤ (Tab.get {} d.sw.conns leaf).rate.tokens

/-- Whether a leaf has a shaper of its own: under CC_MODE 1 and 2 the congestion rate takes its place (R312). -/
def Dev.ownShaper (d : Dev) (leaf : Nat) : Bool :=
  !(leaf < 2 ^ 20 && (d.inF (Reg.SWH_C_CC_MODE leaf) == 1 || d.inF (Reg.SWH_C_CC_MODE leaf) == 2))

/-- Whether a leaf may send Slack (R115, R312): its shaper and its connection's congestion bucket are not negative. -/
def Dev.leafOpen (d : Dev) (leaf : Nat) : Bool :=
  d.ccOpen leaf && (!d.ownShaper leaf || shaperOpen d.cal.leafShapers leaf)

/-- The bytes of a slot that retransmissions, ACKs and NAKs may take (R107, R327). -/
def Dev.retxShare (d : Dev) : Nat := d.inF Reg.CAL_RESERVES_RETX_SHARE * d.portCap / 256

/-- The Slack candidates of a port: Slack operations in their wire stage, forwarded frames and read responses. -/
def Dev.slackCands (d : Dev) (p : Nat) : List Cand :=
  let ops := (d.ops.filter (fun o => o.slack && Dev.mayTx o p)).filterMap d.opCand
  let its := (d.net.items.filter (fun i => i.port == p && (match i.what with
    | .frame _ _ | .resp _ => true
    | .op _ | .again _ _ | .control _ _ _ _ _ => false))).map TxItem.cand
  ops ++ its

/-- The head of a leaf: the first in arrival order. -/
def headOf (l : List Cand) : Option Cand := firstBy (fun a b => a.num < b.num) l

/-- Whether a Slack candidate is eligible (R112), sub into the tick. -/
def Dev.eligible (d : Dev) (p sub : Nat) (c : Cand) : Bool :=
  d.inTurn p c && d.unbookedMay p c.q c.len sub && d.leafOpen c.leaf && shaperOpen d.cal.queueShapers (p * 16 + c.q)

/-- A leaf's weight. -/
def Dev.leafWeight (d : Dev) (leaf : Nat) : Nat := d.inF (Reg.CAL_LEAF_WEIGHT leaf)

/-- The leaves of a tenant that are backlogged in a queue, as children of its scheduler. -/
def Dev.leafKids (d : Dev) (p sub : Nat) (l : List Cand) : List Kid :=
  ((l.map (·.leaf)).eraseDups).filterMap fun f =>
    (headOf (l.filter (fun c => c.leaf == f))).map fun c => ⟨f, d.leafWeight f, c.num, c.len + 20, d.eligible p sub c⟩

/-- The candidates behind c in its leaf: the rest of its own message, or what arrived next. -/
def Dev.after (d : Dev) (l : List Cand) (c : Cand) : List Cand :=
  let rest := l.filter (fun x => x.num != c.num)
  match c.what with
  | .op id => match d.op? id with
    | some o => match (d.opFrames o).drop (o.sent + 1) with
      | n :: _ => { c with len := n } :: rest
      | [] => rest
    | none => rest
  | .frame _ _ | .resp _ | .again _ _ | .control _ _ _ _ _ => rest

/-- A tenant's scheduler of leaves brought up to date, the leaf it picks, and the head it would send next. -/
def Dev.pickLeaf (d : Dev) (p sub q tid : Nat) (l : List Cand) : Wfq × Option Kid × Option Cand :=
  let kids := d.leafKids p sub l
  let w := (Tab.get {} d.cal.wfq (leafSched p q tid)).sync kids
  let k := w.pick kids
  let any := match k with
    | some k => some k
    | none => w.pick (kids.map (fun (x : Kid) => { x with eligible := true }))
  (w, k, any.bind fun k => headOf (l.filter (fun c => c.leaf == k.num)))

/-- The tenants that are backlogged in a queue, as children of its scheduler. -/
def Dev.tenantKids (d : Dev) (p sub q : Nat) (l : List Cand) : List Kid :=
  ((l.map (·.tid)).eraseDups).filterMap fun t =>
    match d.pickLeaf p sub q t (l.filter (fun c => c.tid == t)) with
    | (_, k, some c) => some ⟨t, d.tenantWeight t, c.num, c.len + 20, k.isSome⟩
    | (_, _, none) => none

/-- The tree's pick in a queue (R113), and the device with the tags moved on. -/
def Dev.pickTree (d : Dev) (p sub q : Nat) (l : List Cand) : Option (Cand × Dev) :=
  let kids := d.tenantKids p sub q l
  let w := (Tab.get {} d.cal.wfq (queueSched p q)).sync kids
  match w.pick kids with
  | none => none
  | some k =>
    let mine := l.filter (fun c => c.tid == k.num)
    match d.pickLeaf p sub q k.num mine with
    | (v, some f, some c) =>
      let next := d.after mine c
      let leafNext := (headOf (next.filter (fun x => x.leaf == f.num))).map (fun x => (x.num, x.len + 20))
      let d := d.setWfq (leafSched p q k.num) (v.sent f leafNext)
      let (_, _, head) := d.pickLeaf p sub q k.num next
      some (c, d.setWfq (queueSched p q) (w.sent k (head.map (fun x => (x.num, x.len + 20)))))
    | _ => none

/-- The pick of a queue: what a link down held goes first (R238), then the tree. -/
def Dev.pickInQueue (d : Dev) (p sub q : Nat) (l : List Cand) : Option (Cand × Dev) :=
  let mine := l.filter (fun c => c.q == q)
  if mine.any (·.held) then (mine.find? (fun c => c.held && d.eligible p sub c)).map (fun c => (c, d)) else d.pickTree p sub q mine

/-- The Slack pick of a port: the highest queue that has an eligible frame (R112). -/
def Dev.pickSlackTx (d : Dev) (p sub : Nat) (l : List Cand) : Option (Cand × Dev) :=
  ((List.range 16).reverse).findSome? fun q => d.pickInQueue p sub q l

/-- The claim-2 pick: ACKs and NAKs in order of generation, then retransmissions in order of expiry. -/
def Dev.pickRetx (d : Dev) (p sub : Nat) : Option Cand :=
  let mine := (d.net.items.filter (fun i => i.port == p)).map TxItem.cand
  let room (c : Cand) : Bool := Tab.get 0 d.cal.retxUsed p + c.len + 20 ≤ d.retxShare && d.inTurn p c && d.unbookedMay p c.q c.len sub
  let ctl := mine.filter (fun c => match c.what with
    | .control _ _ _ _ _ => room c
    | .op _ | .frame _ _ | .resp _ | .again _ _ => false)
  let again := mine.filter (fun c => match c.what with
    | .again _ _ => room c && d.ccOpen c.leaf
    | .op _ | .frame _ _ | .resp _ | .control _ _ _ _ _ => false)
  match headOf ctl with
  | some c => some c
  | none => headOf again

/-- The operations of a claim that may go out on a port, in deadline order. -/
def Dev.claimCands (d : Dev) (p sub claim : Nat) (l : List Op) : Option Cand :=
  let r := macTx p
  let may (o : Op) : Bool := d.claimOf o r == claim && (match d.opCand o with
    | some c => if claim == 1 then d.bookedMay p c.q c.len sub else d.inTurn p c && d.unbookedMay p c.q c.len sub (some o.id) && d.ccOpen c.leaf
    | none => false)
  (firstBy deadlineBefore (l.filter may)).bind d.opCand

/-- Whether a candidate's connection has 4,096 PSNs outstanding (R313). -/
def Dev.stalled (d : Dev) (w : TxWhat) : Bool :=
  match w with
  | .op id => match d.op? id with
    | some o => o.req.kind != 1 && 4096 ≤ (Tab.get {} d.sw.conns (d.opConn o)).out.length
    | none => false
  | .resp c => 4096 ≤ (Tab.get {} d.sw.conns c).out.length
  | .frame _ _ | .again _ _ | .control _ _ _ _ _ => false

/-- Whether the PFC frame that waits for a port may start, sub into the tick (R246): ahead of every claim, in capacity that the frames booked up
to this slot, and the next booked frame, leave. -/
def Dev.pfcMay (d : Dev) (p sub : Nat) : Bool :=
  let due := (d.ops.map (fun o => if o.slack || o.ended then 0 else d.due o (macTx p))).sum
  let stop := d.fixAt sub + d.wireFix 64
  d.portUp p && (Tab.get none d.net.pfcOut p).isSome && d.freeAt (macTx p) ≤ d.fixAt sub &&
    stop + ceilDiv (due * 65536) d.portBytesPerNs ≤ (d.clk.tide / slotNs + 1) * slotNs * 65536 &&
    (match d.nextBooked p sub none with | some t => stop ≤ t * 65536 | none => true)

/-- What a port sends next under the order of claims (Table 4.2), sub into the tick, and the device with the schedulers moved on; none while
the line is taken, a PFC frame goes first, or the port is not up. With skip, candidates of stalled connections are passed over. -/
def Dev.pickTx (d : Dev) (p sub : Nat) (skip : Bool) : Option (Cand × Dev) :=
  if !d.portUp p || d.fixAt sub < d.freeAt (macTx p) || d.pfcMay p sub then none
  else
    let ok (w : TxWhat) : Bool := !(skip && d.stalled w)
    let ready := d.ops.filter (fun o => !o.slack && Dev.mayTx o p && ok (.op o.id))
    match d.claimCands p sub 1 ready with
    | some c => some (c, d)
    | none => match d.pickRetx p sub with
      | some c => some (c, d)
      | none => match d.claimCands p sub 3 ready with
        | some c => some (c, d)
        | none => match d.claimCands p sub 4 ready with
          | some c => some (c, d)
          | none => d.pickSlackTx p sub ((d.slackCands p).filter (fun c => ok c.what))

/-- The moment of this tick at which a port's line is free, in 2^-16 ns from its start, if that is within it. -/
def Dev.lineFree (d : Dev) (p : Nat) : Option Nat :=
  if d.freeNow (macTx p) then some (d.freeAt (macTx p) - d.clk.tide * 65536) else none

/-- The schedulers that now have children: those of resources, of port queues and of the tenants in them. -/
def Dev.liveScheds (d : Dev) : List Nat :=
  let res := d.ops.flatMap fun o => match o.stage with
    | some s => ((s.needs.map (·.res)).filter (fun r => r.general && o.unpicked r)).map resSched
    | none => []
  let ports := ((List.range 16).filter d.portActive).flatMap fun p =>
    (d.slackCands p).flatMap fun c => [leafSched p c.q c.tid, queueSched p c.q]
  (Tab.keys d.cal.wfq ++ res ++ ports).eraseDups

/-- A scheduler takes note of the children that have become backlogged or idle (R113). -/
def Dev.syncSched (d : Dev) (n : Nat) : Dev :=
  let w := Tab.get {} d.cal.wfq n
  let x := (n - 0x200000) / 512
  let mine (p q : Nat) : List Cand := (d.slackCands p).filter (fun c => c.q == q)
  let kids := if n < 0x100000 then d.slackKids ⟨n / 1024, n % 1024 / 2, n % 2 == 1⟩
    else if n < 0x200000 then d.tenantKids ((n - 0x100000) / 16) 0 (n % 16) (mine ((n - 0x100000) / 16) (n % 16))
    else d.leafKids (x / 16) 0 ((mine (x / 16) (x % 16)).filter (fun c => c.tid == n % 512))
  d.setWfq n (w.sync kids)

/-- At a tick's end the children that have become backlogged in it get their tags, with the virtual time and the weight of then (R113,
R114). -/
def Dev.syncScheds (d : Dev) : Dev := d.each d.liveScheds Dev.syncSched

/-- Whether a candidate goes as Slack and its wire bytes are charged to the shapers (R115). -/
def Dev.isSlackTx (d : Dev) (w : TxWhat) : Bool :=
  match w with
  | .op id => match d.op? id with
    | some o => o.slack
    | none => false
  | .frame _ _ | .resp _ => true
  | .again _ _ | .control _ _ _ _ _ => false

/-- Wire bytes are charged: Slack to its shapers, retransmissions and controls to the share of the slot; unbooked Swash data to
the connection's congestion bucket. -/
def Dev.chargeTx (d : Dev) (p : Nat) (c : Cand) : Dev :=
  let n := c.len + 20
  let d := if d.isSlackTx c.what then
      { d with cal := { d.cal with leafShapers := if d.ownShaper c.leaf then shaperPay d.cal.leafShapers c.leaf n else d.cal.leafShapers
                                   queueShapers := shaperPay d.cal.queueShapers (p * 16 + c.q) n } }
    else d
  let paced := match c.what with
    | .op id => c.leaf < 2 ^ 20 && (d.op? id).any (fun o => d.claimOf o (macTx p) != 1)
    | .resp _ | .again _ _ => true
    | .frame _ _ | .control _ _ _ _ _ => false
  let pay (x : SwConn) : SwConn := { x with rate := { x.rate with tokens := x.rate.tokens - n, sent := true } }
  let d := if paced then { d with sw := { d.sw with conns := Tab.upd {} d.sw.conns c.leaf pay } } else d
  match c.what with
  | .again _ _ | .control _ _ _ _ _ => { d with cal := { d.cal with retxUsed := Tab.upd 0 d.cal.retxUsed p (· + n) } }
  | .op _ | .frame _ _ | .resp _ => d

/-- An item leaves the queue. -/
def Dev.dropItem (d : Dev) (id : Nat) : Dev := { d with net := { d.net with items := d.net.items.filter (fun i => i.id != id) } }

/-- An item joins what waits for a port. -/
def Dev.addItem (d : Dev) (p q tid leaf len : Nat) (w : TxWhat) (from_ : Option Nat := none) : Dev :=
  let i : TxItem :=
    { id := d.nextOp, port := p, q := q, tid := tid, leaf := leaf, len := len, what := w, from_ := from_, since := d.clk.tide }
  { d with nextOp := d.nextOp + 1, net := { d.net with items := d.net.items ++ [i] } }

/-- A frame starts on the wire, sub into the tick: the line is taken for its bytes, preamble, delimiter and gap. -/
def Dev.startWire (d : Dev) (p sub : Nat) (w : TxWhat) (bytes : List Byte) (last : Bool) : Dev :=
  let x : OnWire := { what := w, len := bytes.length, start := d.fixAt sub, last := last }
  { d with
    net := { d.net with wire := Tab.upd [] d.net.wire p (· ++ [x]) }
    cal := { d.cal with busy := Tab.set 0 d.cal.busy (resSched (macTx p)) (d.fixAt sub + d.wireFix bytes.length) } }.emit (.frame p bytes)

/-- An operation sends a frame of n bytes on a port: its need and what is booked for it fall by the wire bytes. -/
def Op.sendFrame (o : Op) (p n : Nat) : Op :=
  { o.serve (macTx p) (n + 20) with going := o.going ++ [macTx p], sent := o.sent + 1 }

/-- The unbooked bytes that a queue of a port holds (R243): Slack and late work in its wire stage, and what else waits there without a
booking; not frames that are booked in a later slot, and not those held. -/
def Dev.queueSlack (d : Dev) (p q : Nat) : Nat :=
  let early (c : Cand) : Bool := match c.what with
    | .op id => (d.op? id).any (fun o => d.claimOf o (macTx p) == 4)
    | .frame _ _ | .resp _ | .again _ _ | .control _ _ _ _ _ => false
  (((d.unbookedCands p q).filter (fun c => !c.held && !early c)).map (·.len)).sum

/-- Host TX descriptors of a queue that go as Slack wait while the queue is at its limit (R243): nothing of theirs is fetched. Those whose
data is being fetched, or is on its way through the pipelines, count with what the queue holds. -/
def Dev.holdSlackTx (d : Dev) : Dev :=
  let mine (o : Op) : Bool := o.req.kind == 1 && o.slack && !o.ended && !o.plan.isEmpty && !(o.stage.any Stage.wire)
  let place (o : Op) : Nat × Nat := (o.req.desc.target.toNat % 16, d.opQueue o)
  let one (r : Dev × List (Nat × Nat × Nat)) (o : Op) : Dev × List (Nat × Nat × Nat) :=
    let (p, q) := place o
    let n := txFrameLen o.req.desc
    let used := d.queueSlack p q + ((r.2.filter (fun x => x.1 == p && x.2.1 == q)).map (·.2.2)).sum
    let full := d.inF (Reg.MAC_SLACK_SLACK_LIMIT_KIB p) * 1024 < used + n
    (r.1.updOp o.id (fun o => { o with waiting := full }), if full then r.2 else r.2 ++ [(p, q, n)])
  let under := (d.ops.filter (fun o => mine o && o.fetched)).map (fun o => ((place o).1, (place o).2, txFrameLen o.req.desc))
  ((d.ops.filter (fun o => mine o && !o.fetched)).foldl one (d, under)).1

/-- A frame forwarded to a port's queue as Slack: dropped where the port is down, or over the queue's limit (R234, R243). -/
def Dev.forward (d : Dev) (p q tid : Nat) (bytes : List Byte) (ptp : Option (Nat × Int)) (from_ : Option Nat) : Dev :=
  let len := max 64 (bytes.length + 4)
  if !d.portUp p then d.prsCount 10
  else if d.inF (Reg.MAC_SLACK_SLACK_LIMIT_KIB p) * 1024 < d.queueSlack p q + len then d.macCount p 14
  else d.addItem p q tid (2 ^ 20 + tid) len (.frame bytes ptp) from_

/-- The Slack receive occupancy of a port (R246): unbooked frames received on it that are still in the packet buffer; one whose
colour is not yet settled is not known to be unbooked, and does not count. -/
def Dev.rxOccupancy (d : Dev) (p : Nat) : Nat :=
  let pipes := ((d.net.frames.filter (fun f => f.port == p && (match f.fates with
    | some l => !l.any (fun x => match x with
      | .rx id => match d.op? id with | some o => !o.slack | none => false
      | .port _ _ _ | .swash _ | .handoff _ _ _ _ _ _ | .mirror _ => false)
    | none => false))).map (fun f => f.bytes.length)).sum
  let ops := ((d.ops.filter (fun o => o.req.kind == 2 && o.slack && o.req.org == .wire p && !o.ended)).map (fun o => o.data.length)).sum
  let its := ((d.net.items.filter (fun i => i.from_ == some p)).map (·.len)).sum
  let runs := ((d.net.runs.filter (fun r => r.port == p)).map (·.len)).sum
  pipes + ops + its + runs

end Sys2Proof.Machine
end

