-- ==== Sys2Proof/Machine/Mac.lean ====
section
/-! DEFINITION. Ethernet ports: link states, frames out, frames in, pauses, flushes and timestamps; handoffs and mirrored copies
(chapters 09, 10 and 14). -/

namespace Sys2Proof.Machine

open Sys2Proof

/-! Handoffs to shoals (R266, R267) -/

/-- What a handoff says beside its channel (Table 10.8, Table 10.9): KIND, REASON, settling stage, last state, ACTION_DATA, bytes
0–15 of the field vector, the pattern set, the payload offset. -/
structure HandInfo where
  kind : Nat
  reason : Nat := 0
  stage : Nat := 0
  state : Nat := 0
  data : Nat := 0
  meta16 : List Byte := []
  scan : Option Nat := none
  payload : Nat := 0
deriving DecidableEq, Repr

/-- The count that a handoff makes: forwarded, copied, or sent as an exception; a session counts its mirrors itself. -/
def Dev.countHandoff (d : Dev) (h : HandInfo) : Dev :=
  match h.kind with
  | 0 => d.prsCount 6
  | 1 => d.prsCount 7
  | 2 => d.bump (Reg.PRS_CNT_EXC_SENT h.reason)
  | _ => d

/-- A frame is handed to the shoal of a channel's consumer: held as a run, with a message to post. The answer says whether it
was. -/
def Dev.handoff (d : Dev) (port pipe ch : Nat) (bytes record : List Byte) (h : HandInfo) : Dev × Bool :=
  match d.handoffShoal ch with
  | none => ((d.prsCount 9).report { source := port, subsrc := pipe, kind := 0x1A, sev := 1, detail := ch }, false)
  | some s =>
    let n := runCells bytes.length
    if d.inF Reg.PRS_CFG_HOLD_LIMIT_KIB * 1024 < d.runBytes s + n * 64 ||
      (16 ≤ d.handoffQueue ch && 64 ≤ d.handoffsWaiting s) then (d.prsCount 8, false)
    else match d.findCells n with
      | (none, d) => (d.prsCount 8, false)
      | (some c, d) =>
        let (d, r) := d.makeRun s port c bytes record
        let w := h.kind * 2 ^ 60 + h.reason * 2 ^ 56 + port * 2 ^ 52 + h.stage * 2 ^ 48 + h.state * 2 ^ 40 + h.data % 2 ^ 32
        let x : Handoff := { run := r, word := w, channel := ch, meta16 := fitBytes 16 h.meta16, scan := h.scan, payload := h.payload }
        ({ d with net := { d.net with handoffs := d.net.handoffs ++ [x] } }.countHandoff h, true)

/-! Mirror sessions (R272, R273) -/

/-- The length of a session's copy. -/
def Dev.mirrorLen (d : Dev) (m len : Nat) : Nat :=
  let t := d.inF (Reg.PRS_MIRROR_TRUNCATE m)
  if t == 0 then len else min len (limit 64 9216 t)

/-- A frame asks a session for a copy: the sample count, then the bucket. The answer says whether the copy is made. -/
def Dev.chargeMirror (d : Dev) (m len : Nat) : Dev × Bool :=
  if !d.on (Reg.PRS_MIRROR_ENABLE m) then (d, false)
  else
    let n := Tab.get 0 d.net.mirrorCount m + 1
    let d := { d with net := { d.net with mirrorCount := Tab.set 0 d.net.mirrorCount m n } }
    if n % 2 ^ d.inF (Reg.PRS_MIRROR_SAMPLE_LOG2 m) != 0 then (d, false)
    else
      let c := d.mirrorLen m len
      let have_ := Tab.get 0 d.net.mirrorTokens m
      if d.inF (Reg.PRS_MIRROR_RATE m) == 0 then (d, true)
      else if have_ < c then (d.bump (Reg.PRS_CNT_MIRROR_DROP m), false)
      else ({ d with net := { d.net with mirrorTokens := Tab.set 0 d.net.mirrorTokens m (have_ - c) } }, true)

/-- A session's copy of a frame with its FCS, without an FCS of its own: the whole frame up to its FCS, or the first n bytes; on a port a
truncated copy has n bytes with the new FCS (R240, R272). -/
def Dev.mirrorCopy (d : Dev) (m : Nat) (toPort : Bool) (bytes : List Byte) : List Byte :=
  let n := d.mirrorLen m bytes.length
  if n < bytes.length then bytes.take (if toPort then n - 4 else n) else body bytes

/-- A copy leaves as Slack by its session's destination: a port, a tenant's queue, or a shoal's channel. -/
def Dev.deliverMirror (d : Dev) (m port pipe at_ : Nat) (bytes record : List Byte) (h : HandInfo) : Dev :=
  let t := d.inF (Reg.PRS_MIRROR_TARGET m)
  let x := d.mirrorCopy m (d.inF (Reg.PRS_MIRROR_DEST_KIND m) == 0) bytes
  let d := d.bump (Reg.PRS_CNT_MIRRORED m)
  match d.inF (Reg.PRS_MIRROR_DEST_KIND m) with
  | 0 => d.forward (t % 16) (t / 16 % 16) (t / 65536 % 512) x none (some port)
  | 1 =>
    let tid := t / 65536 % 512
    let rq := t % 65536
    if !d.rxReady tid rq then d.prsCount 11
    else
      let (d, id) := d.newRx port tid rq 3 x.length at_ false
      d.deliverRx id x (d.mirrorLen m bytes.length)
  | 2 =>
    let whole := bytes.length ≤ d.mirrorLen m bytes.length
    (d.handoff port pipe (t % 8192) (if whole then bytes else x) record { h with kind := 3 }).1
  | _ => d.bump (Reg.PRS_CNT_MIRROR_DROP m)

/-! Frames out (R239, R240, R248 to R251, R253, R365) -/

/-- The bytes of a TX frame before its FCS, unsealed: padded so that the frame as sent has at least 60 bytes. -/
def Op.txPlain (o : Op) : List Byte :=
  let l := o.data.take (o.req.desc.length.toNat - 4)
  let m := if o.req.desc.cipher then 32 else 60
  l ++ List.replicate (m - l.length) 0

/-- A sealed frame (Table 14.3). -/
def Dev.sealFrame (d : Dev) (k inv : Nat) (l : List Byte) : List Byte :=
  let h := l2Len l
  let aad := l.take h ++ natBe 2 (d.inF Reg.CRY_SEAL_ETYPE) ++ natBe 2 (d.inF (Reg.CRY_SLOT_PEER_ID k)) ++ natBe 8 inv
  let nonce := gcmNonce (d.inF (Reg.CRY_SLOT_SALT k)) inv
  let plain := l.drop h
  let ct := fitBytes plain.length (Config.cipherData 0 false (d.slotKey k) nonce 0 plain)
  aad ++ ct ++ fitBytes 16 (Config.cipherTag 0 (d.slotKey k) nonce aad ct)

/-- The egress time of a frame that starts at a time within this tick, in 2^−16 ns. -/
def Dev.egress (d : Dev) (p sub : Nat) : Int := (d.clk.tide * 65536 + sub + d.inF (Reg.MAC_PTP_TX_LATENCY p) : Nat)

/-- A transiting event message, whose ingress port corrects it, gets its residence time, and a Sync under DELAY_P2P the ingress port's link
delay (R250). -/
def Dev.correctTransit (d : Dev) (p sub : Nat) (l : List Byte) (ptp : Option (Nat × Int)) : List Byte :=
  match ptp, eventAt l with
  | some (inp, t), some (o, u) =>
    if !d.on (Reg.MAC_PORT_CTL_TC_ENABLE p) then l
    else
      let link : Int := if ptpType l o == 0 && d.on Reg.TIDE_CONTROL_DELAY_P2P then (d.inF (Reg.MAC_PTP_LINK_DELAY inp) : Nat) else 0
      fixUdp l (addCorrection l o (d.egress p sub - t + link)) u
  | _, _ => l

/-- A captured egress time enters the port's FIFO, or is lost (R251). -/
def Dev.captureStamp (d : Dev) (p sub : Nat) (l : List Byte) (o : Nat) : Dev :=
  let q := Tab.get [] d.net.stamps p
  if 16 ≤ q.length then d.macCount p 17
  else
    let t := d.egress p sub
    let x : TxStamp := { ns := wrap 64 (t / 65536), frac := (t % 65536).toNat, type := ptpType l o, domain := byteAt l (o + 4),
                         seq := be16 l (o + 30) }
    { d with net := { d.net with stamps := Tab.set [] d.net.stamps p (q ++ [x]) } }

/-- A Sync with its egress time inserted (R251): originTimestamp, the fraction in correctionField, twoStepFlag clear. -/
def Dev.insertOrigin (d : Dev) (p sub : Nat) (l : List Byte) (o : Nat) (u : Option (Nat × Bool)) : List Byte :=
  let t := d.egress p sub
  let ns := (t / 65536).toNat
  let m := patch l (o + 34) (natBe 6 (ns / 1000000000) ++ natBe 4 (ns % 1000000000))
  let m := patch m (o + 6) [BitVec.ofNat 8 (byteAt m (o + 6)) &&& 0xFD]
  fixUdp l (addCorrection m o (t % 65536)) u

/-- The device's own event message: stamped in flight, or its time captured. -/
def Dev.stampOwn (d : Dev) (p sub : Nat) (own : Bool) (l : List Byte) : Dev × List Byte :=
  match eventAt l with
  | some (o, u) =>
    if !own || !d.on (Reg.MAC_PORT_CTL_TC_ENABLE p) then (d, l)
    else if ptpType l o == 0 && d.on (Reg.MAC_PORT_CTL_ONE_STEP p) then (d, d.insertOrigin p sub l o u)
    else (d.captureStamp p sub l o, l)
  | none => (d, l)

/-- The mirror of a TX frame as handed to the MAC (R273). -/
def Dev.mirrorTx (d : Dev) (o : Op) (p : Nat) (bytes : List Byte) : Dev :=
  let m := d.inF (Reg.PRS_TX_TX_SESSION o.req.tid)
  if !o.req.desc.mirror || !d.on (Reg.PRS_TX_TX_MIRROR_EN o.req.tid) then d
  else
    let (d, ok) := d.chargeMirror m bytes.length
    if ok then d.deliverMirror m p p d.clk.tide bytes (stampRecord 0 p (eventAt (body bytes)).isSome) { kind := 3, stage := 0xF } else d

/-- The port that a TX operation names. -/
def Op.txPort (o : Op) : Nat := o.req.desc.target.toNat % 16

/-- A TX operation's frame is made, without its FCS: sealed with a fresh invocation where its descriptor says so (R365), in the tick in which
its port's inline engine starts it (R371). One whose draw fails ends. -/
def Dev.sealTx (d : Dev) (o : Op) : Dev :=
  if o.built != 0 || o.status != 0 then d
  else
    let k := o.req.desc.keySlot.toNat
    let made := if o.req.desc.cipher then (d.drawInvocation k true).map (fun x => (d.sealFrame k x.1 o.txPlain, x.2.cryCount 2)) else some (o.txPlain, d)
    match made with
    | none => d.keyExhausted o.id 1
    | some (l, d) => d.updOp o.id (fun o => { o with data := l, built := 1 })

/-- A TX operation's frame has made its last pipeline pass: it lies whole in the packet buffer, and its mirror is taken (R273). -/
def Dev.passTx (d : Dev) (o : Op) : Dev :=
  let d := d.sealTx o
  match d.op? o.id with
  | some o => if o.built != 1 || o.ended then d else (d.updOp o.id (fun o => { o with built := 2 })).mirrorTx o o.txPort (o.data ++ fcsOf o.data)
  | none => d

/-- The frames that inline engines have started are sealed, in the order of the engines (R371), and those that have come to their wire stage have made their last pass. -/
def Dev.passFrames (d : Dev) : Dev :=
  let tx (o : Op) : Bool := o.req.kind == 1 && !o.ended
  let d := d.each ((List.range 16).flatMap fun p => d.ops.filter (fun o => tx o && o.going.any (fun r => r.kind == 4 && r.inst == p))) Dev.sealTx
  d.each (d.ops.filter (fun o => tx o && o.stage.any Stage.wire)) Dev.passTx

/-- A TX operation's frame starts. A frame whose data could not be read, or whose draw fails, is not sent. -/
def Dev.startOp (d : Dev) (p sub : Nat) (c : Cand) (o : Op) : Dev :=
  if o.status != 0 then d.endOp o.id
  else
    let d := d.passTx o
    match d.op? o.id with
    | none => d
    | some o =>
      if o.built != 2 || o.ended then d
      else
        let d := d.chargeTx p c
        let (d, l) := d.stampOwn p sub o.req.desc.devMem o.data
        let bytes := l ++ fcsOf l
        (d.updOp o.id (·.sendFrame p c.len)).startWire p sub (.op o.id) bytes true

/-- A forwarded or mirrored frame starts, with a new FCS. -/
def Dev.startFrame (d : Dev) (p sub : Nat) (c : Cand) (l : List Byte) (ptp : Option (Nat × Int)) : Dev :=
  let l := d.correctTransit p sub (l ++ List.replicate (60 - l.length) 0) ptp
  ((d.chargeTx p c).dropItem c.num).startWire p sub c.what (l ++ fcsOf l) true

/-- The PFC frame that waits for a port's line is sent, and counted as a frame sent when it ends (R246, R253). -/
def Dev.startPfc (d : Dev) (p sub : Nat) : Dev :=
  match Tab.get none d.net.pfcOut p with
  | none => d
  | some quanta =>
    let x : OnWire := { what := .frame [] none, len := 64, start := d.fixAt sub }
    let d := { d with
      net := { d.net with pfcOut := Tab.set none d.net.pfcOut p none, wire := Tab.upd [] d.net.wire p (· ++ [x]) }
      cal := { d.cal with busy := Tab.set 0 d.cal.busy (resSched (macTx p)) (d.fixAt sub + d.wireFix 64) } }
    (d.emit (.pfc p (d.inF (Reg.MAC_PFC_ENABLE_PRI p)) quanta)).macCount p 12

/-- What the port's order of claims gives starts, if it is an Ethernet frame: at sub × 2^−16 ns within the tick; a PFC frame goes first. -/
def Dev.txStart (d : Dev) (p sub : Nat) : Dev :=
  if d.boot.thermTrip then d
  else if d.pfcMay p sub then d.startPfc p sub
  else match d.pickTx p sub true with
  | none => d
  | some (c, e) =>
    match c.what with
    | .op id => match d.op? id with
      | some o => if o.req.kind == 1 then e.startOp p sub c o else d
      | none => d
    | .frame l ptp => e.startFrame p sub c l ptp
    | .resp _ | .again _ _ | .control _ _ _ _ _ => d

/-- TX_FRAME_START (R109, R112). -/
def execTxFrameStart (port : BitVec 4) (sub : BitVec 19) (s : State) : Host.Outcome State Fault Refusal :=
  s.run fun d => d.txStart port.toNat sub.toNat

/-! Link states (R235 to R238) -/

/-- A port's link state. -/
def Dev.linkState (d : Dev) (p : Nat) : Nat := d.rd (Reg.MAC_STATUS_LINK_STATE p)

/-- The ticks since a port entered its link state. -/
def Dev.inState (d : Dev) (p : Nat) : Nat := d.clk.tick - Tab.get 0 d.net.since p

/-- A port enters a link state. -/
def Dev.setLink (d : Dev) (p st : Nat) : Dev :=
  { d with net := { d.net with since := Tab.set 0 d.net.since p d.clk.tick } }.put (Reg.MAC_STATUS_LINK_STATE p) st

/-- A port starts training: its corrections are to be found from scratch. -/
def Dev.startTraining (d : Dev) (p : Nat) : Dev :=
  ({ d with net := { d.net with txInv := Tab.set 0 d.net.txInv p 0 } }.setLink p 1).put (Reg.MAC_LANES_LANE_LOCK p) 0

/-- LINK_TRAINED (R235, R236): every lane has trained; the corrections found are shown. -/
def execLinkTrained (port : BitVec 4) (rxInverted : BitVec 8) (rxOrder : BitVec 24) (s : State) : Host.Outcome State Fault Refusal :=
  s.run fun d =>
    let p := port.toNat
    d.when (d.portActive p && d.linkState p == 1) fun d =>
      let m := 2 ^ d.lanes
      let rx := rxInverted.toNat % m
      let tx := Tab.get 0 d.net.txInv p % m
      let ord := rxOrder.toNat % 8 ^ d.lanes
      let same := d.rd (Reg.MAC_LANES_RX_POL_INV p) == rx && d.rd (Reg.MAC_LANES_TX_POL_INV p) == tx && d.rd (Reg.MAC_LANES_RX_ORDER p) == ord
      let d := if Tab.get false d.net.trained p && !same then d.raise (Reg.MAC_STATUS_LANE_CHANGED p) else d
      let d := { d with net := { d.net with trained := Tab.set false d.net.trained p true } }
      let d := ((d.put (Reg.MAC_LANES_RX_POL_INV p) rx).put (Reg.MAC_LANES_TX_POL_INV p) tx).put (Reg.MAC_LANES_RX_ORDER p) ord
      (d.put (Reg.MAC_LANES_LANE_LOCK p) (m - 1)).setLink p 2

/-- TX_POLARITY_FLIP (R236): a lane whose peer has not reported receiver lock within 2 ms has its transmit data inverted, and its training
restarts. DESIGN CHOICE (log 188): the table has no event for one lane's lock, so that the command says that there was no report, and
LINK_TRAINED that every lane has locked. -/
def execTxPolarityFlip (port : BitVec 4) (lane : BitVec 3) (s : State) : Host.Outcome State Fault Refusal :=
  s.run fun d =>
    let p := port.toNat
    let b := 2 ^ lane.toNat
    let k := p * 8 + lane.toNat
    let from_ := max (Tab.get 0 d.net.since p) (Tab.get 0 d.net.flipAt k)
    d.when (d.portActive p && d.linkState p == 1 && lane.toNat < d.lanes && from_ + 250000 ≤ d.clk.tick) fun d =>
      let v := Tab.get 0 d.net.txInv p
      { d with net := { d.net with txInv := Tab.set 0 d.net.txInv p (if v.testBit lane.toNat then v - b else v + b)
                                   flipAt := Tab.set 0 d.net.flipAt k d.clk.tick } }

/-- TRAIN_FAIL (R235): 500 ms without success. -/
def execTrainFail (port : BitVec 4) (s : State) : Host.Outcome State Fault Refusal :=
  s.run fun d => d.when (d.linkState port.toNat == 1 && 62500000 ≤ d.inState port.toNat) fun d =>
    (d.raise (Reg.MAC_STATUS_TRAIN_FAIL port.toNat)).startTraining port.toNat

/-- ALIGN_TIMEOUT (R235): alignment is lost, or 50 ms have passed. -/
def execAlignTimeout (port : BitVec 4) (lost : Bool) (s : State) : Host.Outcome State Fault Refusal :=
  s.run fun d => d.when (d.linkState port.toNat == 2 && (lost || 6250000 ≤ d.inState port.toNat)) fun d => d.startTraining port.toNat

/-- A connection's timers start again with their remaining time, or stop (R327). -/
def SwConn.startTimers (c : SwConn) (now : Nat) : SwConn :=
  let go (x : OutPsn) : OutPsn := match x.stopped with
    | some n => { x with expiry := now + n, stopped := none }
    | none => x
  { c with out := c.out.map go }
def SwConn.stopTimers (c : SwConn) (now : Nat) : SwConn :=
  let stop (x : OutPsn) : OutPsn := if x.stopped.isSome then x else { x with stopped := some (x.expiry - now) }
  { c with out := c.out.map stop }

/-- Change the connections of a port. -/
def Dev.portConns (d : Dev) (p : Nat) (f : SwConn → SwConn) : Dev :=
  { d with sw := { d.sw with conns := d.sw.conns.map (fun x => (x.1, if d.inF (Reg.SWH_C_PORT x.1) == p then f x.2 else x.2)) } }

/-- LINK_UP (R235, R237): alignment and lock held for 1 ms; the port is UP, and the timers of its connections run again. -/
def execLinkUp (port : BitVec 4) (s : State) : Host.Outcome State Fault Refusal :=
  s.run fun d =>
    let p := port.toNat
    d.when (d.portActive p && d.linkState p == 2 && 125000 ≤ d.inState p) fun d =>
      (d.setLink p 3).portConns p (fun c => c.startTimers d.clk.tide)

/-- Whether an operation still needs a port at some stage. -/
def Op.needsPort (o : Op) (p : Nat) : Bool := !o.ended && o.plan.any (fun s => s.needs.any (fun x => x.res = macTx p))

/-- What a link down does beside the frame it cuts off (R237, R238, R327). -/
def Dev.portDown (d : Dev) (p : Nat) : Dev :=
  let hit := d.ops.filter (fun o => o.needsPort p)
  let d := d.each hit fun d o => d.failAssumption o.id
  let mark (o : Op) : Op := if Dev.mayTx o p && o.req.kind != 2 then { o with held := 1 } else o
  let keep (i : TxItem) : TxItem := if i.port == p then { i with held := true } else i
  let d := { d with ops := d.ops.map mark, net := { d.net with items := d.net.items.map keep } }
  let d := d.portConns p (fun c => c.stopTimers d.clk.tide)
  ((d.raise (Reg.MAC_STATUS_LINK_DOWN_SEEN p)).macCount p 16).mgmt .mac

/-! Frames in (R241, R242, R245 to R247, R253) -/

/-- MAX_FRAME as it acts. -/
def Dev.maxFrame (d : Dev) (p : Nat) : Nat := limit 1518 9216 (d.inF (Reg.MAC_PORT_CTL_MAX_FRAME p))

/-- How a frame may fail (R241): ALIGN_ERR, OVERSIZE, RUNT, FCS_ERR. -/
structure Faults where
  align : Bool
  oversize : Bool
  runt : Bool
  fcs : Bool
deriving DecidableEq, Repr

/-- The failures of the bytes received. -/
def Dev.frameFaults (d : Dev) (p : Nat) (bytes : List Byte) (align : Bool) : Faults :=
  { align := align, oversize := d.maxFrame p < bytes.length, runt := bytes.length < 64,
    fcs := bytes.length < 4 || fcsOf (body bytes) != bytes.drop (bytes.length - 4) }

/-- Whether a frame is bad, and the counter of its first failure. -/
def Faults.bad (f : Faults) : Bool := f.align || f.oversize || f.runt || f.fcs
def Faults.counter (f : Faults) : Nat := if f.align then 7 else if f.oversize then 6 else if f.runt then 5 else 4
/-- The flags of an RX completion (Table 3.9). -/
def Faults.flags (f : Faults) : Nat :=
  (if f.fcs then 2 ^ 20 else 0) + (if f.runt then 2 ^ 21 else 0) + (if f.oversize then 2 ^ 22 else 0) + (if f.align then 2 ^ 23 else 0)

/-- A bad frame: counted, and dropped or delivered as Slack (R242). -/
def Dev.badFrame (d : Dev) (p : Nat) (bytes : List Byte) (f : Faults) : Dev :=
  let d := d.macCount p f.counter
  let tid := d.inF (Reg.MAC_BAD_BAD_TID p)
  let rq := d.inF (Reg.MAC_BAD_BAD_QUEUE p)
  let x := bytes.take (d.maxFrame p)
  if !d.on (Reg.MAC_PORT_CTL_DELIVER_BAD p) || !d.rxReady tid rq || (Tab.get [] d.host.posted (rqKey tid rq)).isEmpty then d.macCount p 8
  else
    let (d, id) := d.newRx p tid rq 3 x.length d.clk.tide false
    (d.updOp id (fun o => { o with rxFlags := f.flags })).deliverRx id x x.length

/-- LINK_DOWN (R235, R237): the port leaves UP; a frame that is being received is cut off. -/
def Dev.linkDown (d : Dev) (p : Nat) (cut : Option (List Byte)) : Dev :=
  if d.linkState p != 3 then d
  else
    let d := match cut with
      | some l => d.badFrame p l (d.frameFaults p l true)
      | none => d
    (d.portDown p).startTraining p

/-- LINK_DOWN. -/
def execLinkDown (port : BitVec 4) (cut : Option (List Byte)) (s : State) : Host.Outcome State Fault Refusal :=
  s.run fun d => d.linkDown port.toNat cut

/-- Ports at an epoch boundary: ENABLE set starts training, ENABLE cleared takes the port down (R235), and what is being received then is cut
off (R237); in PFC_MODE 0 no pause is sent (R246). -/
def Dev.portsEpoch (d : Dev) : Dev :=
  if !d.released then d
  else d.each ((List.range 16).filter d.portActive) fun d p =>
    let d := if d.pfcMode p == 0 then
        { d with net := { d.net with xoff := Tab.set none d.net.xoff p none, pfcOut := Tab.set none d.net.pfcOut p none } } else d
    if d.on (Reg.MAC_PORT_CTL_ENABLE p) then (if d.linkState p == 0 then d.startTraining p else d)
    else if d.linkState p == 0 then d
    else if d.linkState p == 3 then
      let d := ((d.linkDown p none).setLink p 0).put (Reg.MAC_LANES_LANE_LOCK p) 0
      { d with net := { d.net with cutAt := Tab.set none d.net.cutAt p (some d.clk.tide) } }
    else (d.setLink p 0).put (Reg.MAC_LANES_LANE_LOCK p) 0

/-- The ns of a number of quanta at a port's rate: 512 bit times each. -/
def Dev.quantaNs (d : Dev) (n : Nat) : Nat := ceilDiv (n * 512) (8 * d.portBytesPerNs)

/-- A priority's pause ends. -/
def Dev.endPause (d : Dev) (p x : Nat) : Dev :=
  let v := d.rd (Reg.MAC_STATUS_PAUSED p)
  { d with net := { d.net with pauses := Tab.set none d.net.pauses (p * 8 + x) none } }.put (Reg.MAC_STATUS_PAUSED p)
    (if v.testBit x then v - 2 ^ x else v)

/-- A priority is paused for a number of quanta; 0 ends its pause. -/
def Dev.pause (d : Dev) (p x quanta : Nat) : Dev :=
  if quanta == 0 then d.endPause p x
  else
    let v := d.rd (Reg.MAC_STATUS_PAUSED p)
    { d with net := { d.net with pauses := Tab.set none d.net.pauses (p * 8 + x) (some (d.clk.tide + d.quantaNs quanta)) } }.put
      (Reg.MAC_STATUS_PAUSED p) (if v.testBit x then v else v + 2 ^ x)

/-- Whether a pause in full mode keeps an operation's next frame from a port (R245). -/
def Dev.pauseKeeps (d : Dev) (o : Op) (p : Nat) : Bool := d.pfcMode p == 2 && Dev.mayTx o p && d.pausedQ p (d.opQueue o)

/-- A received PFC frame (R245): the class-enable vector and the times stand where IEEE 802.1Qbb puts them (PRESUMED). -/
def Dev.takePfc (d : Dev) (p : Nat) (bytes : List Byte) : Dev :=
  let d := d.macCount p 11
  if d.pfcMode p == 0 then d
  else d.each ((List.range 8).filter (fun x => (be16 bytes 16).testBit x)) fun d x => d.pause p x (be16 bytes (18 + 2 * x))

/-- Whether good bytes are a PFC frame, or a global PAUSE frame (R245, R247). -/
def isPfc (bytes : List Byte) : Bool := be16 bytes 12 == 0x8808 && be16 bytes 14 == 0x0101
def isPause (bytes : List Byte) : Bool := be16 bytes 12 == 0x8808 && be16 bytes 14 == 0x0001

/-- A PFC frame for the priorities that the port pauses is to be sent (R246): the latest takes the place of one that still waits for the
line. -/
def Dev.sendPfc (d : Dev) (p quanta : Nat) : Dev := { d with net := { d.net with pfcOut := Tab.set none d.net.pfcOut p (some quanta) } }

/-- The occupancy may have risen above XOFF_KIB (R246). -/
def Dev.checkXoff (d : Dev) (p : Nat) : Dev :=
  if d.pfcMode p == 0 || (Tab.get none d.net.xoff p).isSome || d.rxOccupancy p ≤ d.inF (Reg.MAC_PFC_XOFF_KIB p) * 1024 then d
  else { d with net := { d.net with xoff := Tab.set none d.net.xoff p (some d.clk.tide) } }.sendPfc p (d.inF (Reg.MAC_PFC_QUANTA p))

/-- Whether a repeat, or the end of a pause sent, is due (R246). -/
def Dev.pfcDue (d : Dev) (p : Nat) : Bool :=
  d.pfcMode p != 0 && match Tab.get none d.net.xoff p with
  | some t => d.rxOccupancy p ≤ d.inF (Reg.MAC_PFC_XON_KIB p) * 1024 || t + d.quantaNs (d.inF (Reg.MAC_PFC_QUANTA p) / 2) ≤ d.clk.tide
  | none => false

/-- PFC_SEND_REPEAT (R246). -/
def execPfcSendRepeat (port : BitVec 4) (s : State) : Host.Outcome State Fault Refusal :=
  s.run fun d =>
    let p := port.toNat
    d.when (d.pfcDue p && d.portUp p) fun d =>
      if d.rxOccupancy p ≤ d.inF (Reg.MAC_PFC_XON_KIB p) * 1024 then
        { d with net := { d.net with xoff := Tab.set none d.net.xoff p none } }.sendPfc p 0
      else { d with net := { d.net with xoff := Tab.set none d.net.xoff p (some d.clk.tide) } }.sendPfc p (d.inF (Reg.MAC_PFC_QUANTA p))

/-- A frame's last bit is in (R241): it is counted, and passes to a pipeline in this tick, or ends at the MAC. The time of its
start-of-frame delimiter is in 2^−16 ns, of which the PMA captures half nanoseconds (R249). -/
def Dev.receive (d : Dev) (p : Nat) (bytes : List Byte) (align : Bool) (sfd : Nat) : Dev :=
  let f := d.frameFaults p bytes align
  if f.bad then d.badFrame p bytes f
  else
    let d := (d.macCount p 0).macCount p 1 bytes.length
    if isPfc bytes then d.takePfc p bytes
    else if isPause bytes then d.macCount p 13
    else
      let x : RxFrame := { id := d.nextOp, port := p, bytes := bytes, stamp := (sfd / 32768 * 32768 : Nat) - (d.inF (Reg.MAC_PTP_RX_LATENCY p) : Int),
                           event := (eventAt (body bytes)).isSome, tc := d.on (Reg.MAC_PORT_CTL_TC_ENABLE p), at_ := d.clk.tide }
      { d with nextOp := d.nextOp + 1, net := { d.net with frames := d.net.frames ++ [x] } }.checkXoff p

/-- FRAME_RECEIVE (R241). A frame that was being received when the clearing of ENABLE took the port down is cut off (R237). -/
def execFrameReceive (port : BitVec 4) (bytes : List Byte) (align : Bool) (sfd : Nat) (s : State) : Host.Outcome State Fault Refusal :=
  s.run fun d =>
    let p := port.toNat
    if d.portUp p then d.receive p bytes align sfd
    else match Tab.get none d.net.cutAt p with
      | some t => d.when (sfd < t * 65536) fun d =>
          { d with net := { d.net with cutAt := Tab.set none d.net.cutAt p none } }.badFrame p bytes (d.frameFaults p bytes true)
      | none => d

/-- PFC_FRAME_RECEIVE (R245): a good PFC frame. -/
def execPfcFrameReceive (port : BitVec 4) (bytes : List Byte) (s : State) : Host.Outcome State Fault Refusal :=
  s.run fun d => d.when (d.portUp port.toNat && isPfc bytes) fun d => d.receive port.toNat bytes false 0

/-- PFC_PAUSE_EXPIRY (R245). -/
def execPfcPauseExpiry (port : BitVec 4) (priority : BitVec 3) (s : State) : Host.Outcome State Fault Refusal :=
  s.run fun d =>
    match Tab.get none d.net.pauses (port.toNat * 8 + priority.toNat) with
    | some t => d.when (t ≤ d.clk.tide) fun d => d.endPause port.toNat priority.toNat
    | none => d

/-! Timestamps (R251) -/

/-- Whether a port's register block is reserved: the port is not active in the lane mode in force, from release on (R234). -/
def Dev.deadMac (d : Dev) (p : Nat) : Bool := d.released && !d.portActive p

/-- TX_TS_POP (R251). -/
def execTxTsPop (ag : Agent) (port : BitVec 4) (half : Fin 3) (value : BitVec 64) (s : State) : Host.Outcome State Fault Refusal :=
  s.run fun d => if d.deadMac port.toNat then d else d.byRight ag (0x200060 + 0x4000 * port.toNat) fun d =>
    if halfBit half value.toNat 0 then
      { d with net := { d.net with stamps := Tab.upd [] d.net.stamps port.toNat (·.drop 1) } } else d

end Sys2Proof.Machine
end

