-- ==== Sys2Proof/Machine/Swash.lean ====
section
/-! DEFINITION. Swash as it sends: connections, packets, answers to them, timers, failure, and the ends of frames on the wire
(chapter 12, R253). -/

namespace Sys2Proof.Machine

open Sys2Proof

/-! Connections (R303 to R307) -/

/-- A counter of Table 12.11. -/
def Dev.swCount (d : Dev) (n : Nat) (by_ : Nat := 1) : Dev := d.bump (Reg.SWH_CNT_COUNT n) by_

/-- An alert of SWH_ALERT, which raises the management interrupt. -/
def Dev.swAlert (d : Dev) (f : Fld) : Dev := (d.raise f).mgmt .swh

/-- A connection's working state, and its change; OUTSTANDING follows. -/
def Dev.conn (d : Dev) (c : Nat) : SwConn := Tab.get {} d.sw.conns c
def Dev.updConn (d : Dev) (c : Nat) (f : SwConn → SwConn) : Dev :=
  let x := f (d.conn c)
  { d with sw := { d.sw with conns := Tab.set {} d.sw.conns c x } }.put (Reg.SWH_C_OUTSTANDING c) x.out.length

/-- The state of a connection (Table 12.1). -/
def Dev.connState (d : Dev) (c : Nat) : Nat := d.rd (Reg.SWH_C_STATE c)

/-- A template's bytes, the offset of its IP header, and whether it is IPv6 (R331). -/
def Dev.tmplWord (d : Dev) (t w : Nat) : Nat := d.inF (Reg.SWH_TMPL_W t w)
def Dev.tmplOf (d : Dev) (c : Nat) : List Byte :=
  ((List.range 14).flatMap fun i => natLe 8 (d.tmplWord (d.inF (Reg.SWH_C_TEMPLATE c)) i)).take (d.hdrLen c)
def Dev.tmplL3 (d : Dev) (c : Nat) : Nat := bits (d.tmplWord (d.inF (Reg.SWH_C_TEMPLATE c)) 15) 55 48
def Dev.tmplV6 (d : Dev) (c : Nat) : Bool := (d.tmplWord (d.inF (Reg.SWH_C_TEMPLATE c)) 15).testBit 47

/-- The template check (R308). -/
def Dev.tmplOk (d : Dev) (c : Nat) : Bool :=
  let h := d.hdrLen c
  let l := d.tmplL3 c
  let t := d.tmplOf c
  h ≤ 112 && (if d.tmplV6 c then h == l + 48 && byteAt t (l + 6) == 17 else h == l + 28 && byteAt t l % 16 == 5)

/-- An OPEN write (R305, R306). -/
def Dev.openWrite (d : Dev) (ag : Agent) : Dev :=
  d.byRight ag 0x500048 fun d =>
    let c := d.inF Reg.SWH_CONN_SELECT_CONN
    if d.connState c == 0 then (d.put (Reg.SWH_C_STATE c) 1).askEpochBy (.connOpen c) ag else d.swAlert Reg.SWH_ALERT_CFG_REFUSED

/-- OPEN. -/
def execOpenConn (ag : Agent) (s : State) : Host.Outcome State Fault Refusal := s.run fun d => d.openWrite ag

/-- The placement check of R306: the SWP contract of the class, and PLACE_BURST. -/
def Dev.placeOk (d : Dev) (c : Nat) : Bool :=
  let b := d.contractBound (d.inF (Reg.SWH_C_TID c)) 4 (d.inF (Reg.SWH_C_PLACE_CLASS c))
  b != 0 && d.inF (Reg.SWH_C_PLACE_BURST c) ≤ d.inF (Reg.SWH_C_PLACE_BYTES c) * (b / 256 - 2)

/-- The rate as the limits hold it: RATE_MAX where no law acts (R328). -/
def Dev.rateLimit (d : Dev) (c r : Nat) : Nat :=
  let m := d.inF (Reg.SWH_C_CC_MODE c)
  if m == 1 || m == 2 then min (d.inF (Reg.SWH_C_RATE_MAX c)) (max (d.inF (Reg.SWH_C_RATE_MIN c)) r) else d.inF (Reg.SWH_C_RATE_MAX c)

/-- A connection opens afresh: PSN and MSN at INIT_PSN, an empty ring, full buckets. -/
def Dev.openNow (d : Dev) (c : Nat) (placed : Bool) : Dev :=
  let x : SwConn := { bucket := d.inF (Reg.SWH_C_PLACE_BURST c), rate := { tokens := (2 * d.pmtu c : Nat) } }
  let d := { d with sw := { d.sw with ring := d.sw.ring.filter (fun p => p.1 / 4096 != c) } }.updConn c (fun _ => x)
  let n := d.inF (Reg.SWH_C_INIT_PSN c)
  ((((((((d.put (Reg.SWH_C_STATE c) 2).putBit (Reg.SWH_C_PLACE_ACTIVE c) placed).put (Reg.SWH_C_NEXT_PSN c) n).put
    (Reg.SWH_C_NEXT_MSN c) n).put (Reg.SWH_C_ALPHA c) 0).put (Reg.SWH_C_SRTT c) 0).put (Reg.SWH_C_RTTVAR c) 0).put
    (Reg.SWH_C_RATE c) (d.rateLimit c (d.rd (Reg.SWH_C_RATE c))))

/-- The checks of an opening connection (R306). -/
def Dev.checkOpen (d : Dev) (c : Nat) : Dev :=
  if d.connState c != 1 then d
  else
    let cls := d.inF (Reg.SWH_C_PLACE_CLASS c)
    if !d.tmplOk c then d.put (Reg.SWH_C_STATE c) 0
    else if cls != 3 && !d.placeOk c then (d.put (Reg.SWH_C_STATE c) 0).swAlert Reg.SWH_ALERT_PLACE_REFUSED
    else if cls != 3 && !d.standingRoom cls (d.placeNeeds c) then (d.put (Reg.SWH_C_STATE c) 0).swAlert Reg.SWH_ALERT_PLACE_NO_ROOM
    else d.openNow c (cls != 3)

/-- CONN_OPEN_CHECK (R306). -/
def execConnOpenCheck (conn : BitVec 20) (s : State) : Host.Outcome State Fault Refusal :=
  s.run fun d => d.ifDue (.connOpen conn.toNat) fun d => d.checkOpen conn.toNat

/-- A CLOSE write (R307). -/
def Dev.closeWrite (d : Dev) (ag : Agent) : Dev :=
  d.byRight ag 0x500048 fun d =>
    let c := d.inF Reg.SWH_CONN_SELECT_CONN
    if d.connState c == 0 then d else d.askEpochBy (.connClose c) ag

/-- CLOSE. -/
def execCloseConn (ag : Agent) (s : State) : Host.Outcome State Fault Refusal := s.run fun d => d.closeWrite ag

/-- A close takes effect: the standing amounts are released; a FAILED connection is CLOSED at once (Table 12.1). -/
def Dev.closeNow (d : Dev) (c : Nat) : Dev :=
  if d.connState c == 1 || d.connState c == 2 then (d.put (Reg.SWH_C_STATE c) 3).put (Reg.SWH_C_PLACE_ACTIVE c) 0
  else if d.connState c == 4 then (d.put (Reg.SWH_C_STATE c) 0).put (Reg.SWH_C_PLACE_ACTIVE c) 0
  else d

/-- CONN_CLOSE_EFFECT (R307). -/
def execConnCloseEffect (conn : BitVec 20) (s : State) : Host.Outcome State Fault Refusal :=
  s.run fun d => d.ifDue (.connClose conn.toNat) fun d => d.closeNow conn.toNat

/-- The operations that run on a connection and have not ended. -/
def Dev.connOps (d : Dev) (c : Nat) : List Op :=
  d.ops.filter (fun o => !o.ended && (o.req.kind == 3 || o.req.kind == 5 ||
    (o.req.kind == 6 && o.req.code != 0 && d.on (Reg.STG_BE_KIND o.req.backend))) && d.opConn o == c)

/-! Packets (R308, R309, R368) -/

/-- The header words of a packet, with TIME and RETX zero. -/
def swWords (op flags tag inc dest reason psn msn off count win key rem : Nat) : List Nat :=
  [2 ^ 28 + op * 2 ^ 24 + flags + tag % 2 ^ 16, inc % 256 * 2 ^ 24 + dest % 2 ^ 20, reason * 2 ^ 24 + psn % 2 ^ 24, msn % 2 ^ 24,
   off % 2 ^ 32, count % 2 ^ 16 * 2 ^ 16, win % 2 ^ 22, key % 2 ^ 32, rem / 2 ^ 32 % 2 ^ 32, rem % 2 ^ 32, 0, 0]

/-- The flags at their bits in word 0. -/
def swLast : Nat := 2 ^ 23
def swNotify : Nat := 2 ^ 22
def swCipher : Nat := 2 ^ 21
def swRetx : Nat := 2 ^ 20
def swEce : Nat := 2 ^ 19
def swPoison : Nat := 2 ^ 18

/-- The header's bytes. -/
def hdrBytes (h : List Nat) : List Byte := h.flatMap (natBe 4)

/-- What follows the header: the payload, or with CIPHER an invocation, the sealed payload and the tag; none where the draw
fails. -/
def Dev.swSeal (d : Dev) (c : Nat) (sealed : Bool) (h : List Nat) (data : List Byte) : Option (List Byte × Dev) :=
  if !sealed then some (data, d)
  else
    let k := d.inF (Reg.SWH_C_TX_KEY_SLOT c)
    (d.drawInvocation k true).map fun x =>
      let nonce := gcmNonce (d.inF (Reg.SWH_C_SALT c)) x.1
      let ct := fitBytes data.length (Config.cipherData 0 false (d.slotKey k) nonce 0 data)
      (natBe 8 x.1 ++ ct ++ fitBytes 16 (Config.cipherTag 0 (d.slotKey k) nonce (hdrBytes h) ct), x.2)

/-- A ones' complement checksum of bytes. -/
def checksum (l : List Byte) : Nat := 65535 - fold16 (sum16 l)

/-- The IPv4 header filled in: total length, identification 0, ECN, checksum. -/
def fillV4 (ip : List Byte) (udpLen ecn : Nat) : List Byte :=
  let a := patch ip 2 (natBe 2 (20 + udpLen) ++ [0, 0])
  let a := patch a 1 [BitVec.ofNat 8 (byteAt a 1 / 4 * 4 + ecn)]
  let a := patch a 10 [0, 0]
  patch a 10 (natBe 2 (checksum a))

/-- The IPv6 header filled in: payload length, ECN. -/
def fillV6 (ip : List Byte) (udpLen ecn : Nat) : List Byte :=
  let a := patch ip 4 (natBe 2 udpLen)
  patch a 1 [BitVec.ofNat 8 (byteAt a 1 / 64 * 64 + ecn * 16 + byteAt a 1 % 16)]

/-- A packet's frame before its FCS: the connection's template with the device's fields, header, and what follows it. -/
def Dev.swFrame (d : Dev) (c path : Nat) (h : List Nat) (wire : List Byte) : List Byte :=
  let t := d.tmplOf c
  let l := d.tmplL3 c
  let v6 := d.tmplV6 c
  let body := hdrBytes h ++ wire
  let udpLen := 8 + body.length
  let ecn := if d.inF (Reg.SWH_C_CC_MODE c) == 1 then 2 else 0
  let ipLen := if v6 then 40 else 20
  let ip := (t.drop l).take ipLen
  let ip := if v6 then fillV6 ip udpLen ecn else fillV4 ip udpLen ecn
  let sport := min 0xFFC0 (d.inF Reg.SWH_CTRL_SPORT_BASE) + path
  let udp := natBe 2 sport ++ natBe 2 (d.inF Reg.SWH_CTRL_UDP_PORT) ++ natBe 2 udpLen
  let sum := checksum ((ip.drop 8).take 32 ++ natBe 4 udpLen ++ natBe 4 17 ++ udp ++ [0, 0] ++ body)
  let csum := if !v6 then 0 else if sum == 0 then 65535 else sum
  t.take l ++ ip ++ udp ++ natBe 2 csum ++ body

/-- The RTO of a transmission in slots, by the retransmissions before it (R325). -/
def Dev.rtoSlots (d : Dev) (c tries : Nat) : Nat :=
  let top := min 0x4000 (d.inF Reg.SWH_RTO_MAX)
  let srtt := sgn 32 (d.rd (Reg.SWH_C_SRTT c))
  let var := sgn 32 (d.rd (Reg.SWH_C_RTTVAR c))
  let r0 := if (d.conn c).rate.sampled then min top (max (d.inF Reg.SWH_RTO_MIN) (ceilDiv (srtt + 4 * var).toNat 256)) else d.inF Reg.SWH_RTO_INIT
  if tries == 0 then r0 else min (r0 * 2 ^ tries) top

/-- The paths of a connection. -/
def Dev.paths (d : Dev) (c : Nat) : Nat := 2 ^ min 6 (d.inF (Reg.SWH_C_PATHS_LOG2 c))

/-- A packet with the next PSN goes out for the first time; none where its draw fails. Without a moment it has been flushed from its port's
queue (R244): it counts as outstanding, and its timer runs. -/
def Dev.swFirst (d : Dev) (p : Nat) (sub : Option Nat) (cand : Cand) (c : Nat) (op : Option Nat) (msn : Nat) (sealed : Bool) (h : List Nat)
    (data : List Byte) (last : Bool) : Option Dev :=
  (d.swSeal c sealed (h.set 10 d.short) data).map fun x =>
    let d := x.2
    let path := (d.conn c).path % d.paths c
    let bytes := d.swFrame c path (h.set 10 d.short) x.1
    let psn := d.rd (Reg.SWH_C_NEXT_PSN c)
    let o : OutPsn := { psn := psn, msn := msn, op := op, hdr := h, data := data, path := path,
                        expiry := d.clk.tide + d.rtoSlots c 0 * 256 }
    let d := (d.updConn c fun x => { x with out := x.out ++ [o], path := path + 1 }).put (Reg.SWH_C_NEXT_PSN c) (psn + 1)
    match sub with
    | some sub => (((d.chargeTx p cand).swCount 0).swCount 1 data.length).startWire p sub cand.what (bytes ++ fcsOf bytes) last
    | none => d

/-! What an operation sends (R311, R341) -/

/-- A packet of an operation: opcode, flags, TAG, OFFSET, COUNT, window, key, remote offset, payload, whether it is the first of
its message, packets in the message, whether it is sealed, whether it is the last of the operation. -/
structure Piece where
  op : Nat := 1
  flags : Nat := 0
  tag : Nat := 0
  off : Nat := 0
  count : Nat := 0
  win : Nat := 0
  key : Nat := 0
  rem : Nat := 0
  data : List Byte := []
  first : Bool := true
  total : Nat := 1
  sealed : Bool := false
  last : Bool := true
deriving DecidableEq, Repr

/-- Packet i of a message of n packets with the payload data. -/
def msgPiece (data : List Byte) (m i : Nat) (notify sealed : Bool) : Piece :=
  let n := ceilDiv data.length m
  let end_ := i + 1 == n
  { flags := (if end_ then swLast else 0) + (if notify then swNotify else 0) + (if sealed then swCipher else 0), off := i * m,
    count := if end_ then n else 0, data := (data.drop (i * m)).take m, first := i == 0, total := n, sealed := sealed, last := end_ }

/-! What the storage layer chooses at the peer for a command (Op.peer, a free value drawn as the command is taken up): the data window with its
key and the command's place in it, the request window with its key and the record's place, and the namespace and the starting LBA. -/

def Op.dataWindow (o : Op) : Nat := o.peer % 2 ^ 22
def Op.dataKey (o : Op) : Nat := o.peer / 2 ^ 22 % 2 ^ 32
def Op.dataPlace (o : Op) : Nat := o.peer / 2 ^ 54 % 2 ^ 64
def Op.recordWindow (o : Op) : Nat := o.peer / 2 ^ 118 % 2 ^ 22
def Op.recordKey (o : Op) : Nat := o.peer / 2 ^ 140 % 2 ^ 32
def Op.recordPlace (o : Op) : Nat := o.peer / 2 ^ 172 % 2 ^ 64
def Op.peerNs (o : Op) : Nat := o.peer / 2 ^ 236 % 256
def Op.peerLba (o : Op) : Nat := o.peer / 2 ^ 244 % 2 ^ 64

/-- The storage layer takes a command up for its peer. -/
def Dev.drawPeer (d : Dev) (id : Nat) : Dev :=
  let (v, d) := d.draw (2 ^ 308 - 1)
  d.updOp id (fun o => { o with peer := v })

/-- The ranges that a Dataset Management's list gives: starting LBA and blocks (PRESUMED NVM Express). -/
def Op.ranges (o : Op) : List (Nat × Nat) :=
  (List.range (o.req.desc.length.toNat / 16)).map fun i =>
    (leNat ((o.data.drop (16 * i + 8)).take 8), leNat ((o.data.drop (16 * i + 4)).take 4))

/-- The bytes that a storage command names at its backend: of a Dataset Management those of all its ranges. -/
def Dev.namedBytes (d : Dev) (o : Op) : Nat :=
  if o.req.code == 9 then (o.ranges.map (·.2)).sum * d.lbaBytes (nsKey o.req.tid (d.reqNs o.req)) else o.req.desc.length.toNat

/-- The request record of a storage command (Table 13.3). DESIGN CHOICE (log 190): a Deallocate of several ranges is one record whose LENGTH
is that of all of them. -/
def Dev.requestRecord (d : Dev) (o : Op) : List Byte :=
  natLe 4 (o.req.code * 2 ^ 24 + o.peerNs * 2 ^ 16 + o.id % 65536) ++ natLe 8 o.peerLba ++ natLe 4 (d.namedBytes o) ++
    natLe 8 o.dataPlace ++ natLe 4 (d.clk.tide + o.req.bound) ++ natLe 4 0

/-- The next packet of an operation; of a storage command first the data of a Write and then the request record (R341). -/
def Dev.nextPiece (d : Dev) (o : Op) : Piece :=
  let x := o.req.desc
  let m := d.pmtu (d.opConn o)
  match o.req.kind with
  | 3 => { msgPiece (fitBytes x.length.toNat o.data) m o.sent x.notify x.cipher with
      tag := x.tag.toNat, win := x.window.toNat, key := x.windowKey.toNat, rem := x.addr2.toNat }
  | 5 => { op := 2, flags := if x.cipher then swCipher else 0, off := x.length.toNat, win := x.window.toNat, key := x.windowKey.toNat,
           rem := x.addr2.toNat, sealed := x.cipher }
  | _ =>
    let sealed := d.on (Reg.SWH_C_TX_KEY_EN (d.opConn o))
    let n := if o.req.code == 1 then ceilDiv (stData o.req) m else 0
    if o.sent < n then { msgPiece (fitBytes (stData o.req) o.data) m o.sent false sealed with
      last := false, win := o.dataWindow, key := o.dataKey, rem := o.dataPlace }
    else { msgPiece (d.requestRecord o) m 0 true sealed with win := o.recordWindow, key := o.recordKey, rem := o.recordPlace }

/-- Whether a message has no answer to wait for any more. -/
def SwMsg.done (m : SwMsg) (kind : Nat) : Bool :=
  m.total ≤ m.answered && (kind != 5 || m.nak.isSome || m.respTotal == some m.resps)

/-- What an operation's messages say of its end (R326, R505): status, detail, bytes carried, AUX. -/
def swEnd (o : Op) (ms : List SwMsg) : Nat × Nat × Nat × Nat :=
  let bad := (ms.map (·.bad)).foldl max o.status
  let (st, det) := match ms.findSome? (·.nak) with
    | some r => (0x40, r)
    | none => if bad != 0 then (bad, o.detail) else (0, 0)
  let got := if o.req.kind == 5 then (ms.map (·.placed)).sum else (ms.map (·.acked)).sum
  (st, det, if st == 0 then o.req.desc.length.toNat else got, if o.req.kind == 5 then (ms.map (·.lastAt)).sum else 0)

/-- The messages of an operation that are wholly answered go; an SWW or SWR completes with its last (R326). -/
def Dev.swCheck (d : Dev) (c id : Nat) : Dev :=
  let ms := (d.conn c).msgs.filter (fun m => m.op == id)
  let drop (d : Dev) : Dev := d.updConn c fun x => { x with msgs := x.msgs.filter (fun m => m.op != id) }
  match d.op? id with
  | none => if ms.all (fun m => m.total ≤ m.answered) then drop d else d
  | some o =>
    if ms.isEmpty || !ms.all (fun m => m.done o.req.kind) then d
    else if o.req.kind == 6 then drop d
    else
      let (st, det, n, aux) := swEnd o ms
      ((drop d).updOp id (fun o => { o with status := st, detail := det, carried := n, aux := aux })).endOp id

/-- A storage command is handed to its backend (R342), and a Write's data with it (R505). -/
def Op.hand (o : Op) (t : Nat) : Op :=
  { o with handed := some (o.handed.getD t), carried := if o.req.code == 1 then o.req.desc.length.toNat else o.carried }

/-- An operation sends no packet more: its messages have as many packets as were sent (R326), and for an SWW the delivery event is
now. A storage command waits for its backend from now on. -/
def Dev.swStop (d : Dev) (c id : Nat) : Dev :=
  let cut (d : Dev) (o : Op) : Dev := d.updConn c fun x => { x with msgs := x.msgs.map (fun (m : SwMsg) =>
    if m.op == id then { m with total := min m.total ((x.out.filter (fun y => y.msn == m.msn && y.op == some id)).length + m.answered) } else m) }
  match d.op? id with
  | none => d
  | some o =>
    let d := cut d o
    if o.req.kind == 6 then
      let n := (d.opFrames o).length
      let d := d.updOp id (fun o => if o.sent < n then { o with sent := n, handed := some (o.handed.getD d.clk.tide) } else o.hand d.clk.tide)
      if o.going.contains (macTx (d.inF (Reg.SWH_C_PORT c))) then d else d.itemDone id (macTx (d.inF (Reg.SWH_C_PORT c)))
    else if o.req.kind == 3 then
      (d.updOp id (fun o => { o with plan := [], delivered := some (o.delivered.getD d.clk.tide) })).input (.releaseFuture id)
    else d

/-- The next packet of an operation goes out on its port. One whose local data could not be read sends nothing more. -/
def Dev.swSendOp (d : Dev) (p : Nat) (sub : Option Nat) (cand : Cand) (o : Op) : Dev :=
  let c := d.opConn o
  if o.status != 0 then (if o.sent == 0 then d.endOp o.id else (d.swStop c o.id).swCheck c o.id)
  else
    let x := d.nextPiece o
    let msn := if x.first then d.rd (Reg.SWH_C_NEXT_MSN c) else (((d.conn c).msgs.filter (fun m => m.op == o.id)).getLast?.map (·.msn)).getD 0
    let h := swWords x.op x.flags x.tag (d.inF (Reg.SWH_C_INC c)) (d.inF (Reg.SWH_C_PEER_CONN c)) 0 (d.rd (Reg.SWH_C_NEXT_PSN c)) msn
      x.off x.count x.win x.key x.rem
    match d.swFirst p sub cand c (some o.id) msn x.sealed h x.data x.last with
    | none => d.keyExhausted o.id 1
    | some d =>
      let new : SwMsg := { op := o.id, msn := msn, total := x.total }
      let d := if x.first then
          (d.updConn c fun y => { y with msgs := y.msgs ++ [new] }).put (Reg.SWH_C_NEXT_MSN c) (msn + 1) else d
      if sub.isSome then d.updOp o.id (·.sendFrame p cand.len)
      else d.updOp o.id (fun o => { o.serve (macTx p) (cand.len + 20) with sent := o.sent + 1 })

/-! Reads served (R324) -/

/-- The response of a connection's head read joins its port's queue, once its data are there. -/
def Dev.pushResp (d : Dev) (c : Nat) : Dev :=
  match (d.conn c).serves with
  | r :: _ =>
    if !r.started || r.reads != 0 || d.net.items.any (fun i => i.what == .resp c) then d
    else d.addItem (d.inF (Reg.SWH_C_PORT c)) (d.inF (Reg.SWH_C_QUEUE c)) (d.inF (Reg.SWH_C_TID c)) c
      (d.packetLen c (min (d.pmtu c) (r.len - r.sent * d.pmtu c)) r.sealed) (.resp c)
  | [] => d

/-- The head read of a connection starts: from device memory at once, from host memory by reads of its link. Where the window is
no longer valid or the host forbids reads, it answers with POISON. -/
def Dev.startServe (d : Dev) (c : Nat) : Dev :=
  match (d.conn c).serves with
  | [] => d
  | r :: rest =>
    let tid := d.inF (Reg.SWH_C_TID c)
    let put (d : Dev) (r : ReadServe) : Dev := d.updConn c fun x => { x with serves := r :: rest }
    let all := (List.range (r.len / 64 + 1)).map (· * 64)
    let host := (d.hostLinkOf tid r.devMem r.addr).isSome
    let (t, a) := d.ioAt tid r.devMem r.addr
    if r.started then d
    else if d.rd (Reg.SWH_W_STATE r.window) != 1 || (host && !d.mayIssue t) then
      (put d { r with started := true, poison := all }).pushResp c
    else if !host then
      (put d { r with started := true, data := d.bytes r.addr r.len,
                      poison := all.filter (fun i => i < r.len && d.anyPoison (r.addr + i) (min 64 (r.len - i))) }).pushResp c
    else
      let ps := splitRead a (d.readSize t) (r.len + 1) 0 r.len
      (put d { r with started := true, reads := ps.length, data := List.replicate r.len 0 }).each ps fun d q => d.issueRead
        { link := linkOf t, tag := 0, tid := t, addr := a + q.1, len := q.2, use := .resp c q.1, time := 0, booked := false }

/-- Data of a served read arrive, or do not (R324). -/
def Dev.respArrive (d : Dev) (c off len : Nat) (data : Option (List Byte)) : Dev :=
  match (d.conn c).serves with
  | r :: rest =>
    let r := { r with reads := r.reads - 1 }
    let r := match data with
      | some l => { r with data := putData r.data off l }
      | none => { r with poison := r.poison ++ ((List.range (len / 64 + 1)).map (fun i => off + i * 64)) }
    (d.updConn c fun x => { x with serves := r :: rest }).pushResp c
  | [] => d

/-- The head read of a connection is done, or stopped; the next one starts. -/
def Dev.endServe (d : Dev) (c : Nat) : Dev :=
  (d.updConn c fun x => { x with serves := x.serves.drop 1 }).startServe c

/-- The next READ_RESP of a connection goes out; where its draw fails, the read is answered no further. -/
def Dev.swSendResp (d : Dev) (p : Nat) (sub : Option Nat) (cand : Cand) (c : Nat) : Dev :=
  let d := d.dropItem cand.num
  match (d.conn c).serves with
  | [] => d
  | r :: rest =>
    let m := d.pmtu c
    let x := msgPiece (fitBytes r.len r.data) m r.sent false r.sealed
    let bad := r.poison.any (fun a => r.sent * m ≤ a && a < r.sent * m + m)
    let data := if bad then [] else x.data
    let h := swWords 3 (x.flags + if bad then swPoison else 0) 0 (d.inF (Reg.SWH_C_INC c)) (d.inF (Reg.SWH_C_PEER_CONN c)) 0
      (d.rd (Reg.SWH_C_NEXT_PSN c)) r.msn x.off x.count 0 0 0
    match d.swFirst p sub cand c none r.msn r.sealed h data true with
    | none => d.endServe c
    | some d =>
      if x.last then d.endServe c
      else (d.updConn c fun y => { y with serves := { r with sent := r.sent + 1 } :: rest }).pushResp c

/-! Retransmissions and answers (R325, R327) -/

/-- A retransmission goes out: RETX set, the next path, a fresh invocation. One whose draw fails is not sent; the operation it
belongs to completes with KEY_EXHAUSTED. -/
def Dev.swSendAgain (d : Dev) (p sub : Nat) (cand : Cand) (c psn : Nat) : Dev :=
  let d := d.dropItem cand.num
  match (d.conn c).out.find? (fun x => x.psn == psn) with
  | none => d
  | some x =>
    let w := x.hdr.headD 0
    let h := (x.hdr.set 0 (w + swRetx)).set 10 d.short
    let path := (x.path + 1) % d.paths c
    let y : OutPsn := { x with tries := x.tries + 1, path := path, again := false, stopped := none,
                               expiry := d.clk.tide + d.rtoSlots c (x.tries + 1) * 256 }
    let d := d.updConn c fun z => { z with out := z.out.map (fun q => if q.psn == psn then y else q) }
    match d.swSeal c (w / swCipher % 2 == 1) h x.data with
    | none => match x.op with
      | some id => d.keyExhausted id 1
      | none => d
    | some (wire, d) =>
      let bytes := d.swFrame c path h wire
      (((d.chargeTx p cand).swCount 0).swCount 2).startWire p sub cand.what (bytes ++ fcsOf bytes) true

/-- An ACK or a NAK goes out. -/
def Dev.swSendControl (d : Dev) (p sub : Nat) (cand : Cand) (c psn reason time : Nat) (ece : Bool) : Dev :=
  let h := swWords (if reason == 0 then 4 else 5) (if ece then swEce else 0) 0 (d.inF (Reg.SWH_C_INC c)) (d.inF (Reg.SWH_C_PEER_CONN c))
    reason psn 0 0 0 0 0 0
  let bytes := d.swFrame c ((d.conn c).path % d.paths c) (h.set 10 time) []
  let d := d.updConn c fun x => { x with path := x.path % d.paths c + 1 }
  (((d.dropItem cand.num).chargeTx p cand).swCount (if reason == 0 then 3 else 4)).startWire p sub cand.what (bytes ++ fcsOf bytes) true

/-- The connection of a candidate. -/
def Dev.whatConn (d : Dev) (w : TxWhat) : Nat :=
  match w with
  | .op id => ((d.op? id).map d.opConn).getD 0
  | .resp c | .again c _ | .control c _ _ _ _ => c
  | .frame _ _ => 0

/-- The turn of a packet has come while its connection has 4,096 PSNs outstanding: WINDOW_STALL advances, once for each packet (R313). -/
def Dev.noteStall (d : Dev) (p sub : Nat) : Dev :=
  match d.pickTx p sub false with
  | some (x, _) =>
    let c := d.whatConn x.what
    let psn := d.rd (Reg.SWH_C_NEXT_PSN c)
    if !d.stalled x.what || (d.conn c).stalled == some psn then d
    else (d.swCount 18).updConn c fun y => { y with stalled := some psn }
  | none => d

/-- What the port's order of claims gives goes out, if it is a Swash packet, sub into the tick. A packet whose turn comes while its
connection has 4,096 PSNs outstanding waits, and the next is taken (R313). -/
def Dev.swTransmit (d : Dev) (p sub : Nat) : Dev :=
  if d.boot.thermTrip then d
  else
  let d := d.noteStall p sub
  match d.pickTx p sub true with
  | none => d
  | some (c, e) =>
    match c.what with
    | .op id => match d.op? id with
      | some o => if o.req.kind == 1 then d else e.swSendOp p (some sub) c o
      | none => d
    | .frame _ _ => d
    | .resp n => e.swSendResp p (some sub) c n
    | .again n psn => e.swSendAgain p sub c n psn
    | .control n psn r t ece => e.swSendControl p sub c n psn r t ece

/-- SWASH_PACKET_TRANSMIT (R311): at the moment of the tick at which the line is free. -/
def execSwashPacketTransmit (port : BitVec 4) (s : State) : Host.Outcome State Fault Refusal :=
  s.run fun d => match d.lineFree port.toNat with
    | some sub => d.swTransmit port.toNat sub
    | none => d

/-- A port's line sends what is ready, one frame after another, as long as it is free in this tick. DESIGN CHOICE (log 98): each frame starts
at the first moment that R504 allows. A tick has room for 20 frames of the least length at most. -/
def Dev.sendOn (p : Nat) : Nat → Dev → Dev
  | 0, d => d
  | n + 1, d =>
    match d.lineFree p with
    | none => d
    | some sub =>
      if d.pfcMay p sub then Dev.sendOn p n (d.startPfc p sub)
      else match d.pickTx p sub true with
      | none => d.noteStall p sub
      | some (c, _) => Dev.sendOn p n (if d.swashWhat c.what then d.swTransmit p sub else d.txStart p sub)

/-- At a tick boundary every port goes on sending. -/
def Dev.sendPorts (d : Dev) : Dev :=
  if d.boot.thermTrip then d else d.each ((List.range 16).filter d.portUp) fun d p => Dev.sendOn p 20 d

/-! The end of a frame on the wire (R253) -/

/-- The time of a frame's last bit on the wire, in 2^-16 ns: its preamble and bytes have gone, and the gap follows (R253). DEDUCED: both 30.16
and 30.4 ns give the last bit of chapter 03's worked example at 268,437,294. -/
def Dev.lastBit (d : Dev) (x : OnWire) : Nat := x.start + d.lastFix x.len

/-- An operation's frame has left: a TX operation is delivered; an SWW or SWR with its last packet; a storage command with its
request record is handed to its backend (R342). -/
def Dev.opSent (d : Dev) (p id : Nat) (x : OnWire) : Dev :=
  let t := d.lastBit x / 65536
  let d := d.updOp id (fun o => { o with going := o.going.erase (macTx p) })
  match d.op? id with
  | none => d
  | some o =>
    if o.ended then d.dropOp id
    else if o.req.kind == 1 then
      (d.updOp id (fun o => { o with carried := max 64 o.req.desc.length.toNat, delivered := some t })).endOp id
    else
      let c := d.opConn o
      let d := if !x.last then d
        else if o.req.kind == 6 then (d.updOp id (fun o => o.hand t)).itemDone id (macTx p)
        else (d.updOp id (fun o => { o with delivered := some (o.delivered.getD t) })).itemDone id (macTx p)
      d.swCheck c id

/-- TX_FRAME_END (R253): the last bit of the oldest frame on the wire leaves in this tick. -/
def Dev.txEnd (d : Dev) (p : Nat) : Dev :=
  match Tab.get [] d.net.wire p with
  | [] => d
  | x :: rest =>
    if (d.clk.tide + tickNs) * 65536 ≤ d.lastBit x then d
    else
      let d := ({ d with net := { d.net with wire := Tab.set [] d.net.wire p rest } }.macCount p 2).macCount p 3 x.len
      match x.what with
      | .op id => d.opSent p id x
      | .frame _ _ | .resp _ | .again _ _ | .control _ _ _ _ _ => d

/-- TX_FRAME_END. -/
def execTxFrameEnd (port : BitVec 4) (s : State) : Host.Outcome State Fault Refusal :=
  s.run fun d => d.txEnd port.toNat

/-! Flush (R244) -/

/-- The packets of an operation that wait in a port's queue are dropped, n at most: each is outstanding without having been sent, so that its
retransmission carries its data; the wire stage is over with the last. The answer counts them. -/
def Dev.flushOp (p id : Nat) : Nat → Dev → Dev
  | 0, d => d
  | n + 1, d =>
    match (d.op? id).bind (fun o => if Dev.mayTx o p then (d.opCand o).map (fun c => (o, c)) else none) with
    | none => d
    | some (o, c) =>
      let e := (d.swSendOp p none c o).macCount p 15
      match e.op? id with
      | some o => if o.sent < (e.opFrames o).length then Dev.flushOp p id n e
        else if o.req.kind == 6 then (e.updOp id (fun o => o.hand d.clk.tide)).itemDone id (macTx p) else e.itemDone id (macTx p)
      | none => e

/-- An item that waits for a port is dropped: a retransmission counts as made, and a response's packet as sent. -/
def Dev.flushItem (d : Dev) (p : Nat) (i : TxItem) : Dev :=
  let d := d.macCount p 15
  match i.what with
  | .frame _ _ | .control _ _ _ _ _ | .op _ => d.dropItem i.id
  | .resp c => d.swSendResp p none i.cand c
  | .again c psn =>
    let lost (x : OutPsn) : OutPsn := if x.psn == psn then
        { x with tries := x.tries + 1, again := false, expiry := d.clk.tide + d.rtoSlots c (x.tries + 1) * 256 } else x
    (d.dropItem i.id).updConn c fun z => { z with out := z.out.map lost }

/-- A queue of a port is flushed (R244): what has not started is removed. A host's TX frame completes with ABORTED; every other frame is counted
in FLUSHED, and a shoal's TX frame completes so too. -/
def Dev.flushQueue (d : Dev) (p q : Nat) : Dev :=
  let here (o : Op) : Bool := Dev.mayTx o p && d.opQueue o == q && (d.opCand o).isSome
  let ops := d.ops.filter here
  let its := d.net.items.filter (fun i => i.port == p && i.q == q)
  let d := d.each (ops.filter (fun o => o.req.kind == 1)) fun d o =>
    let d := if o.req.byThread then d.macCount p 15 else d
    d.endByAction o.id 0x20 0
  let d := d.each (ops.filter (fun o => o.req.kind != 1)) fun d o => Dev.flushOp p o.id 8192 d
  d.each its fun d i => d.flushItem p i

/-- MAC_FLUSH (R244); the block of a port that is not active is reserved (R234). -/
def execMacFlush (ag : Agent) (port : BitVec 4) (half : Fin 3) (value : BitVec 64) (s : State) : Host.Outcome State Fault Refusal :=
  s.run fun d => if d.deadMac port.toNat then d else d.byRight ag (0x200028 + 0x4000 * port.toNat) fun d =>
    d.each ((List.range 16).filter (fun q => halfBit half value.toNat q)) fun d q => d.flushQueue port.toNat q

/-! Answers received and timers (R325, R326, R328) -/

/-- A sample of the round trip (R325): the tick of arrival, at_, less the echoed TIME. -/
def Dev.rttSample (d : Dev) (c time at_ : Nat) : Dev :=
  let x := shortDiff (at_ % 2 ^ 32) time
  let first := !(d.conn c).rate.sampled
  let srtt := sgn 32 (d.rd (Reg.SWH_C_SRTT c))
  let var := sgn 32 (d.rd (Reg.SWH_C_RTTVAR c))
  let err := x - srtt
  let var' := if first then x / 2 else var + ((err.natAbs : Int) - var) / 4
  let srtt' := if first then x else srtt + err / 8
  ((d.updConn c fun y => { y with rate := { y.rate with sampled := true, last := wrap 32 x } }).put (Reg.SWH_C_SRTT c) (wrap 32 srtt')).put
    (Reg.SWH_C_RTTVAR c) (wrap 32 var')

/-- An answer that arrived at a time, an ACK or a NAK with a reason, gives a sample, and answers its packet if that is outstanding. -/
def Dev.swAnswered (d : Dev) (c psn : Nat) (nak : Option Nat) (time : Nat) (ece : Bool) (at_ : Nat) : Dev :=
  let d := d.rttSample c time at_
  match (d.conn c).out.find? (fun x => x.psn == psn) with
  | none => d
  | some x =>
    let n := x.data.length
    let hit (m : SwMsg) : Bool := m.msn == x.msn && x.op == some m.op
    let note (m : SwMsg) : SwMsg := if hit m then { m with
      answered := m.answered + 1, acked := m.acked + (if nak.isSome then 0 else n), nak := m.nak.or nak } else m
    let d := d.updConn c fun y => { y with
      out := y.out.filter (fun q => q.psn != psn), msgs := y.msgs.map note
      rate := { y.rate with acked := y.rate.acked + n, marked := y.rate.marked + if ece then n else 0 } }
    let d := { d with net := { d.net with items := d.net.items.filter (fun i => i.what != TxWhat.again c psn) } }
    match x.op, nak with
    | some id, none => d.swCheck c id
    | some id, some _ => ((d.failAssumption id).swStop c id).swCheck c id
    | none, some _ => if ((d.conn c).serves.head?.map (·.msn)) == some x.msn then
        let items := d.net.items.filter (fun i => i.what != TxWhat.resp c)
        { d with net := { d.net with items := items } }.endServe c else d
    | none, none => d

/-- The bytes that an operation which ends early has carried (R505): acknowledged for an SWW, placed for an SWR; and the AUX word of an SWR
(R326). -/
def Dev.swCarried (d : Dev) (c : Nat) (o : Op) : Nat :=
  let ms := (d.conn c).msgs.filter (fun m => m.op == o.id)
  if o.req.kind == 5 then (ms.map (·.placed)).sum else if o.req.kind == 3 then (ms.map (·.acked)).sum else o.carried
def Dev.swAux (d : Dev) (c : Nat) (o : Op) : Nat :=
  if o.req.kind == 5 then (((d.conn c).msgs.filter (fun m => m.op == o.id)).map (·.lastAt)).sum else o.aux

/-- An operation whose connection ends under it completes with RETRY_EXCEEDED. -/
def Dev.failOp (d : Dev) (c : Nat) (o : Op) : Dev :=
  let n := d.swCarried c o
  let aux := d.swAux c o
  ((d.failAssumption o.id).updOp o.id (fun o => { o with carried := n, aux := aux })).endWith o.id 0x41 0

/-- A connection fails (R325): its operations complete with RETRY_EXCEEDED, and its tracker entries are freed. -/
def Dev.failConn (d : Dev) (c : Nat) : Dev :=
  let ops := d.connOps c
  let drop (w : TxWhat) : Bool := match w with
    | .resp n | .again n _ | .control n _ _ _ _ => n == c
    | .op _ | .frame _ _ => false
  let d := d.each ops fun d o => d.failOp c o
  let d := d.each ((d.sw.track.filter (fun t => t.conn == c)).filterMap (·.swp)) fun d id => d.dropRx id
  let d := { d with sw := { d.sw with track := d.sw.track.filter (fun t => t.conn != c) },
                    net := { d.net with items := d.net.items.filter (fun i => !drop i.what) } }
  (((d.updConn c fun x => { x with out := [], msgs := [], serves := [] }).put (Reg.SWH_C_STATE c) 4).swCount 16).swAlert Reg.SWH_ALERT_CONN_FAILED

/-- A timer has expired (R325): the packet is retransmitted, or its connection fails. -/
def Dev.retxTimeout (d : Dev) (c psn : Nat) : Dev :=
  match (d.conn c).out.find? (fun x => x.psn == psn) with
  | none => d
  | some x =>
    if d.clk.tide < x.expiry || x.again || x.stopped.isSome then d
    else if 7 ≤ x.tries then d.failConn c
    else
      let sealed := x.hdr.headD 0 / swCipher % 2 == 1
      let d := d.updConn c fun y => { y with out := y.out.map (fun (q : OutPsn) => if q.psn == psn then { q with again := true } else q) }
      d.addItem (d.inF (Reg.SWH_C_PORT c)) (d.inF (Reg.SWH_C_QUEUE c)) (d.inF (Reg.SWH_C_TID c)) c
        (d.packetLen c x.data.length sealed) (.again c psn)

/-- RETX_TIMEOUT (R325). -/
def execRetxTimeout (conn : BitVec 20) (psn : BitVec 24) (s : State) : Host.Outcome State Fault Refusal :=
  s.run fun d => d.retxTimeout conn.toNat psn.toNat

/-- Whether a CLOSING connection has drained: nothing outstanding, nothing of its operations left to send. -/
def Dev.connDrained (d : Dev) (c : Nat) : Bool :=
  d.connState c == 3 && (d.conn c).out.isEmpty && (d.connOps c).all (fun o => o.plan.isEmpty)

/-- CONN_CLOSED (R305): a drained connection is CLOSED. A read whose responses can no longer be accepted ends. -/
def Dev.connClosed (d : Dev) (c : Nat) : Dev :=
  if !d.connDrained c then d
  else
    let d := d.each ((d.connOps c).filter (fun o => o.req.kind == 5)) fun d o => d.failOp c o
    let d := { d with net := { d.net with items := d.net.items.filter (fun i => match i.what with
      | .resp n | .again n _ | .control n _ _ _ _ => n != c
      | .op _ | .frame _ _ => true) } }
    (d.updConn c fun x => { x with msgs := [], serves := [] }).put (Reg.SWH_C_STATE c) 0

/-- CONN_CLOSED. -/
def execConnClosed (conn : BitVec 20) (s : State) : Host.Outcome State Fault Refusal :=
  s.run fun d => d.connClosed conn.toNat

/-! Congestion (R328, R329) -/

/-- One step of a connection's law. -/
def Dev.rateStep (d : Dev) (c : Nat) : Dev :=
  let x := (d.conn c).rate
  let r := d.rd (Reg.SWH_C_RATE c)
  let ai := d.inF (Reg.SWH_C_AI c)
  let m := d.inF (Reg.SWH_C_CC_MODE c)
  let a : Int := d.rd (Reg.SWH_C_ALPHA c)
  let f : Int := if x.acked == 0 then 0 else (x.marked * 1024 / x.acked : Nat)
  let alpha := (a + (f - a) / 16).toNat
  let target := d.inF (Reg.SWH_C_DELAY_TARGET c)
  if m == 1 then
    (d.put (Reg.SWH_C_ALPHA c) alpha).store (Reg.SWH_C_RATE c)
      (d.rateLimit c (if x.marked != 0 then r - r * alpha / 2048 else r + ai))
  else if m == 2 then
    d.store (Reg.SWH_C_RATE c) (d.rateLimit c
      (if target < x.last && x.last < 2 ^ 31 then max (r / 2) (r * target / x.last) else r + ai))
  else d.store (Reg.SWH_C_RATE c) (d.rateLimit c r)

/-- CC_PERIOD_STEP (R328): after CC_PERIOD slots, every connection that sent unbooked bytes takes a step, and each one's counts begin afresh. -/
def Dev.ccPeriod (d : Dev) : Dev :=
  if d.sw.period < max 1 (d.inF Reg.SWH_CTRL_CC_PERIOD) then d
  else
    let cs := (d.sw.conns.filter (fun p => p.2.rate.sent)).map (·.1)
    let fresh (x : SwConn) : SwConn := { x with rate := { x.rate with acked := 0, marked := 0, sent := false } }
    let d := { d with sw := { d.sw with period := 0 } }.each cs fun d c => d.rateStep c
    { d with sw := { d.sw with conns := Tab.mapAll {} d.sw.conns (fun _ x => fresh x) } }

/-- CC_PERIOD_STEP. -/
def execCcPeriodStep (s : State) : Host.Outcome State Fault Refusal := s.run fun d => d.ccPeriod

/-- CONN_RATE_WRITE (R329): the written rate replaces the law's at the next slot boundary. -/
def execConnRateWrite (ag : Agent) (half : Fin 3) (value : BitVec 64) (s : State) : Host.Outcome State Fault Refusal :=
  s.run fun d => d.byRight ag 0x500058 fun d => d.storeBits (Reg.SWH_C_RATE (d.inF Reg.SWH_CONN_SELECT_CONN)) half value.toNat

/-- Each slot boundary counts a slot of the period of the congestion laws (R328). -/
def Dev.swashPeriod (d : Dev) : Dev := { d with sw := { d.sw with period := d.sw.period + 1 } }

/-- Each slot boundary fills the congestion buckets and the placement buckets (R312, R320). -/
def Dev.swashSlot (d : Dev) : Dev :=
  let cap (c : Nat) : Int := (2 * d.pmtu c : Nat)
  let fill (c : Nat) (x : SwConn) : SwConn := { x with
    bucket := min (x.bucket + d.inF (Reg.SWH_C_PLACE_BYTES c)) (max x.bucket (d.inF (Reg.SWH_C_PLACE_BURST c)))
    rate := { x.rate with tokens := min (x.rate.tokens + d.inF (Reg.SWH_C_RATE c)) (cap c) } }
  { d with sw := { d.sw with conns := Tab.mapAll {} d.sw.conns fill } }

/-- At an epoch boundary each connection's rate is held within its limits (R329). -/
def Dev.swashEpoch (d : Dev) : Dev :=
  d.each ((d.sw.conns.map (·.1)).filter (fun c => d.rd (Reg.SWH_C_RATE c) != d.rateLimit c (d.rd (Reg.SWH_C_RATE c))))
    fun d c => d.store (Reg.SWH_C_RATE c) (d.rateLimit c (d.rd (Reg.SWH_C_RATE c)))

end Sys2Proof.Machine
end

