-- ==== Sys2Proof/Machine/Place.lean ====
section
/-! DEFINITION. Swash as it receives: header checks, the receive ring, windows, placements, trackers and notifications
(chapter 12). -/

namespace Sys2Proof.Machine

open Sys2Proof

/-! A packet's fields (Table 12.3) -/

/-- A header word of a packet. -/
def pkWord (k : SwPacket) (i : Nat) : Nat := (k.words.getD i 0).toNat
/-- OPCODE, a flag, TAG, PSN, MSN, OFFSET, COUNT, WINDOW, WINDOW_KEY, REMOTE_OFFSET, TIME, REASON. -/
def pkOp (k : SwPacket) : Nat := bits (pkWord k 0) 27 24
def pkFlag (k : SwPacket) (n : Nat) : Bool := (pkWord k 0).testBit n
def pkTag (k : SwPacket) : Nat := bits (pkWord k 0) 15 0
def pkPsn (k : SwPacket) : Nat := bits (pkWord k 2) 23 0
def pkReason (k : SwPacket) : Nat := bits (pkWord k 2) 31 24
def pkMsn (k : SwPacket) : Nat := bits (pkWord k 3) 23 0
def pkOff (k : SwPacket) : Nat := pkWord k 4
def pkCount (k : SwPacket) : Nat := bits (pkWord k 5) 31 16
def pkWindow (k : SwPacket) : Nat := bits (pkWord k 6) 21 0
def pkKey (k : SwPacket) : Nat := pkWord k 7
def pkRem (k : SwPacket) : Nat := pkWord k 8 * 2 ^ 32 + pkWord k 9
def pkTime (k : SwPacket) : Nat := pkWord k 10

/-- CIPHER, and the payload's bytes: with CIPHER an invocation stands before it and a tag after. -/
def pkSealed (k : SwPacket) : Bool := pkFlag k 21
def pkLen (k : SwPacket) : Nat := k.body.length - if pkSealed k then 24 else 0

/-- A bad header (R310): version, opcode, a field that Table 12.3 calls zero, lengths that disagree. -/
def badHdr (k : SwPacket) : Bool :=
  let op := pkOp k
  pkWord k 0 / 2 ^ 28 != 1 || op == 0 || 5 < op || bits (pkWord k 0) 17 16 != 0 || (op != 1 && pkTag k != 0) ||
    bits (pkWord k 1) 23 20 != 0 || (op != 5 && pkReason k != 0) || bits (pkWord k 3) 31 24 != 0 || (3 < op && pkOff k != 0) ||
    bits (pkWord k 5) 15 0 != 0 || bits (pkWord k 6) 31 22 != 0 || pkWord k 11 != 0 || !k.lenOk || k.words.length != 12 ||
    (pkSealed k && k.body.length < 24) || ((op == 2 || 3 < op) && pkLen k != 0)

/-- A packet that is not for its connection as it stands (R310). -/
def Dev.notForConn (d : Dev) (k : SwPacket) : Bool :=
  let c := k.target.toNat
  let st := d.connState c
  let t := d.tmplOf c
  let dst := if d.tmplV6 c then (t.drop (d.tmplL3 c + 24)).take 16 else (t.drop (d.tmplL3 c + 16)).take 4
  bits (pkWord k 1) 19 0 != c || !(st == 2 || (st == 3 && 3 < pkOp k)) || k.src != dst ||
    bits (pkWord k 1) 31 24 != d.inF (Reg.SWH_C_PEER_INC c)

/-! The receive ring and answers (R314, R316) -/

/-- The index of a ring entry, the entry, and its change. -/
def ringKey (c psn : Nat) : Nat := c * 4096 + psn % 4096
def Dev.ringAt (d : Dev) (c psn : Nat) : Option RingEntry := Tab.get none d.sw.ring (ringKey c psn)
def Dev.setRing (d : Dev) (c psn : Nat) (e : Option RingEntry) : Dev :=
  { d with sw := { d.sw with ring := Tab.set none d.sw.ring (ringKey c psn) e } }

/-- LAP of a PSN. -/
def lapOf (psn : Nat) : Nat := psn / 4096 % 2

/-- An answer joins the port's queue: an ACK with reason 0, else a NAK. -/
def Dev.answerWith (d : Dev) (c psn reason time : Nat) (ece : Bool) : Dev :=
  d.addItem (d.inF (Reg.SWH_C_PORT c)) (d.inF (Reg.SWH_C_QUEUE c)) (d.inF (Reg.SWH_C_TID c)) c (d.packetLen c 0 false)
    (.control c psn reason time ece)

/-- A packet is acknowledged, or refused with a reason: its ring entry says so. -/
def Dev.ackPsn (d : Dev) (c psn time : Nat) (ce : Bool) : Dev :=
  (d.setRing c psn (some ⟨2, lapOf psn, 0⟩)).answerWith c psn 0 time ce
def Dev.nakPsn (d : Dev) (c psn reason time : Nat) : Dev :=
  (d.setRing c psn (some ⟨3, lapOf psn, reason⟩)).answerWith c psn reason time false

/-! Trackers (R318) -/

/-- The tracker entry of a message, and its change. -/
def Dev.trackOf (d : Dev) (c msn : Nat) : Option Tracker := d.sw.track.find? (fun t => t.conn == c && t.msn == msn)
def Dev.updTrack (d : Dev) (c msn : Nat) (f : Tracker → Tracker) : Dev :=
  { d with sw := { d.sw with track := d.sw.track.map (fun t => if t.conn == c && t.msn == msn then f t else t) } }

/-- Whether the tracker is full. -/
def Dev.trackFull (d : Dev) : Bool := 262144 ≤ d.sw.track.length

/-- Whether a packet would need a tracker entry that is not there and finds the table full; such a packet is dropped unanswered, and its ring
entry forgotten (R318). -/
def Dev.trackFor (d : Dev) (c msn : Nat) : Bool := (d.trackOf c msn).isNone && d.trackFull
def Dev.dropFirst (d : Dev) (c psn : Nat) : Dev := (d.setRing c psn none).swCount 15

/-- The generation of a window. -/
def Dev.winGen (d : Dev) (w : Nat) : Nat := d.rd (Reg.SWH_W_GEN w)

/-- A message becomes FAILED with a reason, once; the notification under way for it is given up (R315, R319). -/
def Dev.failMsg (d : Dev) (c msn w reason : Nat) : Dev :=
  match d.trackOf c msn with
  | some t =>
    if t.failed.isSome then d
    else
      let d := (d.swCount 10).updTrack c msn (fun t => { t with failed := some reason, seen := d.clk.epochs, swp := none })
      match t.swp with
      | some id => d.dropRx id
      | none => d
  | none =>
    let d := d.swCount 10
    let t : Tracker := { conn := c, msn := msn, window := w, gen := d.winGen w, failed := some reason, seen := d.clk.epochs }
    { d with sw := { d.sw with track := d.sw.track ++ [t] } }

/-! Windows (R321 to R323, Table 12.4) -/

/-- The values of a window. -/
def Dev.window (d : Dev) (w : Nat) : WinVals := Tab.get {} d.sw.windows w

/-- The first check of Table 12.4 that fails for n bytes at an offset, and what the firewall says of the address. -/
def Dev.windowCheck (d : Dev) (c w key rem off n : Nat) (write : Bool) : Option Nat × FwAnswer :=
  let st := d.rd (Reg.SWH_W_STATE w)
  let v := d.window w
  let tid := d.inF (Reg.SWH_C_TID c)
  if st == 2 then (some 1, .granted)
  else if st == 0 then (some 2, .granted)
  else if v.owner != tid then (some 7, .granted)
  else if v.key != key then (some 3, .granted)
  else if !(if write then v.write else v.read) then (some 5, .granted)
  else if v.len < rem + off + n then (some 4, .granted)
  else
    let a := if v.devMem && n != 0 then d.firewall (.tenant tid) (v.base + rem + off) n (if write then .write else .read) else .granted
    (if a == .granted then none else some 4, a)

/-! Metering (R320) -/

/-- The kind of memory of a destination as PLACE_DEV names it; 3 for none. -/
def Dev.memKind (d : Dev) (devMem : Bool) (a : Nat) : Nat :=
  if !devMem then 0
  else match d.place a with
    | .hbm => 1
    | .ddr => 2
    | .host _ _ => 0
    | .sram _ | .packet | .control _ | .hole => 3

/-- A data packet is metered: green, with its cost taken, or yellow. -/
def Dev.meterPlace (d : Dev) (c port cost : Nat) (devMem : Bool) (a : Nat) : Bool × Dev :=
  let dev := d.inF (Reg.SWH_C_PLACE_DEV c) % 3
  if port == d.inF (Reg.SWH_C_PORT c) && cost ≤ (d.conn c).bucket && d.memKind devMem a == dev then
    (true, d.updConn c fun x => { x with bucket := x.bucket - cost })
  else (false, d.swCount 17)

/-! Opening (R317, R368) -/

/-- A packet's payload in the clear, and whether its tag fails: opened under RX_KEY_SLOT where CIPHER is set. -/
def Dev.openBody (d : Dev) (k : SwPacket) : List Byte × Bool :=
  if !pkSealed k then (k.body, false)
  else
    let c := k.target.toNat
    let s := d.inF (Reg.SWH_C_RX_KEY_SLOT c)
    let ct := (k.body.drop 8).take (pkLen k)
    let nonce := gcmNonce (d.inF (Reg.CRY_SLOT_SALT s)) (beNat (k.body.take 8))
    let aad := k.words.flatMap (fun w => natBe 4 w.toNat)
    let tag := fitBytes 16 (Config.cipherTag 0 (d.slotKey s) nonce aad ct)
    let usable := d.on (Reg.SWH_C_RX_KEY_EN c) && d.slotState s != 0 && d.slotMode s == 0
    (fitBytes ct.length (Config.cipherData 0 true (d.slotKey s) nonce 0 ct), !usable || tag != k.body.drop (8 + pkLen k))

/-! WRITE (R315, R318 to R320) -/

/-- The placements of a message under way whose tags hold. -/
def Dev.placingOf (d : Dev) (c msn : Nat) : List Placing :=
  d.sw.placing.filter (fun p => p.conn == c && p.msn == msn && !p.resp && !p.tagBad)

/-- The notification of a message whose last packet was sampled at a time: an operation of kind SWP, by rate where every packet was green
(R319, R502). DESIGN CHOICE (log 180): where the tenant's SWP contract is no longer enabled, and in breakwater lost or while admissions are
held, it is Slack, as a received frame's operation is. -/
def Dev.startNotify (d : Dev) (t : Tracker) (at_ : Nat) : Dev :=
  let c := t.conn
  let tid := d.inF (Reg.SWH_C_TID c)
  let cls := d.inF (Reg.SWH_C_PLACE_CLASS c)
  let green := t.green && cls != 3 && d.contractBound tid 4 cls != 0 && d.ratesOpen
  let id := d.nextOp
  let q : Req := { id := id, kind := 4, cls := if green then cls else 3, tid := tid, src := d.inF (Reg.SWH_C_PORT c),
                   org := .wire (d.inF (Reg.SWH_C_PORT c)), desc := { tag := BitVec.ofNat 16 t.tag }, tick := d.clk.tick, time := at_ }
  let promise := at_ + d.contractBound tid 4 cls
  let d := { d with nextOp := id + 1 }
  let d := if green then d.input (.byRate q promise 0) else d
  let e := d.adm.entries.find? (fun e => e.op == id)
  let o : Op := { req := q, admitted := at_, promise := promise, slack := e.isNone, entry := e.map (·.ix),
                  dest := some (tid, d.inF (Reg.SWH_C_NOTIFY_RQ c)) }
  { d with ops := d.ops ++ [o] }.updTrack c t.msn (fun t => { t with swp := some id })

/-- A message whose placed and running packets make its COUNT is sampled whole. -/
def Dev.noteCount (d : Dev) (c msn at_ : Nat) : Dev :=
  match d.trackOf c msn with
  | some t =>
    if t.notify && t.swp.isNone && t.failed.isNone && t.count == some (t.placed + (d.placingOf c msn).length) then d.startNotify t at_ else d
  | none => d

/-- A WRITE passes its checks: its message is tracked, and its placement starts, green or yellow as it was metered. -/
def Dev.acceptWrite (d : Dev) (k : SwPacket) (green : Bool) (at_ : Nat) : Dev :=
  let c := k.target.toNat
  let psn := pkPsn k
  let msn := pkMsn k
  let w := pkWindow k
  let v := d.window w
  let a := v.base + pkRem k + pkOff k
  if d.trackFor c msn then d.dropFirst c psn
  else
    let new : Tracker := { conn := c, msn := msn, window := w, gen := d.winGen w }
    let d := if (d.trackOf c msn).isSome then d else { d with sw := { d.sw with track := d.sw.track ++ [new] } }
    let (data, bad) := d.openBody k
    let p : Placing := { conn := c, psn := psn, msn := msn, resp := false, window := w, addr := a, devMem := v.devMem,
                         tid := d.inF (Reg.SWH_C_TID c), data := data, time := pkTime k, ce := k.ce, green := green, tagBad := bad,
                         last := if pkFlag k 23 then some (pkCount k) else none }
    let d := { d with sw := { d.sw with placing := d.sw.placing ++ [p] } }
    let d := d.updTrack c msn (fun t => { t with
      seen := d.clk.epochs, green := t.green && green, notify := t.notify || pkFlag k 22, tag := pkTag k
      count := if pkFlag k 23 && !bad then some (pkCount k) else t.count })
    d.noteCount c msn at_

/-- A WRITE or READ_REQ of n bytes at an offset is checked (R315): the reason that failed its message first, then Table 12.4. A failing packet
is NAKed and marks its message FAILED; one that passes goes on. -/
def Dev.checked (d : Dev) (k : SwPacket) (off n : Nat) (write : Bool) (go : Dev → Dev) : Dev :=
  let c := k.target.toNat
  let msn := pkMsn k
  let w := pkWindow k
  match (d.trackOf c msn).bind (·.failed) with
  | some r => (d.updTrack c msn (fun t => { t with seen := d.clk.epochs })).nakPsn c (pkPsn k) r (pkTime k)
  | none =>
    let (r, fw) := d.windowCheck c w (pkKey k) (pkRem k) off n write
    let d := d.reportFw fw 0x040 0 (if write then .write else .read) ((d.window w).base + pkRem k + off) (some (d.inF (Reg.SWH_C_TID c))) none
    let r := match r with
      | some r => some r
      | none => match d.trackOf c msn with
        | some t => if t.gen == d.winGen w then none else some 6
        | none => none
    match r with
    | some r => if d.trackFor c msn then d.dropFirst c (pkPsn k) else (d.failMsg c msn w r).nakPsn c (pkPsn k) r (pkTime k)
    | none => go d

/-- A WRITE is metered (R320) and checked. -/
def Dev.takeWrite (d : Dev) (k : SwPacket) (at_ : Nat) : Dev :=
  let v := d.window (pkWindow k)
  let (green, d) := d.meterPlace k.target.toNat k.port.toNat (pkLen k + if pkFlag k 23 && pkFlag k 22 then 64 else 0) v.devMem
    (v.base + pkRem k + pkOff k)
  d.checked k (pkOff k) (pkLen k) true fun d => d.acceptWrite k green at_

/-! READ_REQ and READ_RESP (R324) -/

/-- A READ_REQ: refused, or acknowledged and served in its turn. -/
def Dev.takeReadReq (d : Dev) (k : SwPacket) : Dev :=
  let c := k.target.toNat
  let w := pkWindow k
  d.checked k 0 (pkOff k) false fun d =>
    let x : ReadServe := { msn := pkMsn k, window := w, addr := (d.window w).base + pkRem k, len := pkOff k, sealed := pkSealed k,
                           devMem := (d.window w).devMem }
    let d := d.ackPsn c (pkPsn k) (pkTime k) k.ce
    if pkOff k == 0 then d else (d.updConn c fun y => { y with serves := y.serves ++ [x] }).startServe c

/-- The outstanding read that a response belongs to: the read's own MSN, and within its length. -/
def Dev.readOf (d : Dev) (k : SwPacket) : Option Op :=
  match (d.conn k.target.toNat).msgs.find? (fun m => m.msn == pkMsn k && (match d.op? m.op with
    | some o => o.req.kind == 5 && !o.ended && m.nak.isNone
    | none => false)) with
  | some m => (d.op? m.op).bind fun o => if pkOff k + pkLen k ≤ o.req.desc.length.toNat then some o else none
  | none => none

/-- A READ_RESP: dropped where it answers no outstanding read, else metered and placed at ADDR1. -/
def Dev.takeReadResp (d : Dev) (k : SwPacket) : Dev :=
  let c := k.target.toNat
  match d.readOf k with
  | none => (d.setRing c (pkPsn k) none).swCount 13
  | some o =>
    let a := o.req.desc.addr1.toNat + pkOff k
    let (green, d) := d.meterPlace c k.port.toNat (pkLen k) o.req.desc.devMem a
    let (data, bad) := d.openBody k
    let p : Placing := { conn := c, psn := pkPsn k, msn := pkMsn k, resp := true, window := 0, addr := a, devMem := o.req.desc.devMem,
                         tid := o.req.tid, data := data, time := pkTime k, ce := k.ce, green := green, tagBad := bad,
                         last := if pkFlag k 23 then some (pkCount k) else none, poison := pkFlag k 18 }
    { d with sw := { d.sw with placing := d.sw.placing ++ [p] } }

/-! Arrival -/

/-- A data packet meets its ring entry (R314): a duplicate is answered again, or dropped while its original is pending. -/
def Dev.takeData (d : Dev) (k : SwPacket) (at_ : Nat) : Dev :=
  let c := k.target.toNat
  let psn := pkPsn k
  let fresh (d : Dev) : Dev :=
    let d := d.setRing c psn (some ⟨1, lapOf psn, 0⟩)
    if pkOp k == 1 then d.takeWrite k at_ else if pkOp k == 2 then d.takeReadReq k else d.takeReadResp k
  match d.ringAt c psn with
  | some e =>
    if e.lap != lapOf psn then fresh d
    else
      let d := if e.st == 2 then d.answerWith c psn 0 (pkTime k) k.ce
        else if e.st == 3 then d.answerWith c psn e.reason (pkTime k) false else d
      d.swCount 8
  | none => fresh d

/-- A Swash packet whose last bit came in at a time is received (R310). -/
def Dev.swReceive (d : Dev) (k : SwPacket) (at_ : Nat) : Dev :=
  let c := k.target.toNat
  if badHdr k then d.swCount 12
  else if d.notForConn k then d.swCount 13
  else if pkOp k == 4 then (d.swCount 5).swAnswered c (pkPsn k) none (pkTime k) (pkFlag k 19) at_
  else if pkOp k == 5 then (d.swCount 6).swAnswered c (pkPsn k) (some (pkReason k)) (pkTime k) false at_
  else d.takeData k at_

/-- WRITE (R315). -/
def execWrite (pkt : SwPacket) (s : State) : Host.Outcome State Fault Refusal :=
  s.run fun d => d.when (pkOp pkt == 1) fun d => d.swReceive pkt d.clk.tide

/-- READ_REQ (R324). -/
def execReadReq (pkt : SwPacket) (s : State) : Host.Outcome State Fault Refusal :=
  s.run fun d => d.when (pkOp pkt == 2) fun d => d.swReceive pkt d.clk.tide

/-- READ_RESP (R324). -/
def execReadResp (pkt : SwPacket) (s : State) : Host.Outcome State Fault Refusal :=
  s.run fun d => d.when (pkOp pkt == 3) fun d => d.swReceive pkt d.clk.tide

/-- ACK (R325). -/
def execAck (pkt : SwPacket) (s : State) : Host.Outcome State Fault Refusal :=
  s.run fun d => d.when (pkOp pkt == 4) fun d => d.swReceive pkt d.clk.tide

/-- NAK (R326). -/
def execNak (pkt : SwPacket) (s : State) : Host.Outcome State Fault Refusal :=
  s.run fun d => d.when (pkOp pkt == 5) fun d => d.swReceive pkt d.clk.tide

/-! Placements end (R316 to R319) -/

/-- A message is complete: its notification is written, if it asked for one, and its tracker entry is freed. -/
def Dev.msgDone (d : Dev) (t : Tracker) : Dev :=
  let d := (d.swCount 9)
  let d := match t.swp with
    | some id => (d.updOp id (fun o => { o with carried := t.bytes, status := if t.poison then 0x61 else 0 })).endOp id
    | none => d
  { d with sw := { d.sw with track := d.sw.track.filter (fun x => !(x.conn == t.conn && x.msn == t.msn)) } }

/-- A packet of a WRITE has been placed: it counts towards its message. -/
def Dev.countPlaced (d : Dev) (p : Placing) (poison : Bool) : Dev :=
  let d := d.updTrack p.conn p.msn (fun t => { t with placed := t.placed + 1, bytes := t.bytes + p.data.length, poison := t.poison || poison })
  match d.trackOf p.conn p.msn with
  | some t => if t.failed.isNone && t.count == some t.placed then d.msgDone t else d
  | none => d

/-- A packet of a READ_RESP has been placed: it counts towards its read. -/
def Dev.countResp (d : Dev) (p : Placing) : Dev :=
  let c := p.conn
  let isRead (m : SwMsg) : Bool := m.msn == p.msn && (match d.op? m.op with | some o => o.req.kind == 5 | none => false)
  let note (m : SwMsg) : SwMsg := if isRead m then { m with
    resps := m.resps + 1, placed := m.placed + p.data.length, lastAt := d.clk.tide % 2 ^ 32
    respTotal := m.respTotal.or p.last, bad := if p.poison then 0x61 else m.bad } else m
  let ids := ((d.conn c).msgs.filter isRead).map (·.op)
  (d.updConn c fun x => { x with msgs := x.msgs.map note }).each ids fun d id => d.swCheck c id

/-- A placement's last write is handed, or refused by the host; then its packet is answered. One at an internal address in a host window goes to
that window's tenant (R316). -/
def Dev.placed1 (d : Dev) (p : Placing) : Dev :=
  let d := { d with sw := { d.sw with placing := d.sw.placing.erase p } }
  let host := (d.hostLinkOf p.tid p.devMem p.addr).isSome
  let (t, a) := d.ioAt p.tid p.devMem p.addr
  let refused := host && !d.mayIssue t
  let poison := !host && (d.partialPoison p.addr p.data.length).isSome
  let d := if p.data.isEmpty || refused then d
    else if !host then d.memWrite p.addr p.data (some p.tid) none
    else d.emit (.hostWrite t a p.data)
  if p.tagBad then ((d.setRing p.conn p.psn none).swCount 14).cryCount 4
  else if refused then
    let d := if p.resp then d else d.failMsg p.conn p.msn p.window 8
    d.nakPsn p.conn p.psn 8 p.time
  else
    let d := (d.swCount 7).ackPsn p.conn p.psn p.time p.ce
    if p.resp then d.countResp p else d.countPlaced p poison

/-- Placements of a function that may no longer issue requests are discarded: the host refuses their writes (R316, R322). -/
def Dev.discardPlacings (d : Dev) (tid : Nat) : Dev :=
  let of (p : Placing) : Bool := (d.hostLinkOf p.tid p.devMem p.addr).isSome && (d.ioAt p.tid p.devMem p.addr).1 == tid
  if d.mayIssue tid then d else d.each (d.sw.placing.filter of) Dev.placed1

/-- PLACEMENT_DONE (R316). -/
def execPlacementDone (conn : BitVec 20) (psn : BitVec 24) (s : State) : Host.Outcome State Fault Refusal :=
  s.run fun d =>
    match d.sw.placing.find? (fun p => p.conn == conn.toNat && p.psn == psn.toNat) with
    | some p => d.placed1 p
    | none => d

/-- Whether a tracker entry has seen no packet for PARTIAL_TIMEOUT epochs (R318). -/
def Dev.abandoned (d : Dev) (t : Tracker) : Bool := t.seen + max 16 (d.inF Reg.SWH_CTRL_PARTIAL_TIMEOUT) ≤ d.clk.epochs

/-- MSG_ABANDONED (R318). -/
def Dev.abandon (d : Dev) (c msn : Nat) : Dev :=
  match d.trackOf c msn with
  | none => d
  | some t =>
    if !d.abandoned t then d
    else
      let d := match t.swp with
        | some id => d.dropRx id
        | none => d
      { d with sw := { d.sw with track := d.sw.track.filter (fun x => !(x.conn == c && x.msn == msn)) } }.swCount 11

/-- MSG_ABANDONED. -/
def execMsgAbandoned (conn : BitVec 20) (msn : BitVec 24) (s : State) : Host.Outcome State Fault Refusal :=
  s.run fun d => d.abandon conn.toNat msn.toNat

/-! Windows change (R321, R322) -/

/-- A window takes a state; WIN_COUNT of its owner counts those that are not FREE. -/
def Dev.winState (d : Dev) (w owner st : Nat) : Dev :=
  let old := d.rd (Reg.SWH_W_STATE w)
  let n := d.rd (Reg.SWH_WIN_COUNT owner)
  let d := if old == 0 && st != 0 then d.put (Reg.SWH_WIN_COUNT owner) (n + 1)
    else if old != 0 && st == 0 then d.put (Reg.SWH_WIN_COUNT owner) (n - 1) else d
  d.put (Reg.SWH_W_STATE w) st

/-- The staged values of a window. -/
def Dev.stagedWin (d : Dev) (w : Nat) : WinVals :=
  { base := d.inF (Reg.SWH_W_BASE w), len := d.inF (Reg.SWH_W_LENGTH w), key := d.inF (Reg.SWH_W_KEY w), owner := d.inF (Reg.SWH_W_OWNER w),
    read := d.on (Reg.SWH_W_READ w), write := d.on (Reg.SWH_W_WRITE w), devMem := d.on (Reg.SWH_W_DEV_MEM w) }

/-- The range check of staged values: 1 byte to 256 GiB, within 64-bit addresses. -/
def WinVals.ok (v : WinVals) : Bool := 0 < v.len && v.len ≤ 2 ^ 38 && v.base + v.len ≤ 2 ^ 64

/-- A window is revoked, and its command waits for the drain: 1 REWRITE, 2 REVOKE, with the tick. A FREE window counts against
the owner staged for it. -/
def Dev.revokeWin (d : Dev) (w cmd : Nat) : Dev :=
  let v := if d.rd (Reg.SWH_W_STATE w) == 0 && cmd == 1 then { d.window w with owner := (d.stagedWin w).owner } else d.window w
  let d := { d with sw := { d.sw with windows := Tab.set {} d.sw.windows w v, installs := Tab.set 0 d.sw.installs w (d.clk.tick * 4 + cmd) } }
  (d.winState w v.owner 2).put (Reg.SWH_W_DONE w) 0

/-- A REWRITE command: refused over the owner's quota or with staged values out of range. -/
def Dev.rewriteWin (d : Dev) (ag : Agent) : Dev :=
  d.byRight ag 0x500120 fun d =>
    let w := d.inF Reg.SWH_WIN_SELECT_WINDOW
    let v := d.stagedWin w
    let quota := d.rd (Reg.SWH_W_STATE w) == 0 && d.inF (Reg.SWH_WIN_QUOTA v.owner) ≤ d.rd (Reg.SWH_WIN_COUNT v.owner)
    if quota || !v.ok then d.swAlert Reg.SWH_ALERT_WIN_REFUSED else d.revokeWin w 1

/-- REWRITE (R322). -/
def execRewrite (ag : Agent) (s : State) : Host.Outcome State Fault Refusal := s.run fun d => d.rewriteWin ag

/-- REVOKE (R322). -/
def execRevoke (ag : Agent) (s : State) : Host.Outcome State Fault Refusal :=
  s.run fun d => d.byRight ag 0x500120 fun d => d.revokeWin (d.inF Reg.SWH_WIN_SELECT_WINDOW) 2

/-- Whether no placement or read that passed its checks before the revoke remains unfinished. -/
def Dev.winDrained (d : Dev) (w : Nat) : Bool :=
  d.sw.placing.all (fun p => p.resp || p.window != w) &&
    d.sw.conns.all (fun c => c.2.serves.all (fun r => r.window != w || !r.started || r.reads == 0))

/-- WINDOW_INSTALL (R322): after its tick and its drain, a window's command is installed. -/
def Dev.installWin (d : Dev) (w : Nat) : Dev :=
  let x := Tab.get 0 d.sw.installs w
  if x == 0 || d.clk.tick ≤ x / 4 || !d.winDrained w then d
  else
    let d := { d with sw := { d.sw with installs := Tab.set 0 d.sw.installs w 0 } }
    let old := (d.window w).owner
    if x % 4 == 2 then ((d.winState w old 0).put (Reg.SWH_W_DONE w) 1)
    else
      let v := d.stagedWin w
      let d := (d.winState w old 0)
      let d := { d with sw := { d.sw with windows := Tab.set {} d.sw.windows w v } }
      ((d.winState w v.owner 1).put (Reg.SWH_W_GEN w) (d.winGen w + 1)).put (Reg.SWH_W_DONE w) 1

/-- WINDOW_INSTALL. -/
def execWindowInstall (window : BitVec 22) (s : State) : Host.Outcome State Fault Refusal :=
  s.run fun d => d.installWin window.toNat

/-- What an FLR does to a tenant's windows and connections (R330): a window whose REWRITE waits for its drain is revoked as well. -/
def Dev.swashFlr (d : Dev) (tid : Nat) : Dev :=
  let ws := (d.sw.windows.filter (fun p => p.2.owner == tid && d.rd (Reg.SWH_W_STATE p.1) != 0)).map (·.1)
  let cs := (d.listed (Reg.SWH_C_STATE 0)).filter (fun c => d.inF (Reg.SWH_C_TID c) == tid)
  (d.each ws fun d w => d.revokeWin w 2).each cs fun d c => d.closeNow c

end Sys2Proof.Machine
end

