-- ==== Sys2Proof/Machine/Parser.lean ====
section
/-! DEFINITION. Parsing and classification: the program, the parse, keys and lookups, the settling of a frame's action, its
handing on, handoffs, and pattern sets (chapter 10). -/

namespace Sys2Proof.Machine

open Sys2Proof

/-! The program (R256, Tables 10.3 to 10.7) -/

/-- Whether a register offset holds a part of the program. -/
def inProgram (a : Nat) : Bool :=
  (0x300080 ≤ a && a < 0x300100) || (0x300400 ≤ a && a < 0x300800) || (0x310000 ≤ a && a < 0x324000)

/-- The admin copy: what the registers in force hold. -/
def Dev.adminProg (d : Dev) : Tab Nat := d.regs.force.filter (fun p => inProgram (p.1 / 64))

/-- A field of a copy of the program; every one has reset value 0. -/
def progAt (p : Tab Nat) (f : Fld) : Nat := Tab.get 0 p f.key

/-- An extraction: VALID, DST, OFFSET, LEN. -/
def extOk (x : Nat) : Bool :=
  bits x 11 0 == 0 && (!x.testBit 31 || (16 ≤ bits x 30 24 && bits x 30 24 + bits x 15 12 + 1 ≤ 128))

/-- The checks of a parser state. -/
def stateOk (w0 w1 w2 w3 : Nat) : Bool :=
  extOk (bits w0 31 0) && extOk (bits w0 63 32) && extOk (bits w1 31 0) && extOk (bits w1 63 32) && bits w2 55 48 == 0 &&
    bits w3 44 40 ≤ 16 && bits w3 55 45 + bits w3 44 40 ≤ 2048 && bits w3 39 38 == 0 && bits w3 31 0 == 0 &&
    (!w3.testBit 33 || bits w3 37 32 == 2)

/-- The checks of a key template. -/
def templateOk (w : Nat) : Bool :=
  let n := bits w 60 57
  bits w 63 62 < 2 && 1 ≤ n && n ≤ 10 && (bits w 63 62 == 0 || n == 5) && bits w 56 50 == 0 && bits w 49 0 / 2 ^ (5 * n) == 0

/-- The checks of an action record (Tables 10.6 and 10.7). -/
def actionOk (w0 w1 : Nat) : Bool :=
  bits w0 34 32 == 0 && bits w1 42 32 == 0 && ((bits w0 63 60 != 0 && bits w0 63 60 != 5) || bits w0 31 0 == 0)

/-- The templates that a profile's enabled stages name. -/
def stageTemplates (stages : Nat) : List Nat :=
  (List.range 4).filterMap fun k => if stages.testBit (8 * k + 7) then some (bits stages (8 * k + 5) (8 * k)) else none

/-- The check of a whole program. DEDUCED (log 189): a template that is all zero, as at reset, and that no enabled stage names has not been
written, and breaks no rule of Table 10.5. -/
def progOk (p : Tab Nat) : Bool :=
  (List.range 256).all (fun s => stateOk (progAt p (Reg.PRS_STATE_W s 0)) (progAt p (Reg.PRS_STATE_W s 1)) (progAt p (Reg.PRS_STATE_W s 2))
    (progAt p (Reg.PRS_STATE_W s 3))) &&
  (List.range 2048).all (fun i => bits (progAt p (Reg.PRS_TRANS_W i)) 23 0 == 0) &&
  (List.range 16).all (fun f =>
    let st := progAt p (Reg.PRS_PROFILE_STAGES f)
    !st.testBit 6 && !st.testBit 14 && !st.testBit 22 && !st.testBit 30 &&
      actionOk (progAt p (Reg.PRS_PROFILE_DEFAULT f 0)) (progAt p (Reg.PRS_PROFILE_DEFAULT f 1)) &&
      (stageTemplates st).all (fun t => templateOk (progAt p (Reg.PRS_TEMPLATE t)))) &&
  (List.range 64).all (fun t => progAt p (Reg.PRS_TEMPLATE t) == 0 || templateOk (progAt p (Reg.PRS_TEMPLATE t)))

/-- A COMMIT write (R256): the check is due at the next epoch boundary. -/
def Dev.progCommit (d : Dev) (ag : Agent) (half : Fin 3) (v : Nat) : Dev :=
  d.byRight ag 0x300000 fun d => if halfBit half v 63 then d.askEpochBy .progCheck ag else d

/-- PROG_COMMIT. -/
def execProgCommit (ag : Agent) (half : Fin 3) (value : BitVec 64) (s : State) : Host.Outcome State Fault Refusal :=
  s.run fun d => d.progCommit ag half value.toNat

/-- PROG_CHECK (R256). -/
def execProgCheck (s : State) : Host.Outcome State Fault Refusal :=
  s.run fun d => d.ifDue .progCheck fun d =>
    let p := d.adminProg
    if progOk p then
      { d with net := { d.net with prog := p } }.put Reg.PRS_PROG_CTRL_PROG_GEN (d.rd Reg.PRS_PROG_CTRL_PROG_GEN + 1)
    else (d.raise Reg.PRS_STATUS_PROG_REFUSED).checkRefused (d.asker .progCheck) 0x300000

/-! The parse (R257 to R259) -/

/-- Where a parse stands: the state to visit, offset, visits, last state visited, L3 and L4 offsets, flags of Table 10.2, field
vector; how it ended: the exception reason, or 0 with the payload offset. -/
structure Walk where
  s : Nat
  off : Nat := 0
  visits : Nat := 0
  last : Nat := 0
  l3 : Nat := 0
  l4 : Nat := 0
  seenL4 : Bool := false
  flags : Nat := 0
  fv : List Byte
  ended : Bool := false
  fail : Nat := 0
  payload : Nat := 0
deriving DecidableEq, Repr

/-- need() of R258: the reason of a failure, or 0. -/
def needBytes (len pos n : Nat) : Nat := if 512 < pos + n then 1 else if len - 4 < pos + n then 2 else 0

/-- The extractions of a state, until one fails. -/
def extract (frame : List Byte) (len off : Nat) : List Nat → List Byte → Nat × List Byte
  | [], fv => (0, fv)
  | x :: r, fv =>
    if !x.testBit 31 then extract frame len off r fv
    else
      let at_ := off + bits x 23 16
      let n := bits x 15 12 + 1
      let e := needBytes len at_ n
      if e != 0 then (e, fv) else extract frame len off r (patch fv (bits x 30 24) ((frame.drop at_).take n))

/-- frag_check() of R259: a failure, the flags FRAG and FIRST_FRAG, whether the fragment is not the first. -/
def fragCheck (frame : List Byte) (len off w3 : Nat) : Nat × Nat × Bool :=
  let at_ := if w3.testBit 36 then some (off + 6) else if w3.testBit 37 then some (off + 2) else none
  match at_ with
  | none => (0, 0, false)
  | some a =>
    let e := needBytes len a 2
    let v := be16 frame a
    let more := if w3.testBit 36 then v.testBit 13 else v.testBit 0
    let pos := if w3.testBit 36 then v % 8192 else v / 8
    if e != 0 then (e, 0, false)
    else if pos != 0 then (0, 4, true)
    else if more then (0, 12, false)
    else (0, 0, false)

/-- The state that follows a selector value. -/
def nextState (p : Tab Nat) (base v dflt : Nat) : Nat → Nat → Nat
  | 0, _ => dflt
  | n + 1, i =>
    let t := progAt p (Reg.PRS_TRANS_W (base + i))
    let m := bits t 47 32
    if v &&& m == bits t 63 48 &&& m then bits t 31 24 else nextState p base v dflt n (i + 1)

/-- A walk that has failed. -/
def Walk.failed (w : Walk) (reason : Nat) : Walk := { w with ended := true, fail := reason }

/-- The visit of one state after its extractions: header length, fragments, end or next state. -/
def Walk.leave (w : Walk) (p : Tab Nat) (frame : List Byte) (len w2 w3 : Nat) : Walk :=
  let at_ := w.off + bits w2 31 24
  let e := if w2.testBit 9 then needBytes len at_ 1 else 0
  if e != 0 then w.failed e
  else
    let var := if w2.testBit 9 then (byteAt frame at_ &&& bits w2 23 16) / 2 ^ bits w2 15 13 * 2 ^ bits w2 12 10 else 0
    let h := bits w2 8 0 + var
    let e := needBytes len w.off h
    if e != 0 then w.failed e
    else
      let (e, fl, nonfirst) := fragCheck frame len w.off w3
      if e != 0 then w.failed e
      else
        let w := { w with flags := w.flags ||| fl }
        if w3.testBit 32 || nonfirst then
          let l4 := w.seenL4 && !nonfirst
          { w with ended := true, payload := w.off + h, flags := w.flags ||| 1 ||| (if l4 then 2 else 0), l4 := if l4 then w.l4 else 0 }
        else
          let sel := w.off + bits w2 63 56
          let m := bits w2 47 32
          let e := if m == 0 then 0 else needBytes len sel 2
          if e != 0 then w.failed e
          else
            let v := if m == 0 then 0 else be16 frame sel &&& m
            { w with s := nextState p (bits w3 55 45) v (bits w3 63 56) (bits w3 44 40) 0, off := w.off + h }

/-- The visit of one state. -/
def Walk.visit (w : Walk) (p : Tab Nat) (frame : List Byte) (len : Nat) : Walk :=
  let g (i : Nat) := progAt p (Reg.PRS_STATE_W w.s i)
  if 32 ≤ w.visits then w.failed 3
  else
    let w := { w with visits := w.visits + 1, last := w.s }
    if (g 3).testBit 33 then w.failed 4
    else
      let w := if (g 3).testBit 34 then { w with l3 := w.off } else w
      let w := if (g 3).testBit 35 then { w with l4 := w.off, seenL4 := true } else w
      let (e, fv) := extract frame len w.off [bits (g 0) 31 0, bits (g 0) 63 32, bits (g 1) 31 0, bits (g 1) 63 32] w.fv
      let w := { w with fv := fv }
      if e != 0 then w.failed e else w.leave p frame len (g 2) (g 3)

/-- The walk of the graph. -/
def walkFrom (p : Tab Nat) (frame : List Byte) (len : Nat) : Nat → Walk → Walk
  | 0, w => w
  | n + 1, w => if w.ended then w else walkFrom p frame len n (w.visit p frame len)

/-- The parse of a frame of a port: the walk, with the metadata of Table 10.2 in its field vector. After a failure the L4 and
payload offsets stay zero. -/
def parse (p : Tab Nat) (port : Nat) (frame : List Byte) : Walk :=
  let prof := progAt p (Reg.PRS_PORT_PROFILE port)
  let w := walkFrom p frame frame.length 33 { s := progAt p (Reg.PRS_PROFILE_START_STATE prof), fv := List.replicate 128 0 }
  let b (n : Nat) : Byte := BitVec.ofNat 8 n
  { w with fv := patch w.fv 0 ([b port, b w.flags] ++ natLe 2 frame.length ++ natLe 2 w.l3 ++ natLe 2 (if w.fail == 0 then w.l4 else 0) ++
      natLe 2 (if w.fail == 0 then w.payload else 0) ++ [b w.last, b w.visits, b prof, 0, 0, 0]) }

/-- The key of a template over a field vector whose stage byte is k (R261). -/
def buildKey (fv : List Byte) (tmpl k : Nat) : List Byte :=
  let fv := patch fv 13 [BitVec.ofNat 8 k]
  (List.range (bits tmpl 60 57)).flatMap fun j => (fv.drop (4 * bits tmpl (5 * j + 4) (5 * j))).take 4

/-- The keys of a profile's stages: none for a stage that is not issued. -/
def stageKeys (p : Tab Nat) (prof : Nat) (fv : List Byte) (l4 : Bool) : List (Option (Nat × List Byte)) :=
  let st := progAt p (Reg.PRS_PROFILE_STAGES prof)
  (List.range 4).map fun k =>
    let t := progAt p (Reg.PRS_TEMPLATE (bits st (8 * k + 5) (8 * k)))
    if !st.testBit (8 * k + 7) || (t.testBit 61 && !l4) then none else some (bits t 63 62, buildKey fv t k)

/-! The pass (R254, R255) -/

/-- Change a frame in the pipelines. -/
def Dev.updFrame (d : Dev) (id : Nat) (f : RxFrame → RxFrame) : Dev :=
  { d with net := { d.net with frames := d.net.frames.map (fun x => if x.id == id then f x else x) } }

/-- The oldest frame of a port of a kind. -/
def Dev.frameOf (d : Dev) (p : Nat) (f : RxFrame → Bool) : Option RxFrame := d.net.frames.find? (fun x => x.port == p && f x)

/-- A frame is sampled at its pipeline and parsed. -/
def Dev.pass (d : Dev) (f : RxFrame) : Dev :=
  let n := Tab.get 0 d.net.passes f.port
  let w := parse d.net.prog f.port f.bytes
  let prof := progAt d.net.prog (Reg.PRS_PORT_PROFILE f.port)
  let dflt := (progAt d.net.prog (Reg.PRS_PROFILE_DEFAULT prof 0), progAt d.net.prog (Reg.PRS_PROFILE_DEFAULT prof 1))
  let keys := if w.fail == 0 then stageKeys d.net.prog prof w.fv (w.flags.testBit 1) else []
  { d with net := { d.net with passes := Tab.set 0 d.net.passes f.port (n + 1) } }.updFrame f.id fun x =>
    { x with passed := true, pipe := f.port + n % d.lanes, fv := w.fv, fail := w.fail, keys := keys, dflt := dflt }

/-- PIPELINE_PASS (R255). -/
def execPipelinePass (port : BitVec 4) (s : State) : Host.Outcome State Fault Refusal :=
  s.run fun d => match d.frameOf port.toNat (fun f => !f.passed) with
    | some f => d.pass f
    | none => d

/-! Lookups (R260 to R262, R292) -/

/-- Whether a frame has no stage left to look up. -/
def RxFrame.looked (f : RxFrame) : Bool := f.fail != 0 || f.poison || f.hit.isSome || 4 ≤ f.next

/-- A requested mirror and copy of an action. -/
def actMirror (a0 : Nat) : Option Nat := if a0.testBit 57 then some (bits a0 55 50) else none
def actCopy (a0 a1 : Nat) : Option Nat := if a0.testBit 58 then some (bits a1 63 51) else none

/-- The next stage of a frame is looked up, or skipped where it is not issued. -/
def Dev.stageLookup (d : Dev) (f : RxFrame) : Dev :=
  let k := f.next
  match (f.keys.getD k none) with
  | none => d.updFrame f.id fun x => { x with next := k + 1 }
  | some (table, key) =>
    let (a, d) := d.look table key true
    let learns := d.on (Reg.REEF_LEARN_ENABLE f.port) && d.inF (Reg.REEF_LEARN_STAGE f.port) == k && table == 0
    match a with
    | .miss => d.updFrame f.id fun x => { x with next := k + 1, learn := if learns then some key else x.learn }
    | .shed => d.updFrame f.id fun x => { x with next := k + 1 }
    | .poison => d.updFrame f.id fun x => { x with poison := true, next := k + 1, hit := some (0, 0, k) }
    | .hit a0 a1 _ => d.updFrame f.id fun x =>
      let x := { x with mirror := (actMirror a0).or x.mirror, copy := (actCopy a0 a1).or x.copy, next := k + 1 }
      if a0.testBit 59 then x else { x with hit := some (a0, a1, k) }

/-- The lookups of a frame that are due at the boundary that starts this tick, n at most. -/
def Dev.stagesDue (d : Dev) (id : Nat) : Nat → Dev
  | 0 => d
  | n + 1 => match d.net.frames.find? (fun f => f.id == id) with
    | some f => if f.looked || d.clk.tide < f.at_ + 16 + 16 * f.next then d else (d.stageLookup f).stagesDue id n
    | none => d

/-- REEF_LOOKUP (R282): the stage of the oldest frame of a port that has it to come, at its time. -/
def execReefLookup (port : BitVec 4) (stage : BitVec 2) (s : State) : Host.Outcome State Fault Refusal :=
  s.run fun d =>
    match d.frameOf port.toNat (fun f => f.passed && !f.looked && f.next == stage.toNat) with
    | some f => d.when (f.at_ + 16 + 16 * f.next ≤ d.clk.tide) fun d => d.stageLookup f
    | none => d

/-! Settling (R120, R121, R262 to R265, R274, R292, R293) -/

/-- The colour that an action carries to its policer: PRE_COLOUR, or the map by DSCP. -/
def Dev.preColour (d : Dev) (f : RxFrame) (a0 : Nat) : Colour :=
  let dscp := byteAt f.fv (d.inF Reg.PRS_CFG_DSCP_BYTE) / 4
  let m := d.inF (if dscp < 32 then Reg.PRS_COLOUR_MAP_LO else Reg.PRS_COLOUR_MAP_HI) / 2 ^ (2 * (dscp % 32)) % 4
  match (if bits a0 49 48 == 3 then m else bits a0 49 48) with
  | 1 => .yellow
  | 2 => .red
  | _ => .green

/-- A frame meets a policer: its colour, counted (R120, R121). One that is not active, or bound to another port or tenant, makes it
red. -/
def Dev.colourFrame (d : Dev) (f : RxFrame) (i tid : Nat) (pre : Colour) : Colour × Dev :=
  let p := Tab.get {} d.cal.policers i
  let (c, q) := if !p.active || p.port != f.port || p.tid != tid then (.red, p) else p.meter pre f.bytes.length
  let d := if p.active then d.setPolicer i q else d
  (c, d.bump (match c with | .green => Reg.CAL_POL_GREEN i | .yellow => Reg.CAL_POL_YELLOW i | .red => Reg.CAL_POL_RED i))

/-- Whether policers carry every received frame as Slack: in a forced step's hold epoch and in breakwater lost (R52, R139). -/
def Dev.allSlack (d : Dev) : Bool := d.admitHeld || d.lost

/-- A TENANT disposition: the policer's colour decides; the receive operation, or none where the frame is dropped. -/
def Dev.settleTenant (d : Dev) (f : RxFrame) (a0 : Nat) : Option Nat × Dev :=
  let tid := bits a0 24 16
  let rq := bits a0 15 0
  let len := f.bytes.length
  let make (d : Dev) (cls : Nat) (green : Bool) : Option Nat × Dev :=
    let (d, id) := d.newRx f.port tid rq cls len f.at_ green
    (some id, d.updOp id (fun o => { o with aux := Config.flowHash f.bytes % 2 ^ 32 }))
  if !a0.testBit 35 then make d 3 false
  else
    let i := bits a0 47 36
    let p := Tab.get {} d.cal.policers i
    let yd := if p.active then p.yellowDrop else d.on (Reg.CAL_POL_YELLOW_DROP i)
    let rs := if p.active then p.redSlack else d.on (Reg.CAL_POL_RED_SLACK i)
    let (c, d) := d.colourFrame f i tid (d.preColour f a0)
    if d.allSlack then make d 3 false else match c with
    | .green => make d p.cls (p.cls != 3 && d.contractBound tid 2 p.cls != 0 && d.ratesOpen)
    | .yellow => if yd then (none, d) else make d 3 false
    | .red => if rs then make d 3 false else (none, d)

/-- The exception path: one frame's worth of the reason's tokens, or a drop (R274). -/
def Dev.settleException (d : Dev) (reason stage data : Nat) : List Fate × Dev :=
  let t := Tab.get 0 d.net.excTokens reason
  if !d.on Reg.PRS_EXC_ENABLE || t < 256 then ([], d.bump (Reg.PRS_CNT_EXC_DROP reason))
  else ([.handoff 2 reason (d.inF Reg.PRS_EXC_CHANNEL) stage data none],
        { d with net := { d.net with excTokens := Tab.set 0 d.net.excTokens reason (t - 256) } })

/-- The learn request of a frame (R292, R293): the device after it, and whether the frame is to be dropped for EXCESS. -/
def Dev.settleLearn (d : Dev) (f : RxFrame) : Bool × Dev :=
  match f.learn with
  | none => (false, d)
  | some key =>
    let p := f.port
    let tid := d.inF (Reg.REEF_LEARN_LEARN_TID p)
    let a0 := d.inF (Reg.REEF_LEARN_LEARN_ACTION0 p)
    let a0 := if d.on (Reg.REEF_LEARN_PORT_SUBST p) then a0 / 16 * 16 + p else a0
    if d.inF (Reg.REEF_LEARN_PORT_LIMIT p) ≤ d.portLearned p || d.inF (Reg.REEF_TENANT_LIMIT tid) ≤ d.tenantLearned tid then
      (!d.on (Reg.REEF_LEARN_EXCESS p), d.reefCount 11)
    else if 1024 ≤ d.reef.learnQ.length then (false, d.reefCount 12)
    else (false, { d with reef := { d.reef with learnQ := d.reef.learnQ ++
      [{ key := key, act0 := a0, act1 := d.inF (Reg.REEF_LEARN_LEARN_ACTION1 p), owner := tid, port := p }] } })

/-- What the settled disposition makes of a frame. -/
def Dev.settleDisp (d : Dev) (f : RxFrame) (a0 a1 stage : Nat) (hit drop : Bool) : List Fate × Dev :=
  let t := bits a0 31 0
  let data := bits a1 31 0
  match (if drop then 0 else bits a0 63 60) with
  | 0 => ([], d.prsCount 2)
  | 1 => match d.settleTenant f a0 with
    | (some id, d) => ([.rx id], d)
    | (none, d) => ([], d)
  | 2 => ([.port (bits t 24 16) (bits t 7 4) (bits t 3 0)], d)
  | 3 => ([.swash (bits t 19 0)], d)
  | 4 => ([.handoff 0 0 (bits t 12 0) stage data (if a0.testBit 56 then some (bits a1 50 43) else none)], d)
  | 5 => d.settleException (if hit then 6 else 0) stage data
  | _ => d.settleException 5 stage data

/-- The mirror and the copy of a settled frame. -/
def Dev.settleExtras (d : Dev) (f : RxFrame) (a0 a1 stage : Nat) : List Fate × Dev :=
  let copy : List Fate := match (actCopy a0 a1).or f.copy with
    | some ch => [.handoff 1 0 ch stage (bits a1 31 0) (if a0.testBit 56 then some (bits a1 50 43) else none)]
    | none => []
  match (actMirror a0).or f.mirror with
  | none => (copy, d)
  | some m =>
    let (d, ok) := d.chargeMirror m f.bytes.length
    (copy ++ (if ok then [.mirror m] else []), d)

/-- A frame settles (R262): its action, the colour, and what is charged. -/
def Dev.settle (d : Dev) (f : RxFrame) : Dev :=
  let d := d.prsCount 0
  let d := if f.fail == 0 && (byteAt f.fv 1).testBit 2 && !(byteAt f.fv 1).testBit 3 then d.prsCount 12 else d
  let (fates, d) :=
    if f.fail != 0 then (d.prsCount 1).settleException f.fail 15 0
    else if f.poison then
      let (drop, d) := d.settleLearn f
      let (x, d) := d.settleExtras f 0 0 ((f.hit.map (·.2.2)).getD 15)
      let (y, d) := if drop then ([], d.prsCount 2) else d.settleException 7 ((f.hit.map (·.2.2)).getD 15) 0
      (y ++ x, d)
    else
      let (a0, a1, stage, hit) := match f.hit with
        | some (a0, a1, k) => (a0, a1, k, true)
        | none => (f.dflt.1, f.dflt.2, 15, false)
      let (drop, d) := d.settleLearn f
      let (x, d) := d.settleExtras f a0 a1 stage
      let (y, d) := d.settleDisp f a0 a1 stage hit drop
      (y ++ x, d)
  d.updFrame f.id fun x => { x with fates := some fates }

/-- ACTION_SETTLE (R262): at P + 80, after the lookups of its stages. -/
def execActionSettle (port : BitVec 4) (s : State) : Host.Outcome State Fault Refusal :=
  s.run fun d =>
    match d.frameOf port.toNat (fun f => f.passed && f.fates.isNone) with
    | none => d
    | some f => d.when (f.at_ + 80 ≤ d.clk.tide) fun d =>
      let d := d.stagesDue f.id 4
      match d.net.frames.find? (fun x => x.id == f.id) with
      | some f => d.settle f
      | none => d

/-! Handing on (R255, R264, R366) -/

/-- The opening of a sealed frame (R366), whose action's word 0 is a0: none where the frame is not to be opened; else its bytes and the
detail of TAG_FAIL, 0 where the tag holds. -/
def Dev.openRx (d : Dev) (o : Op) (a0 : Nat) (l : List Byte) : Option (List Byte × Nat) :=
  let h := l2Len l
  let tid := o.req.tid
  let p := Tab.get {} d.cal.policers (bits a0 47 36)
  let booked := a0.testBit 35 && p.active && p.tid == tid && p.inline
  if !d.bit (Reg.CRY_TENANT_RX_OPEN_IN_FORCE tid) || be16 l h != d.inF Reg.CRY_SEAL_ETYPE || !booked || l.length < h + 28 then none
  else
    let k := be16 l (h + 2) % 2 ^ 14
    let use := if d.inF (Reg.CRY_SLOT_USE k) == 0 then 3 else d.inF (Reg.CRY_SLOT_USE k)
    if d.slotState k != 1 || d.slotMode k != 0 || use == 1 || d.on (Reg.CRY_SLOT_OWNER_KIND k) || d.inF (Reg.CRY_SLOT_OWNER k) != tid then
      some (l, 2)
    else
      let ct := (l.drop (h + 12)).take (l.length - h - 28)
      let nonce := gcmNonce (d.inF (Reg.CRY_SLOT_SALT k)) (beNat ((l.drop (h + 4)).take 8))
      let tag := fitBytes 16 (Config.cipherTag 0 (d.slotKey k) nonce (l.take (h + 12)) ct)
      let plain := fitBytes ct.length (Config.cipherData 0 true (d.slotKey k) nonce 0 ct)
      some (l.take h ++ plain, if tag == l.drop (l.length - 16) then 0 else 1)

/-- A frame goes to the host write path, or is dropped where its function cannot take it. -/
def Dev.handRx (d : Dev) (f : RxFrame) (id : Nat) : Dev :=
  match d.op? id with
  | none => d
  | some o =>
    let (tid, rq) := o.dest.getD (o.req.tid, 0)
    if !d.rxReady tid rq then (d.prsCount 11).dropRx id
    else
      let d := d.prsCount 3
      let l := body f.bytes
      match d.openRx o (match f.hit with | some x => x.1 | none => f.dflt.1) l with
      | none => d.deliverRx id l f.bytes.length
      | some (x, e) =>
        let d := if e == 2 then d.cryCount 9 else d.cryCount 3
        let d := if e == 1 then d.cryCount 4 else d
        let d := if e == 0 then d else d.updOp id (fun o => { o with status := 0x30, detail := e, tagFail := true })
        d.deliverRx id x f.bytes.length

/-- A Swash packet of a frame that the classification gives to a connection (R310): behind the L4 header; the IP source address, ECN
and the lengths are read at the L3 offset. -/
def swPacketOf (f : RxFrame) (c : Nat) : SwPacket :=
  let l := body f.bytes
  let l3 := byteAt f.fv 4 + 256 * byteAt f.fv 5
  let l4 := byteAt f.fv 6 + 256 * byteAt f.fv 7
  let v6 := byteAt l l3 / 16 == 6
  let ipLen := if v6 then 40 + be16 l (l3 + 4) else be16 l (l3 + 2)
  let udp := be16 l (l4 + 4)
  let data := (l.drop (l4 + 8)).take (udp - 8)
  { port := BitVec.ofNat 4 f.port, target := BitVec.ofNat 20 c
    src := if v6 then (l.drop (l3 + 8)).take 16 else (l.drop (l3 + 12)).take 4
    ce := (if v6 then byteAt l (l3 + 1) / 16 % 4 else byteAt l (l3 + 1) % 4) == 3
    words := (List.range 12).map fun i => BitVec.ofNat 32 (beNat ((data.drop (4 * i)).take 4))
    body := data.drop 48
    lenOk := 56 ≤ udp && l4 + udp ≤ l.length && l3 + ipLen == l4 + udp }

/-- What a frame's handoffs carry beside their channel. -/
def RxFrame.info (f : RxFrame) (kind reason stage data : Nat) (scan : Option Nat) : HandInfo :=
  { kind := kind, reason := reason, stage := stage, state := byteAt f.fv 10, data := data, meta16 := f.fv.take 16, scan := scan,
    payload := byteAt f.fv 8 + 256 * byteAt f.fv 9 }

/-- The settling stage, 15 for the default or a failed parse, and ACTION_DATA of the settling action. -/
def RxFrame.stageNo (f : RxFrame) : Nat := if f.fail != 0 then 15 else (f.hit.map (·.2.2)).getD 15
def RxFrame.actData (f : RxFrame) : Nat :=
  if f.fail != 0 || f.poison then 0 else bits (match f.hit with | some x => x.2.1 | none => f.dflt.2) 31 0

/-- One fate of a frame. -/
def Dev.handFate (d : Dev) (f : RxFrame) (x : Fate) : Dev :=
  let record := stampRecord f.stamp f.port f.event
  match x with
  | .rx id => d.handRx f id
  | .port tid q p =>
    let e := d.forward p q tid (body f.bytes) (if f.event && f.tc then some (f.port, f.stamp) else none) (some f.port)
    if e.nextOp == d.nextOp then e else e.prsCount 4
  | .swash c => (d.prsCount 5).swReceive (swPacketOf f c) f.at_
  | .handoff kind reason ch stage data scan => (d.handoff f.port f.pipe ch f.bytes record (f.info kind reason stage data scan)).1
  | .mirror m => d.deliverMirror m f.port f.pipe f.at_ f.bytes record (f.info 3 0 f.stageNo f.actData none)

/-- A frame is handed on, and leaves the pipeline. -/
def Dev.handOn (d : Dev) (f : RxFrame) : Dev :=
  let d := { d with net := { d.net with frames := d.net.frames.filter (fun x => x.id != f.id) } }
  (d.each (f.fates.getD []) fun d x => d.handFate f x).checkXoff f.port

/-- FRAME_HAND_ON (R255): at P + 88. -/
def execFrameHandOn (port : BitVec 4) (s : State) : Host.Outcome State Fault Refusal :=
  s.run fun d =>
    match d.frameOf port.toNat (fun f => f.fates.isSome) with
    | some f => d.when (f.at_ + 88 ≤ d.clk.tide) fun d => d.handOn f
    | none => d

/-! Pattern sets (R230, R268 to R271, Table 10.14) -/

/-- A pattern of an image: its bytes and whether it folds ASCII case. -/
def patternOf (img : List Byte) (i : Nat) : List Byte × Bool :=
  let e := leAt img 16 4 + 8 * i
  (slice img (leAt img 28 4 + leAt img (e + 4) 4) (leAt img e 1), (leAt img (e + 1) 1).testBit 0)

/-- The members of a set. -/
def setOf (img : List Byte) (s : Nat) : List Nat :=
  let e := leAt img 20 4 + 8 * s
  let at_ := leAt img 24 4 + leAt img e 4
  (List.range (leAt img (e + 4) 4)).map fun k => leAt img (at_ + 2 * k) 2

/-- A byte with ASCII capitals folded. -/
def foldByte (b : Byte) : Byte := if 0x41 ≤ b.toNat && b.toNat ≤ 0x5A then b + 0x20 else b

/-- Whether a pattern ends at offset e of data. -/
def endsAt (img data : List Byte) (i e : Nat) : Bool :=
  let (p, fold) := patternOf img i
  let d := slice data (e + 1 - p.length) p.length
  p.length ≤ e + 1 && (if fold then p.map foldByte == d.map foldByte else p == d)

/-- The matches of a set in data, by end offset and then by pattern number: number and offset. -/
def scanSet (img : List Byte) (s : Nat) (data : List Byte) : List (Nat × Nat) :=
  let l := if img.isEmpty then [] else setOf img s
  (List.range data.length).flatMap fun e => (l.filter (fun i => endsAt img data i e)).map (fun i => (i, e))

/-- The matches reported, in the 32-bit format of R230. -/
def matchWords (l : List (Nat × Nat)) (n : Nat) : List Nat := (l.take n).map (fun m => m.1 % 65536 * 65536 + m.2 % 65536)

/-- Strictly ascending numbers. -/
def ascending : List Nat → Bool
  | a :: b :: r => a < b && ascending (b :: r)
  | _ => true

/-- The check of an image (R270). -/
def imageOk (img : List Byte) : Bool :=
  let len := img.length
  let n := leAt img 12 4
  let pt := leAt img 16 4
  let st := leAt img 20 4
  let mem := leAt img 24 4
  let str := leAt img 28 4
  let patOk (i : Nat) : Bool :=
    let e := pt + 8 * i
    let l := leAt img e 1
    1 ≤ l && l ≤ 64 && leAt img (e + 1) 1 < 2 && leAt img (e + 2) 2 == 0 && str + leAt img (e + 4) 4 + l ≤ len
  let setOk (s : Nat) : Bool :=
    let e := st + 8 * s
    leAt img e 4 % 2 == 0 && leAt img (e + 4) 4 ≤ 65536 && mem + leAt img e 4 + 2 * leAt img (e + 4) 4 ≤ len &&
      (setOf img s).all (· < n) && ascending (setOf img s)
  64 ≤ len && len % 64 == 0 && leAt img 0 4 == 0xEC4A5A77 && leAt img 4 4 == 1 && leAt img 8 4 == len && n ≤ 65536 &&
    leAt img 32 4 == crc32c (img.drop 64) && (slice img 36 28).all (· == 0) && pt % 8 == 0 && st % 8 == 0 && mem % 2 == 0 &&
    pt + 8 * n ≤ len && st + 2048 ≤ len && mem ≤ len && str ≤ len && (List.range n).all patOk && (List.range 256).all setOk

/-- A PAT_COMMIT write (R269): discarded and logged while an image loads. -/
def Dev.patCommit (d : Dev) (ag : Agent) (half : Fin 3) (v : Nat) : Dev :=
  d.byRight ag 0x300038 fun d =>
    let d := d.storeBits Reg.PRS_PAT_LENGTH half v
    if !halfBit half v 63 then d
    else if d.bit Reg.PRS_STATUS_PAT_PENDING then d.discarded ag 0x300038
    else d.askEpochBy .patCheck ag

/-- PAT_COMMIT. -/
def execPatCommit (ag : Agent) (half : Fin 3) (value : BitVec 64) (s : State) : Host.Outcome State Fault Refusal :=
  s.run fun d => d.patCommit ag half value.toNat

/-- Whether n bytes from a lie in DDR or HBM. -/
def Dev.inDram (d : Dev) (a n : Nat) : Bool :=
  let p := d.place a
  (p == .ddr || p == .hbm) && (n == 0 || d.place (a + n - 1) == p)

/-- PAT_IMAGE_CHECK (R269, R270): the image is read and checked; poisoned data, or an address outside DDR and HBM, fail it. -/
def execPatImageCheck (s : State) : Host.Outcome State Fault Refusal :=
  s.run fun d => d.ifDue .patCheck fun d =>
    let a := d.inF Reg.PRS_PAT_ADDR
    let n := d.inF Reg.PRS_PAT_LENGTH
    let img := d.bytes a n
    if a % 64 == 0 && d.inDram a n && !d.anyPoison a n && imageOk img then
      ({ d with net := { d.net with patShadow := some img } }.put Reg.PRS_STATUS_PAT_PENDING 1).askEpoch .patActivate
    else (d.raise Reg.PRS_STATUS_PAT_REFUSED).checkRefused (d.asker .patCheck) 0x300038

/-- PAT_IMAGE_ACTIVATE (R269). -/
def execPatImageActivate (s : State) : Host.Outcome State Fault Refusal :=
  s.run fun d => d.ifDue .patActivate fun d =>
    match d.net.patShadow with
    | some img => { d with net := { d.net with pats := img, patShadow := none } }.put Reg.PRS_STATUS_PAT_PENDING 0
    | none => d

/-- SCAN_MAX as it acts. -/
def Dev.scanMax (d : Dev) : Nat := limit 1 14 (d.inF Reg.PRS_CFG_SCAN_MAX)

/-- The bytes of n from a before the first poisoned line. -/
def Dev.cleanBytes (d : Dev) (a n : Nat) : Nat :=
  match (linesOf a n).find? (fun l => Tab.get false d.mem.poisoned l) with
  | some l => 32 * l - a
  | none => n

/-- The headroom that a pattern engine writes for a handoff: bytes 16 to 127 (Table 10.9). -/
def Dev.headroom (d : Dev) (h : Handoff) : List Byte × Bool :=
  match h.scan with
  | none => (h.meta16 ++ List.replicate 96 0, false)
  | some s =>
    let a := packetBase + h.run.cell * 64 + 128 + h.payload
    let n := d.cleanBytes a (h.run.len - 4 - h.payload)
    let m := scanSet d.net.pats s (d.bytes a n)
    (h.meta16 ++ List.replicate 32 0 ++ natLe 1 (min 255 m.length) ++ natLe 1 d.scanMax ++ natLe 2 n ++
      fitBytes 60 ((matchWords m d.scanMax).flatMap (natLe 4)), true)

/-- HANDOFF_POST (R267, R268): the headroom is written and the message posted. A run that was freed has no handoff any more. -/
def Dev.postHandoff (d : Dev) (h : Handoff) : Dev :=
  let d := { d with net := { d.net with handoffs := d.net.handoffs.erase h } }
  let (b, scanned) := d.headroom h
  let d := if scanned then d.prsCount 13 else d
  (d.memPut (packetBase + h.run.cell * 64 + 16) b).unitPost (shoalEnd h.run.shoal 2) h.channel [h.run.handle, h.word]

/-- HANDOFF_POST. -/
def execHandoffPost (shoal : BitVec 4) (s : State) : Host.Outcome State Fault Refusal :=
  s.run fun d =>
    match d.net.handoffs.find? (fun h => h.run.shoal == shoal.toNat) with
    | some h => d.postHandoff h
    | none => d

/-! Buckets (R272, R274) -/

/-- The exception and mirror buckets at a slot boundary. -/
def Dev.prsSlot (d : Dev) : Dev :=
  let exc (t : Tab Nat) (r : Nat) : Tab Nat :=
    Tab.upd 0 t r (fun v => min (v + d.inF (Reg.PRS_REASON_RATE r)) (max v (256 * d.inF (Reg.PRS_REASON_BURST r))))
  let mir (t : Tab Nat) (m : Nat) : Tab Nat :=
    Tab.upd 0 t m (fun v => min (v + 64 * d.inF (Reg.PRS_MIRROR_RATE m)) (1024 * d.inF (Reg.PRS_MIRROR_RATE m)))
  let on := (List.range 64).filter (fun m => d.on (Reg.PRS_MIRROR_ENABLE m))
  { d with net := { d.net with
      excTokens := (List.range 8).foldl exc d.net.excTokens
      mirrorTokens := on.foldl mir d.net.mirrorTokens } }

/-- At an epoch boundary a session that is newly enabled starts with a full bucket and a count of 0; buckets are held to BURST. -/
def Dev.prsEpoch (d : Dev) : Dev :=
  let fresh := (List.range 64).filter (fun m => d.on (Reg.PRS_MIRROR_ENABLE m) && !Tab.get false d.net.mirrorOn m)
  { d with net := { d.net with
      excTokens := Tab.mapAll 0 d.net.excTokens (fun r v => min v (256 * d.inF (Reg.PRS_REASON_BURST r)))
      mirrorTokens := fresh.foldl (fun t m => Tab.set 0 t m (1024 * d.inF (Reg.PRS_MIRROR_RATE m))) d.net.mirrorTokens
      mirrorCount := fresh.foldl (fun t m => Tab.set 0 t m 0) d.net.mirrorCount
      mirrorOn := (List.range 64).foldl (fun t m => Tab.set false t m (d.on (Reg.PRS_MIRROR_ENABLE m))) d.net.mirrorOn } }

/-- At release every exception bucket and every mirror session's bucket is full (R503). -/
def Dev.prsRelease (d : Dev) : Dev :=
  { d with net := { d.net with
      excTokens := (List.range 8).foldl (fun t r => Tab.set 0 t r (256 * d.inF (Reg.PRS_REASON_BURST r))) d.net.excTokens
      mirrorTokens := (List.range 64).foldl (fun t m => Tab.set 0 t m (1024 * d.inF (Reg.PRS_MIRROR_RATE m))) d.net.mirrorTokens } }

end Sys2Proof.Machine
end

