-- ==== Sys2Proof/Machine/Threads.lean ====
section
/-! DEFINITION. Threads as data: their registers, their outstanding accesses, and what a host read brings back for them
(chapters 06 and 07). -/

namespace Sys2Proof.Machine

open Sys2Proof

/-- A thread, by global number. -/
def Dev.thr (d : Dev) (t : Nat) : Thread := Tab.get {} d.shl.threads t
/-- Put a thread. -/
def Dev.setThr (d : Dev) (t : Nat) (x : Thread) : Dev := { d with shl := { d.shl with threads := Tab.set {} d.shl.threads t x } }
/-- Change a thread. -/
def Dev.updThr (d : Dev) (t : Nat) (f : Thread → Thread) : Dev := d.setThr t (f (d.thr t))

/-- An outstanding access of a thread has its answer: data, or the fault it returns with (R197). -/
def Dev.threadBack (d : Dev) (t id : Nat) (fault : Option (Nat × Nat)) (data : Nat) : Dev :=
  d.updThr t fun x => { x with loads := x.loads.map (fun (a : MemAcc) => if a.id == id then { a with fault := fault, back := some data } else a) }

/-- A host read of a shoal's data mover has its answer: bytes at an offset of its range, or the status it failed with (R231). -/
def Dev.moverBack (d : Dev) (shoal off : Nat) (data : Except Nat (List Byte)) : Dev :=
  let step (j : EngJob) : EngJob :=
    let j := { j with reads := j.reads - 1 }
    match data with
    | .ok l => { j with data := putData j.data off l }
    | .error st => { j with bad := match j.bad with
        | some (s, o) => if o ≤ off then some (s, o) else some (st, off)
        | none => some (st, off) }
  let go (l : List EngJob) : List EngJob := match l.span (fun j => j.shoal != shoal) with
    | (a, j :: r) => a ++ step j :: r
    | (a, []) => a
  { d with shl := { d.shl with movers := go d.shl.movers } }

end Sys2Proof.Machine
end

