-- ==== Sys2Proof/Machine/Shoal.lean ====
section
/-! DEFINITION. Shoals: release and resets, thread control and debugging, channel configuration, booked threads and claims,
draining, and the deadlock detector (chapter 06). -/

namespace Sys2Proof.Machine

open Sys2Proof

/-! Numbers (R22) -/

/-- The shoal of a thread, its local number, the shoal and the local number of a core. -/
def shoalOf (t : Nat) : Nat := t / 64
def localOf (t : Nat) : Nat := t % 64
def coreOf (t : Nat) : Nat := t / 8

/-- The booked index of a thread, if it is booked (R148). -/
def Dev.bookedIndex (d : Dev) (t : Nat) : Option Nat :=
  let i := localOf t / 8 + localOf t % 8 * 8
  if i < d.bookedThreads (shoalOf t) then some i else none

/-- Whether a thread is booked on a shoal that is not drained, so that no reset or halt may take it (R168). -/
def Dev.protectedThread (d : Dev) (t : Nat) : Bool :=
  (d.bookedIndex t).isSome && !d.bit (Reg.SHL_STATUS_DRAINED (shoalOf t))

/-- Whether a core holds booked threads of a shoal that is not drained. -/
def Dev.protectedCore (d : Dev) (core : Nat) : Bool := (List.range 8).any fun k => d.protectedThread (core * 8 + k)

/-- The control offset of a register of a shoal. -/
def shlOff (s r : Nat) : Nat := 0x100000 + s * 0x10000 + r

/-- Something waits for the boundary that ends the tick. -/
def Dev.ask (d : Dev) (a : Ask) : Dev := { d with shl := { d.shl with asks := d.shl.asks ++ [a] } }

/-- A request that a booked thread forbids: discarded, logged and marked (R168). -/
def Dev.shoalRefused (d : Dev) (ag : Agent) (s off : Nat) (mark : Fld) : Dev := (d.raise mark).discarded ag (shlOff s off)

/-! Requests (R165 to R169) -/

/-- SHOAL_RESET (R167, R168). -/
def Dev.askShoalReset (d : Dev) (ag : Agent) (s : Nat) : Dev :=
  d.byRight ag (shlOff s 8) fun d =>
    if d.bit (Reg.SHL_STATUS_DRAINED s) then d.ask (.shoalReset s)
    else d.shoalRefused ag s 8 (Reg.SHL_FAULT_RESET_REFUSED s)

/-- SHOAL_RESET. -/
def execShoalReset (ag : Agent) (shoal : BitVec 4) (s : State) : Host.Outcome State Fault Refusal :=
  s.run fun d => d.askShoalReset ag shoal.toNat

/-- The offset of a core's second register. -/
def coreOff (core : Nat) : Nat := 0x408 + 0x20 * (core % 8)

/-- CORE_RESET written 1 or 0 (R167, R168). -/
def Dev.askCore (d : Dev) (ag : Agent) (core : Nat) (on : Bool) : Dev :=
  d.byRight ag (shlOff (core / 8) (coreOff core)) fun d =>
    if on then
      if d.protectedCore core then d.shoalRefused ag (core / 8) (coreOff core) (Reg.SHL_FAULT_RESET_REFUSED (core / 8))
      else (d.store (Reg.SHL_CORE_CORE_RESET (core / 8) (core % 8)) 1).ask (.coreReset core)
    else
      let was := d.bit (Reg.SHL_CORE_CORE_RESET (core / 8) (core % 8))
      let d := d.store (Reg.SHL_CORE_CORE_RESET (core / 8) (core % 8)) 0
      if was then d.ask (.coreRelease core) else d

/-- CORE_RESET. -/
def execCoreReset (ag : Agent) (core : BitVec 7) (s : State) : Host.Outcome State Fault Refusal :=
  s.run fun d => d.askCore ag core.toNat true

/-- CORE_RESET_RELEASE. -/
def execCoreResetRelease (ag : Agent) (core : BitVec 7) (s : State) : Host.Outcome State Fault Refusal :=
  s.run fun d => d.askCore ag core.toNat false

/-- The offset of a thread's first register. -/
def threadOff (t : Nat) : Nat := 0x800 + 0x20 * localOf t

/-- A control bit of a thread: booked says that a booked thread of a shoal that is not drained refuses it with the mark. -/
def Dev.askThread (d : Dev) (ag : Agent) (t : Nat) (mark : Option Fld) (a : Ask) : Dev :=
  d.byRight ag (shlOff (shoalOf t) (threadOff t)) fun d =>
    match mark with
    | some m => if d.protectedThread t then d.shoalRefused ag (shoalOf t) (threadOff t) m else d.ask a
    | none => d.ask a

/-- THREAD_RESET (R166, R168). -/
def execThreadReset (ag : Agent) (thread : BitVec 10) (s : State) : Host.Outcome State Fault Refusal :=
  s.run fun d => d.askThread ag thread.toNat (some (Reg.SHL_FAULT_RESET_REFUSED (shoalOf thread.toNat))) (.reset thread.toNat)

/-- THREAD_START (R165). -/
def execThreadStart (ag : Agent) (thread : BitVec 10) (s : State) : Host.Outcome State Fault Refusal :=
  s.run fun d => d.askThread ag thread.toNat none (.start thread.toNat)

/-- THREAD_HALT (R169). -/
def execThreadHalt (ag : Agent) (thread : BitVec 10) (s : State) : Host.Outcome State Fault Refusal :=
  s.run fun d => d.askThread ag thread.toNat (some (Reg.SHL_FAULT_HALT_REFUSED (shoalOf thread.toNat))) (.halt thread.toNat)

/-- THREAD_RESUME (R169). -/
def execThreadResume (ag : Agent) (thread : BitVec 10) (s : State) : Host.Outcome State Fault Refusal :=
  s.run fun d => d.askThread ag thread.toNat none (.resume thread.toNat)

/-- THREAD_STEP (R169). -/
def execThreadStep (ag : Agent) (thread : BitVec 10) (s : State) : Host.Outcome State Fault Refusal :=
  s.run fun d => d.askThread ag thread.toNat (some (Reg.SHL_FAULT_HALT_REFUSED (shoalOf thread.toNat))) (.step thread.toNat)

/-! What a boundary does -/

/-- A thread reset (R166): everything of it returns to reset values, but the count of its accesses, whose late answers are
discarded, and its OWED_TICKS. -/
def Dev.resetThread (d : Dev) (t : Nat) : Dev := d.updThr t fun x => { nextLoad := x.nextLoad, owed := x.owed, credit := x.credit }

/-- A thread enters RUN at its core's vector (R165, R172). From STOPPED its counts, staging and windows stay (DEDUCED: only a
reset ends them). -/
def Dev.startThread (d : Dev) (t : Nat) : Dev :=
  d.updThr t fun x =>
    let pc := d.inF (Reg.SHL_CORE_VECTOR (shoalOf t) (localOf t / 8)) * 4
    if x.st == 0 then { nextLoad := x.nextLoad, owed := x.owed, credit := x.credit, st := 1, pc := pc }
    else { nextLoad := x.nextLoad, owed := x.owed, credit := x.credit, st := 1, pc := pc, instret := x.instret, tokenNext := x.tokenNext,
           staged := x.staged, bound := x.bound, windows := x.windows }

/-- Whether a shoal's threads may start: it is released, and the thread's core is not held in reset. -/
def Dev.coreFree (d : Dev) (t : Nat) : Bool :=
  d.bit (Reg.SHL_STATUS_RELEASED (shoalOf t)) && !d.bit (Reg.SHL_CORE_CORE_RESET (shoalOf t) (localOf t / 8))

/-- The threads of a core that its START_MASK names enter RUN. -/
def Dev.startCore (d : Dev) (core : Nat) : Dev :=
  d.each (List.range 8) fun d k =>
    if (d.inF (Reg.SHL_CORE_START_MASK (core / 8) (core % 8))).testBit k && d.coreFree (core * 8 + k) then d.startThread (core * 8 + k)
    else d

/-- A core's caches are invalidated: the data cache, and with all the instruction cache. -/
def Dev.dropDcache (d : Dev) (core : Nat) : Dev :=
  { d with shl := { d.shl with dcache := d.shl.dcache.filter (fun p => p.1 / 2 ^ 42 != core) } }
/-- The instruction cache of a core is invalidated. -/
def Dev.dropIcache (d : Dev) (core : Nat) : Dev :=
  { d with shl := { d.shl with icache := d.shl.icache.filter (fun p => p.1 / 2 ^ 42 != core) } }

/-- The addresses of a core's registers. -/
def coreAddr (core : Nat) (a : Nat) : Bool :=
  a == shlOff (core / 8) (0x400 + 0x20 * (core % 8)) || a == shlOff (core / 8) (coreOff core)

/-- A core is reset (R167): its threads, its caches; its RESET-class fields are taken. -/
def Dev.resetCore (d : Dev) (core : Nat) : Dev :=
  (((d.each (List.range 8) fun d k => d.resetThread (core * 8 + k)).dropDcache core).dropIcache core).commitReset (coreAddr core)

/-- The messages that a channel holds are discarded and counted (R159, R167). -/
def Dev.dropMessages (d : Dev) (ch : Nat) : Dev :=
  let n := (d.chan ch).msgs.length
  if n == 0 then d
  else (d.setChan ch { d.chan ch with msgs := [] }).bump (Reg.SHL_CH_DISCARDED (ch / 512) (ch % 512)) n

/-- A shoal is reset and held (R167): configurations and SRAM stay. -/
def Dev.resetShoal (d : Dev) (s : Nat) : Dev :=
  let d := d.each (List.range 8) fun d c => d.resetCore (s * 8 + c)
  let d := d.each ((Tab.keys d.chans).filter (fun ch => ch / 512 == s)) fun d ch => d.dropMessages ch
  let d := (d.put (Reg.SHL_STATUS_RELEASED s) 0).put (Reg.SHL_STATUS_IN_RESET s) 1
  let run := d.rd Reg.DEV_STATUS_SHOAL_RUN
  d.put Reg.DEV_STATUS_SHOAL_RUN (if run.testBit s then run - 2 ^ s else run)

/-- A shoal is released (R165): the START_MASK threads enter RUN at their vectors. -/
def Dev.releaseShoal (d : Dev) (s : Nat) : Dev :=
  let d := d.commitReset (fun a => (List.range 8).any fun c => coreAddr (s * 8 + c) a)
  let d := (d.put (Reg.SHL_STATUS_RELEASED s) 1).put (Reg.SHL_STATUS_IN_RESET s) 0
  let d := d.put Reg.DEV_STATUS_SHOAL_RUN (d.rd Reg.DEV_STATUS_SHOAL_RUN ||| 2 ^ s)
  let pend := d.rd Reg.HDL_SHOALS_PENDING
  let d := d.put Reg.HDL_SHOALS_PENDING (if pend.testBit s then pend - 2 ^ s else pend)
  let d := { d with shl := { d.shl with released := Tab.set 0 d.shl.released s (d.clk.tick + 1) } }
  d.each (List.range 8) fun d c => d.startCore (s * 8 + c)

/-- HDL_SHOAL.RELEASE (R446): discarded if Breakwater had not been released at the start of the tick, or the shoal is not held in
reset. -/
def Dev.shoalReleaseWrite (d : Dev) (ag : Agent) (s : Nat) : Dev :=
  if ag != .headland then d.discarded ag 0xA00010
  else if d.released && d.bit (Reg.SHL_STATUS_IN_RESET s) then d.ask (.release s) else d

/-- SHOAL_RELEASE. -/
def execShoalRelease (ag : Agent) (shoal : BitVec 4) (s : State) : Host.Outcome State Fault Refusal :=
  s.run fun d => d.shoalReleaseWrite ag shoal.toNat

/-- HALT at its boundary (R169, R161). -/
def Dev.haltThread (d : Dev) (t : Nat) : Dev :=
  d.updThr t fun x => if x.st == 1 then { x with st := 2, waiting := false, waits := [], overrun := false, breaking := false } else x

/-! Debug access (Table 6.11) -/

/-- Predicates as p7 to p0 (R172). -/
def Thread.predByte (x : Thread) : Nat := x.preds / 2 * 2 % 256 + 1

/-- What a debug item of a halted thread reads as. -/
def Dev.debugItem (d : Dev) (t item : Nat) : Nat :=
  let x := d.thr t
  if x.st != 2 then 0
  else if item < 32 then (Tab.get 0 x.regs item).toNat
  else if item == 0x20 then x.predByte
  else if item == 0x21 then x.pc
  else if 0x28 ≤ item && item < 0x30 then x.staged.getD (item - 0x28) 0
  else if item == 0x30 then x.staged.length + x.bound.getD 0 * 16 + (if x.bound.isSome then 2 ^ 17 else 0)
  else 0

/-- A write to a debug item of a halted thread. -/
def Thread.debugSet (x : Thread) (item v : Nat) : Thread :=
  if x.st != 2 then x
  else if 0 < item && item < 32 then { x with regs := Tab.set 0 x.regs item (BitVec.ofNat 64 v) }
  else if item == 0x20 then { x with preds := v % 256 / 2 * 2 }
  else if item == 0x21 then { x with pc := v % 2 ^ 48 / 4 * 4 }
  else x

/-- DEBUG_DATA_WRITE (R169). -/
def Dev.debugWrite (d : Dev) (ag : Agent) (s : Nat) (half : Fin 3) (v : Nat) : Dev :=
  d.byRight ag (shlOff s 0x70) fun d =>
    let t := s * 64 + d.inF (Reg.SHL_DBG_SELECT_THREAD s)
    let item := d.inF (Reg.SHL_DBG_SELECT_ITEM s)
    d.updThr t fun x => x.debugSet item (mergeHalf (d.debugItem t item) half.val v)

/-- DEBUG_DATA_WRITE. -/
def execDebugDataWrite (ag : Agent) (shoal : BitVec 4) (half : Fin 3) (value : BitVec 64) (s : State) :
    Host.Outcome State Fault Refusal :=
  s.run fun d => d.debugWrite ag shoal.toNat half value.toNat

/-! Channel configuration (R154, R159) -/

/-- The offset of a channel's first register. -/
def chanCfgOff (ch : Nat) : Nat := 0x2000 + 0x10 * (ch % 512)

/-- CHANNEL_CONFIG (R159): a write to a claim channel is discarded; endpoints are stored only while ENABLE reads 0; a write that
changes an endpoint of an enabled channel, or names an invalid one, is discarded in full and logged. -/
def Dev.configChannel (d : Dev) (ag : Agent) (ch : Nat) (half : Fin 3) (v : Nat) : Dev :=
  let s := ch / 512
  let l := ch % 512
  d.byRight ag (shlOff s (chanCfgOff ch)) fun d =>
    if (d.claimIndex ch).isSome || half.val == 1 then d
    else
      let on := v.testBit 31
      let prod := bits v 23 12
      let cons := bits v 11 0
      let same := prod == d.rd (Reg.SHL_CH_PRODUCER s l) && cons == d.rd (Reg.SHL_CH_CONSUMER s l)
      if !same && (d.bit (Reg.SHL_CH_ENABLE s l) || !validEnd prod || !isThreadEnd cons) then d.discarded ag (shlOff s (chanCfgOff ch))
      else
        let was := d.bit (Reg.SHL_CH_ENABLE s l)
        let d := d.store (Reg.SHL_CH_ENABLE s l) (if on then 1 else 0)
        if was then (if on then d else d.ask (.chanOff ch))
        else (d.store (Reg.SHL_CH_PRODUCER s l) prod).store (Reg.SHL_CH_CONSUMER s l) cons

/-- CHANNEL_CONFIG. -/
def execChannelConfig (ag : Agent) (channel : BitVec 13) (half : Fin 3) (value : BitVec 64) (s : State) :
    Host.Outcome State Fault Refusal :=
  s.run fun d => d.configChannel ag channel.toNat half value.toNat

/-! Booked threads and claims (R148 to R153) -/

/-- The shares of a hold (R151): the booked threads' thread-ticks of this slot are given in index order, up to 31 each; given says
how many each index has already. The shares as index and thread-ticks, and what each index then has. -/
def shares (n : Nat) : Nat → Nat → Tab Nat → List (Nat × Nat) × Tab Nat
  | 0, _, given => ([], given)
  | fuel + 1, amt, given =>
    let i := n - (fuel + 1)
    let room := 31 - Tab.get 0 given i
    let k := min room amt
    if amt == 0 then ([], given)
    else if k == 0 then shares n fuel amt given
    else
      let (l, g) := shares n fuel (amt - k) (Tab.upd 0 given i (· + k))
      ((i, k) :: l, g)

/-- The claim message of a share (Table 6.3). -/
def claimWords (e : Entry) (stage share parts part slotEnd : Nat) : List Nat :=
  [e.ix * 2 ^ 48 + share % 256 * 2 ^ 40 + parts % 128 * 2 ^ 33 + part % 128 * 2 ^ 26 + e.kind % 16 * 2 ^ 22 + stage % 16 * 2 ^ 18 + e.tid,
   slotEnd % 2 ^ 32 * 2 ^ 32 + e.promise % 2 ^ 32]

/-- Deadline order of entries (R108). -/
def entryBefore (a b : Entry) : Bool :=
  a.promise < b.promise || (a.promise == b.promise && (a.admitted < b.admitted || (a.admitted == b.admitted &&
    (a.src < b.src || (a.src == b.src && a.tag ≤ b.tag)))))

/-- The dispatcher hands out a shoal's booked work of the slot (R151). -/
def Dev.dispatchShoal (d : Dev) (s : Nat) : Dev :=
  let n := d.bookedThreads s
  let slotEnd := d.clk.tide / slotNs * slotNs + slotNs
  let es := sortIn entryBefore (d.adm.entries.filter (fun e => e.holds.any (fun h => h.res == ⟨8, s, false⟩ && h.slot == d.clk.slotSeq)))
  let hs : List (Entry × Hold) := es.flatMap fun e =>
    (e.holds.filter (fun h => h.res == ⟨8, s, false⟩ && h.slot == d.clk.slotSeq)).map fun h => (e, h)
  (hs.foldl (fun (p : Dev × Tab Nat) (x : Entry × Hold) =>
    let (l, g) := shares n n x.2.amt p.2
    let d := p.1.each l.zipIdx fun d q =>
      let t := bookedThread s q.1.1
      let d := d.updThr t fun y => { y with credit := y.credit + q.1.2 }
      d.unitPost (shoalEnd s 1) (s * 512 + d.claimBase s + q.1.1) (claimWords x.1 x.2.stage q.1.2 l.length q.2 slotEnd)
    (d, g)) (d, [])).1

/-- The claim dispatch of a slot on every shoal. -/
def Dev.dispatchClaims (d : Dev) : Dev := d.each (List.range 16) Dev.dispatchShoal

/-- OWED_TICKS falls by one at a tick boundary, and takes what the tick that ends credited (R150). -/
def Dev.payOwed (d : Dev) : Dev :=
  { d with shl := { d.shl with threads := Tab.mapAll {} d.shl.threads fun _ x =>
      { x with owed := min 255 (x.owed - 1 + x.credit), credit := 0 } } }

/-- The effective priority of a thread (R150). -/
def Dev.effPriority (d : Dev) (t : Nat) : Nat :=
  if (d.bookedIndex t).isSome && (d.thr t).owed != 0 then 3 else min 2 (d.inF (Reg.SHL_THR_PRIORITY (shoalOf t) (localOf t)))

/-- Whether a draining shoal is drained (R153): no hold on it remains, and no booked thread is owed a tick. -/
def Dev.shoalIdle (d : Dev) (s : Nat) : Bool :=
  !d.adm.entries.any (fun e => e.holds.any (fun h => h.res == ⟨8, s, false⟩)) &&
  (List.range (d.bookedThreads s)).all (fun i => (d.thr (bookedThread s i)).owed == 0 && (d.thr (bookedThread s i)).credit == 0)

/-- SHOAL_DRAINED (R153). -/
def Dev.showDrained (d : Dev) (s : Nat) : Dev :=
  if d.bit (Reg.SHL_STATUS_DRAIN_ACTIVE s) && d.shoalIdle s then d.put (Reg.SHL_STATUS_DRAINED s) 1 else d

/-- SHOAL_DRAINED. -/
def execShoalDrained (shoal : BitVec 4) (s : State) : Host.Outcome State Fault Refusal := s.run fun d => d.showDrained shoal.toNat

/-- The epoch boundary on the shoals (R149, R153): DRAIN in force, and the booked threads in use: a rise at once, a fall when
the slots that were booked against the old capacity have passed. The call follows capacityEpoch. -/
def Dev.shoalsEpoch (d : Dev) : Dev :=
  d.each (List.range 16) fun d s =>
    let drain := d.on (Reg.SHL_CTRL_DRAIN s)
    let d := d.putBit (Reg.SHL_STATUS_DRAIN_ACTIVE s) drain
    let d := if drain then d else d.put (Reg.SHL_STATUS_DRAINED s) 0
    d.put (Reg.SHL_STATUS_BOOKED_IN_FORCE s) (min 64 ((d.cal.caps.map (·.threads)).foldl max 0))

/-! The deadlock detector (R160 to R164) -/

/-- The members of a group, global numbers: named in it and in no lower group. -/
def Dev.groupMembers (d : Dev) (s g : Nat) : List Nat :=
  ((List.range 64).filter (fun k => (d.inF (Reg.SHL_GROUP_MEMBERS s g)).testBit k &&
    !(List.range g).any (fun j => (d.inF (Reg.SHL_GROUP_MEMBERS s j)).testBit k))).map (s * 64 + ·)

/-- The peer of a wait-set entry (R162). -/
def Dev.peerEnd (d : Dev) (w : Nat × Bool) : Nat := if w.2 then d.chanConsumer w.1 else d.chanProducer w.1

/-- Whether a channel is in the state in which the recorded instruction fails: full for a send, empty for a receive. -/
def Dev.waitFails (d : Dev) (w : Nat × Bool) : Bool :=
  if w.2 then 16 ≤ (d.chan w.1).msgs.length else (d.chan w.1).msgs.isEmpty

/-- Whether a waiting thread is armed by itself: OVERFLOW, something outstanding, or DL_ARM (R162, R211). -/
def Dev.selfArmed (d : Dev) (t : Nat) : Bool :=
  let x := d.thr t
  x.overrun || !x.loads.isEmpty || Tab.get 0 d.engOut t != 0 || (x.dlArm.testBit 32 && 0 < shortDiff (x.dlArm % 2 ^ 32) d.short)

/-- Whether a member of a group, given as its members in RUN, is armed. -/
def Dev.armedIn (d : Dev) (run : List Nat) (t : Nat) : Bool :=
  d.selfArmed t || (d.thr t).waits.any (fun w => !(isThreadEnd (d.peerEnd w) && run.contains (d.peerEnd w)))

/-- Whether a group is stuck as things stand. -/
def Dev.groupStuck (d : Dev) (s g : Nat) : Bool :=
  let ms := d.groupMembers s g
  let run := ms.filter (fun t => (d.thr t).st == 1)
  !run.isEmpty && !ms.any (fun t => (d.thr t).st == 2) &&
  run.all (fun t => (d.thr t).waiting && !d.armedIn run t && (d.thr t).waits.all d.waitFails)

/-- The count of a group at the boundary that ends a tick; before is the device as the tick began, after what its first boundary did
(R160, R163). A group whose DEADLOCK bit was set in the tick counts from the next. -/
def Dev.countGroup (d before : Dev) (s g : Nat) : Dev :=
  let k := s * 8 + g
  let stuck := d.on (Reg.SHL_DL_CTRL_DL_ENABLE s) && before.on (Reg.SHL_DL_CTRL_DL_ENABLE s) &&
    !(d.rd (Reg.SHL_FAULT_DEADLOCK s)).testBit g && !(before.rd (Reg.SHL_FAULT_DEADLOCK s)).testBit g &&
    d.rd (Reg.SHL_GROUP_MEMBERS s g) == d.inF (Reg.SHL_GROUP_MEMBERS s g) && before.groupStuck s g && d.groupStuck s g &&
    !(d.groupMembers s g).any d.shl.stirred.contains
  { d with shl := { d.shl with counts := Tab.upd 0 d.shl.counts k (fun n => if stuck then n + 1 else 0) } }

/-- The counts of every group that has members. -/
def Dev.countGroups (d before : Dev) : Dev :=
  d.each (List.range 128) fun d k =>
    if d.inF (Reg.SHL_GROUP_MEMBERS (k / 8) (k % 8)) == 0 && Tab.get 0 d.shl.counts k == 0 then d else d.countGroup before (k / 8) (k % 8)

/-- WINDOW as it acts (Table 6.8). -/
def Dev.dlWindow (d : Dev) (s : Nat) : Nat := max 0x100 (d.inF (Reg.SHL_DL_CTRL_WINDOW s))

/-- Whether a group's count has reached WINDOW. -/
def Dev.dlDue (d : Dev) (s g : Nat) : Bool :=
  d.dlWindow s ≤ Tab.get 0 d.shl.counts (s * 8 + g) && !(d.rd (Reg.SHL_FAULT_DEADLOCK s)).testBit g

/-- Put one entry of the snapshot (Table 6.10). -/
def Dev.putSnap (d : Dev) (s k : Nat) (x : Option (Nat × Nat × Bool)) : Dev :=
  let w := Reg.SHL_DL_SNAP_VALID s k
  match x with
  | none => d.put w 0
  | some (t, ch, send) =>
    let peer := d.peerEnd (ch, send)
    let st := if isThreadEnd peer then (d.thr peer).st else 7
    let d := ((d.put w 1).put (Reg.SHL_DL_SNAP_THREAD s k) t).putBit (Reg.SHL_DL_SNAP_DIR s k) send
    let d := ((d.put (Reg.SHL_DL_SNAP_CHANNEL s k) ch).put (Reg.SHL_DL_SNAP_PEER s k) peer).put (Reg.SHL_DL_SNAP_PEER_STATE s k) st
    d.putBit (Reg.SHL_DL_SNAP_PEER_WAITING s k) (isThreadEnd peer && (d.thr peer).waiting)

/-- The snapshot of a group (R164). -/
def Dev.captureSnap (d : Dev) (s g : Nat) : Dev :=
  let l : List (Nat × Nat × Bool) := ((d.groupMembers s g).filter (fun t => (d.thr t).st == 1)).flatMap fun t =>
    (d.thr t).waits.map fun w => (t, w.1, w.2)
  let d := d.each (List.range 64) fun d k => d.putSnap s k l[k]?
  let d := ((d.put (Reg.SHL_DL_INFO_CAPTURED_AT s) d.short).put (Reg.SHL_DL_INFO_ENTRIES s) l.length).putBit
    (Reg.SHL_DL_INFO_TRUNCATED s) (64 < l.length)
  (d.put (Reg.SHL_DL_INFO_LATER_LOST s) 0).put (Reg.SHL_DL_INFO_GROUP s) g

/-- DEADLOCK is raised for a group whose count has reached WINDOW (R163). -/
def Dev.raiseDeadlock (d : Dev) (s g : Nat) : Dev :=
  if !d.dlDue s g then d
  else
    let d := if d.rd (Reg.SHL_FAULT_DEADLOCK s) == 0 then d.captureSnap s g else d.put (Reg.SHL_DL_INFO_LATER_LOST s) 1
    let d := (d.raise (Reg.SHL_FAULT_DEADLOCK s) (2 ^ g)).report
      { source := 0x020 + s, subsrc := s, kind := 0x19, sev := 2, detail := g }
    { d.mgmt .shl with shl := { d.shl with counts := Tab.set 0 d.shl.counts (s * 8 + g) 0 } }

/-- DEADLOCK. -/
def execDeadlock (shoal : BitVec 4) (group : BitVec 3) (s : State) : Host.Outcome State Fault Refusal :=
  s.run fun d => d.raiseDeadlock shoal.toNat group.toNat

end Sys2Proof.Machine
end

