-- ==== Sys2Proof/Machine/Host.lean ====
section
/-! DEFINITION. The host links (chapter 15): functions and their BARs, rings and doorbells, fetching, host reads and their ends,
what takes a function's rights away, FLR and link reset. -/

namespace Sys2Proof.Machine

open Sys2Proof

/-! Functions (R35, R386, R397) -/

/-- The place of a tenant's function on its link. -/
def fnOf (tid : Nat) : Nat := tid % 256
/-- Whether a tenant is a VF, and the PF that it belongs to (Table 1.15). -/
def isVf (tid : Nat) : Bool := 2 ≤ fnOf tid
def pfOf (tid : Nat) : Nat := tid / 256 * 256 + if fnOf tid == 0 || (2 ≤ fnOf tid && fnOf tid ≤ 128) then 0 else 1
/-- The number of a VF within its PF, from 1. -/
def vfNo (tid : Nat) : Nat := if fnOf tid ≤ 128 then fnOf tid - 1 else fnOf tid - 128
/-- The VFs of a PF. -/
def vfsOf (pf : Nat) : List Nat := (List.range 127).map (fun k => pf / 256 * 256 + (if fnOf pf == 0 then 2 else 129) + k)

/-- Offsets of configuration words (Tables 15.1 and 15.2; the places within a capability are PCI Express's, PRESUMED). -/
def cfgCommand : Nat := 0x04
def cfgVfControl : Nat := 0x170
def cfgNumVfs : Nat := 0x178
def cfgPower : Nat := 0x84

/-- Put a word of configuration space. -/
def Dev.setCfg (d : Dev) (tid off v : Nat) : Dev :=
  { d with host := { d.host with config := Tab.set (cfgReset off) d.host.config (tid * 4096 + off) (v % 65536) } }

/-- Whether a function answers: a PF always, a VF while its PF's VF Enable is set and NumVFs reaches it. -/
def Dev.fnLive (d : Dev) (tid : Nat) : Bool :=
  !isVf tid || ((d.cfgWord (pfOf tid) cfgVfControl).testBit 0 && vfNo tid ≤ d.cfgWord (pfOf tid) cfgNumVfs)

/-- Whether requests to a function's BARs reach it (R397, R399). -/
def Dev.barOn (d : Dev) (tid : Nat) : Bool :=
  d.linkUp (linkOf tid) && d.fnLive tid && d.on (Reg.HST_TEN_MSE tid) && !d.on (Reg.HST_TEN_D3 tid) && !d.inFlr tid

/-- A request to a function's BARs: one that cannot reach it completes with UR, and while its TDI is in RUN so does one without
the T bit or outside the stream, which is counted (R404). -/
def Dev.barReq (d : Dev) (tid : Nat) (tee : Bool) (lost : Dev → Dev) (f : Dev → Dev) : Dev :=
  if !d.barOn tid then lost d
  else if d.rd (Reg.HST_TEN_TDI_STATE tid) == 2 && !tee then (lost d).hostCount tid 9
  else f d

/-! Native rings: enabling and disabling (R389, R390) -/

/-- A tenant's quota of rings of a type. -/
def Dev.ringQuota (d : Dev) (tid qtype : Nat) : Nat :=
  match qtype with
  | 0 => min 64 (d.inF (Reg.HST_TEN_SQ_QUOTA tid))
  | 1 => min 64 (d.inF (Reg.HST_TEN_CQ_QUOTA tid))
  | _ => min 256 (d.inF (Reg.HST_TEN_RQ_QUOTA tid))

/-- The rings of a type that a tenant may have. -/
def ringsOf (qtype : Nat) : Nat := if qtype == 2 then 256 else 64

/-- The rings of a type of a tenant, and of a link, that its pool has given: those whose ENABLE reads 1. -/
def Dev.ringsOn (d : Dev) (tid qtype : Nat) : Nat :=
  ((List.range (ringsOf qtype)).filter (fun n => d.bit (Reg.TEN_Q_ENABLE tid (qKey qtype n)))).length
def Dev.linkRings (d : Dev) (l qtype : Nat) : Nat :=
  let keys := ((Tab.keys d.regs.cur).filter (fun k => k % 64 == 63 && d.regs.cur.any (fun p => p.1 == k && p.2 != 0))).map (· / 64)
  (keys.filter (fun a =>
    let low := a % 2 ^ 48
    0x10000000000 ≤ low && low < 0x10000000000 + 512 * 0x4000 && low % 0x4000 == 0x20 &&
      (low - 0x10000000000) / 0x4000 / 256 == l && a / 2 ^ 48 / 256 == qtype)).length

/-- The pool of a link (R389). -/
def ringPool (qtype : Nat) : Nat := if qtype == 2 then 8192 else 4096

/-- Key of a ring among what is kept by ring; NVMe queue q has ring number 512 + q. -/
def fetchKey (tid ring : Nat) : Nat := tid * 1024 + ring

/-- A ring begins: HEAD and TAIL 0, PHASE of the first pass. -/
def Dev.freshRing (d : Dev) (tid qtype n : Nat) : Dev :=
  let k := qKey qtype n
  let d := (d.put (Reg.TEN_Q_HEAD tid k) 0).put (Reg.TEN_Q_TAIL tid k) 0
  { d with host := { d.host with
      phase := if qtype == 1 then Tab.set true d.host.phase (tid * 1024 + k) true else d.host.phase
      fetch := if qtype == 0 then Tab.set 0 d.host.fetch (fetchKey tid n) 0 else d.host.fetch
      bellTimes := if qtype == 0 then Tab.set [] d.host.bellTimes (fetchKey tid n) [] else d.host.bellTimes
      posted := if qtype == 2 then Tab.set [] d.host.posted (rqKey tid n) [] else d.host.posted
      postNext := if qtype == 2 then Tab.set 0 d.host.postNext (rqKey tid n) 0 else d.host.postNext } }

/-- Enable a ring, or refuse it: ENABLE is in force from the next tick boundary (R10, R11). -/
def Dev.enableRing (d : Dev) (tid qtype n size : Nat) : Dev :=
  let k := qKey qtype n
  if d.bit (Reg.TEN_Q_ENABLE tid k) then d
  else if size < 6 || 16 < size || ringsOf qtype ≤ n || 3 ≤ qtype || d.ringQuota tid qtype ≤ d.ringsOn tid qtype ||
      ringPool qtype ≤ d.linkRings (linkOf tid) qtype then
    (d.put (Reg.TEN_Q_ENABLE tid k) 0).put (Reg.TEN_Q_ENABLE_REFUSED tid k) 1
  else ((d.put (Reg.TEN_Q_ENABLE_REFUSED tid k) 0).later (Reg.TEN_Q_ENABLE tid k) 1).freshRing tid qtype n

/-- Reads that the predicate names are absorbed when they return, or dropped where they still wait for a tag. -/
def Dev.absorbWhere (d : Dev) (p : HostRead → Bool) : Dev :=
  { d with host := { d.host with
      reads := d.host.reads.map (fun r => if p r then { r with absorbed := true } else r)
      readQ := d.host.readQ.filter (fun r => !p r) } }

/-- What a read fetches for a ring or NVMe queue of a tenant. -/
def HostRead.fetches (r : HostRead) (tid ring : Nat) : Bool :=
  r.tid == tid && (match r.use with
    | .descs n _ _ => n == ring
    | .entries q _ _ => 512 + q == ring
    | .data _ _ | .thread _ _ | .mover _ _ | .resp _ _ => false)

/-- Completions that wait at rings p names are discarded and counted; operations that wait there end. -/
def Dev.discardWaiting (d : Dev) (p : WaitingCompletion → Bool) (count : Bool) : Dev :=
  let gone := d.host.waiting.filter p
  let d := { d with host := { d.host with waiting := d.host.waiting.filter (fun w => !p w) } }
  d.each gone fun d w => match w.what with
    | .words _ _ => if count then d.lostCompletion w.tid else d
    | .op id => d.withOp id fun d o => if count then d.deliverWrite o else (d.account o d.clk.tide).dropOp id

/-- NVMe completions of a function that wait for room are discarded; operations that wait there end, and no completion is written. -/
def Dev.discardNvme (d : Dev) (tid : Nat) : Dev :=
  let gone := d.host.waitingNvme.filter (fun w => w.tid == tid)
  let d := { d with host := { d.host with waitingNvme := d.host.waitingNvme.filter (fun w => w.tid != tid) } }
  d.each (gone.filterMap (·.op)) fun d id => d.withOp id fun d o => (d.account o d.clk.tide).dropOp o.id

/-- Disable a ring (R390). -/
def Dev.disableRing (d : Dev) (tid qtype n : Nat) : Dev :=
  let k := qKey qtype n
  if !d.bit (Reg.TEN_Q_ENABLE tid k) then d
  else
    let d := d.putNow (Reg.TEN_Q_ENABLE tid k) 0
    match qtype with
    | 0 => d.absorbWhere (fun r => r.fetches tid n)
    | 1 => d.discardWaiting (fun w => w.tid == tid && w.ring == n) true
    | _ =>
      let d := { d with host := { d.host with posted := Tab.set [] d.host.posted (rqKey tid n) [] } }
      d.each (d.rxWaiting tid n) fun d o => (d.prsCount 11).dropRx o.id

/-- The fields VECTOR, BIND and SIZE_LOG2 of a write to the ring's second register. -/
def Dev.ringFields (d : Dev) (tid k vector bind size : Nat) : Dev :=
  ((d.store (Reg.TEN_Q_VECTOR tid k) vector).store (Reg.TEN_Q_BIND tid k) bind).store (Reg.TEN_Q_SIZE_LOG2 tid k) size

/-- A write with ENABLE = 1. -/
def Dev.ringEnable (d : Dev) (tid qtype n vector bind size : Nat) : Dev :=
  (d.ringFields tid (qKey qtype n) vector bind size).enableRing tid qtype n size

/-- RING_ENABLE (R390). -/
def execRingEnable (tid : BitVec 9) (qtype : BitVec 2) (qindex vector : BitVec 8) (bind : BitVec 6) (size : BitVec 5) (tee : Bool)
    (s : State) : Host.Outcome State Fault Refusal :=
  s.run fun d => d.barReq tid.toNat tee id fun d =>
    d.ringEnable tid.toNat qtype.toNat qindex.toNat vector.toNat bind.toNat size.toNat

/-- RING_DISABLE (R390). -/
def execRingDisable (tid : BitVec 9) (qtype : BitVec 2) (qindex : BitVec 8) (tee : Bool) (s : State) :
    Host.Outcome State Fault Refusal :=
  s.run fun d => d.barReq tid.toNat tee id fun d => d.disableRing tid.toNat qtype.toNat qindex.toNat

/-! Fetching (R391, R336) -/

/-- The first entry of a ring whose read is outstanding, in the order in which they were fetched. -/
def Dev.oldestFetch (d : Dev) (tid ring : Nat) : Option Nat :=
  ((d.host.reads ++ d.host.readQ).find? (fun r => !r.absorbed && r.fetches tid ring)).map fun r => match r.use with
    | .descs _ f _ | .entries _ f _ => f
    | .data _ _ | .thread _ _ | .mover _ _ | .resp _ _ => 0

/-- HEAD: the next entry whose read has not completed. -/
def Dev.headOf (d : Dev) (tid ring : Nat) : Nat := (d.oldestFetch tid ring).getD (Tab.get 0 d.host.fetch (fetchKey tid ring))

/-- Show HEAD of a ring or NVMe queue. -/
def Dev.showHead (d : Dev) (tid ring : Nat) : Dev :=
  if ring < 512 then d.put (Reg.TEN_Q_HEAD tid (qKey 0 ring)) (d.headOf tid ring)
  else d.setNvSq tid (ring - 512) { d.nvSq tid (ring - 512) with head := d.headOf tid ring }

/-- Read n entries of 64 bytes from entry f of a ring at base, split as R394 splits reads. -/
def Dev.readEntries (d : Dev) (tid ring base f n : Nat) : Dev :=
  let a := base + f * 64
  d.each (splitRead a (d.readSize tid) (n * 64 + 1) 0 (n * 64)) fun d p => d.issueRead
    { link := linkOf tid, tag := 0, tid := tid, addr := a + p.1, len := p.2, time := 0, booked := false,
      use := if ring < 512 then .descs ring (f + p.1 / 64) (p.2 / 64) else .entries (ring - 512) (f + p.1 / 64) (p.2 / 64) }

/-- Fetch up to 16 entries in a tick, as far as the tail. -/
def Dev.fetchFrom (d : Dev) (tid ring base size tail : Nat) : Dev :=
  let f := Tab.get 0 d.host.fetch (fetchKey tid ring)
  let took := Tab.get 0 d.host.took (fetchKey tid ring)
  let n := min ((tail + size - f) % size) (16 - took)
  let a := min n (size - f)
  let d := { d with host := { d.host with
      fetch := Tab.set 0 d.host.fetch (fetchKey tid ring) ((f + n) % size)
      took := Tab.set 0 d.host.took (fetchKey tid ring) (took + n) } }
  ((d.readEntries tid ring base f a).readEntries tid ring base 0 (n - a)).showHead tid ring

/-- Whether a submission ring may fetch, and has entries to fetch. -/
def Dev.ringFetches (d : Dev) (tid ring : Nat) : Bool :=
  d.queuesLive tid && d.ringOn tid (qKey 0 ring) && Tab.get 0 d.host.fetch (fetchKey tid ring) != d.rd (Reg.TEN_Q_TAIL tid (qKey 0 ring))

/-- Fetch descriptors of a submission ring. -/
def Dev.fetchRing (d : Dev) (tid ring : Nat) : Dev :=
  let k := qKey 0 ring
  if d.ringFetches tid ring then
    d.fetchFrom tid ring (d.inF (Reg.TEN_Q_QBASE tid k) * 4096) (d.ringSize tid k) (d.rd (Reg.TEN_Q_TAIL tid k))
  else d

/-- A doorbell is discarded (R391). -/
def Dev.badBell (d : Dev) (tid : Nat) : Dev := (d.raise (Reg.TEN_STATUS_DOORBELL_BAD tid)).hostCount tid 8

/-- Remember the value of a doorbell; it reads back the last value written. -/
def Dev.keepBell (d : Dev) (tid n v : Nat) : Dev := { d with host := { d.host with bells := Tab.set 0 d.host.bells (tid * 256 + n) v } }

/-- The entries up to a tail were exposed at this time (R125). -/
def Dev.exposed (d : Dev) (tid ring old v : Nat) : Dev :=
  if v == old then d
  else { d with host := { d.host with bellTimes := Tab.upd [] d.host.bellTimes (fetchKey tid ring) (· ++ [(v, d.clk.tide)]) } }

/-- A submission tail doorbell. -/
def Dev.sqBell (d : Dev) (tid ring v : Nat) : Dev :=
  let k := qKey 0 ring
  let d := d.keepBell tid ring v
  if !d.ringOn tid k || d.ringSize tid k ≤ v then d.badBell tid
  else ((d.exposed tid ring (d.rd (Reg.TEN_Q_TAIL tid k)) v).put (Reg.TEN_Q_TAIL tid k) v).fetchRing tid ring

/-- SQ_TAIL_DOORBELL (R391). -/
def execSqTailDoorbell (tid : BitVec 9) (ring : BitVec 6) (index : BitVec 16) (tee : Bool) (s : State) :
    Host.Outcome State Fault Refusal :=
  s.run fun d => d.barReq tid.toNat tee (fun d => d.hostCount tid.toNat 8) fun d => d.sqBell tid.toNat ring.toNat index.toNat

/-- DESCRIPTOR_FETCH (R391): a ring whose tail lies further ahead fetches on. -/
def execDescriptorFetch (tid : BitVec 9) (ring : BitVec 6) (s : State) : Host.Outcome State Fault Refusal :=
  s.run fun d => d.fetchRing tid.toNat ring.toNat

/-- A completion head doorbell. -/
def Dev.cqBell (d : Dev) (tid ring v : Nat) : Dev :=
  let k := qKey 1 ring
  let d := d.keepBell tid (64 + ring) v
  if !d.ringOn tid k || d.ringSize tid k ≤ v then d.badBell tid else d.put (Reg.TEN_Q_HEAD tid k) v

/-- CQ_HEAD_DOORBELL (R391). -/
def execCqHeadDoorbell (tid : BitVec 9) (ring : BitVec 6) (index : BitVec 16) (tee : Bool) (s : State) :
    Host.Outcome State Fault Refusal :=
  s.run fun d => d.barReq tid.toNat tee (fun d => d.hostCount tid.toNat 8) fun d => d.cqBell tid.toNat ring.toNat index.toNat

/-! Completions that waited (R391) -/

/-- The first completion that waits at a ring is written, if the ring has room. -/
def Dev.writeWaiting (d : Dev) (tid ring : Nat) : Dev :=
  match d.host.waiting.find? (fun w => w.tid == tid && w.ring == ring) with
  | none => d
  | some w =>
    if !d.ringLive tid ring || d.ringFull tid (qKey 1 ring) then d
    else
      let d := { d with host := { d.host with waiting := d.host.waiting.erase w } }
      match w.what with
      | .words ws i => d.writeRing tid ring ws i
      | .op id => d.withOp id fun d o => d.deliverWrite o

/-- The first entry that waits at an NVMe completion queue is posted, if the queue has room. -/
def Dev.writeWaitingNvme (d : Dev) (tid cq : Nat) : Dev :=
  match d.host.waitingNvme.find? (fun w => w.tid == tid && (d.nvSq tid w.sq).cq == cq) with
  | none => d
  | some w =>
    if !d.queuesLive tid || !d.nvmeRoom tid w.sq then d
    else
      let d := { d with host := { d.host with waitingNvme := d.host.waitingNvme.erase w } }
      match w.op with
      | none => d.writeNvme w
      | some id => d.withOp id fun d o => d.deliverWrite o

/-- COMPLETION_WRITE (R391): a completion that waits is written once its ring, or with nvme its NVMe queue, has room. -/
def execCompletionWrite (tid : BitVec 9) (ring : BitVec 7) (nvme : Bool) (s : State) : Host.Outcome State Fault Refusal :=
  s.run fun d => if nvme then d.writeWaitingNvme tid.toNat ring.toNat else d.writeWaiting tid.toNat ring.toNat

/-! Read completions (R394 to R396) -/

/-- An advanced error of a function: a bit of its Uncorrectable Error Status (PRESUMED PCI Express). -/
def Dev.raiseAer (d : Dev) (tid bit : Nat) : Dev :=
  let off := 0x104 + bit / 16 * 2
  d.setCfg tid off (d.cfgWord tid off ||| 2 ^ (bit % 16))

/-- An operation ends with HOST_ABORT. -/
def Dev.hostAbort (d : Dev) (id : Nat) : Dev := d.withOp id fun d o => (d.hostCount o.req.tid 4).endByAction id 0x21 0

/-- Entries that a failed read covered are not run (R395). -/
def Dev.loseEntries (d : Dev) (tid n : Nat) : Dev := (d.bump (Reg.TEN_STATUS_LOST_COMPLETIONS tid) n).hostCount tid 0 n

/-- A host read ends without data: HOST_ABORT, or POISON. What a thread's load reads of a request that ends so is not stated: a
free value. -/
def Dev.readFails (d : Dev) (r : HostRead) (poison : Bool) : Dev :=
  match r.use with
  | .data id _ => if poison then d.withOp id fun d _ => d.endWith id 0x61 0 else d.hostAbort id
  | .descs ring _ n => (d.loseEntries r.tid n).showHead r.tid ring
  | .entries q _ n => (d.loseEntries r.tid n).showHead r.tid (512 + q)
  | .thread t i =>
    let (v, d) := d.draw (2 ^ 64 - 1)
    d.threadBack t i (if poison then some (5, 1) else none) v
  | .mover s off => d.moverBack s off (.error (if poison then 0x61 else 0x21))
  | .resp c off => d.respArrive c off r.len none

/-- Reads that could not be issued fail at the end of their tick (R396). -/
def Dev.failDead (d : Dev) : Dev :=
  let dead := d.host.readQ.filter (·.absorbed)
  let d := { d with host := { d.host with readQ := d.host.readQ.filter (fun r => !r.absorbed) } }
  d.each dead fun d r => d.readFails r false

/-- Fetched entries that have arrived wait to be sampled: at the boundary that samples their read completion (R60, R391; DEDUCED). -/
def Dev.arrive (d : Dev) (tid ring first n : Nat) (nvme : Bool) (data : List Byte) : Dev :=
  let l := (List.range n).map fun i => Arrival.mk tid ring nvme (first + i) (fitBytes 64 ((data.drop (64 * i)).take 64))
  { d with host := { d.host with arrived := d.host.arrived ++ l } }

/-- A host read returns its data. -/
def Dev.readData (d : Dev) (r : HostRead) (data : List Byte) : Dev :=
  let l := fitBytes r.len data
  match r.use with
  | .data id off => d.withOp id fun d _ =>
    let d := d.updOp id (fun o => { o with data := putData o.data off l, reads := o.reads - 1 })
    (d.fetchCipher id).advance id
  | .descs ring f n => (d.arrive r.tid ring f n false l).showHead r.tid ring
  | .entries q f n => (d.arrive r.tid q f n true l).showHead r.tid (512 + q)
  | .thread t i => d.threadBack t i none (leNat l)
  | .mover s off => d.moverBack s off (.ok l)
  | .resp c off => d.respArrive c off r.len (some l)

/-- Take a read off the list of those outstanding: its tag is free. -/
def Dev.freeRead (d : Dev) (r : HostRead) : Dev :=
  { d with host := { d.host with reads := d.host.reads.filter (fun x => !(x.link == r.link && x.tag == r.tag)) } }.showTags r.link

/-- The outstanding read of a link with a tag. -/
def Dev.readByTag (d : Dev) (link tag : Nat) : Option HostRead := d.host.reads.find? (fun r => r.link == link && r.tag == tag)

/-- How a read completion ends: successful, UR, CA, or with poisoned data. A tag that is not outstanding makes it an Unexpected
Completion; a late read of a function that lost its rights is absorbed. -/
def Dev.readReturn (d : Dev) (link tag status : Nat) (data : List Byte) : Dev :=
  match d.readByTag link tag with
  | none => d.bump (Reg.HST_CNT_COUNT link 2)
  | some r =>
    let d := d.freeRead r
    if r.absorbed then d
    else if status == 0 then d.readData r data
    else d.readFails r (status == 3)

/-- HOST_READ_COMPLETION (R395): status 0 successful, 1 UR, 2 CA, 3 poisoned. -/
def execHostReadCompletion (link : BitVec 1) (tag : BitVec 14) (status : Fin 4) (data : List Byte) (s : State) :
    Host.Outcome State Fault Refusal :=
  s.run fun d => d.readReturn link.toNat tag.toNat status.val data

/-- The Completion Timeout of a function in ns, by the value in its Device Control 2 (PRESUMED PCI Express; of a range the lower
end). The default is 50 ms (R395). -/
def Dev.complTimeout (d : Dev) (tid : Nat) : Nat :=
  match d.cfgWord tid 0x68 % 16 with
  | 1 => 50000 | 2 => 1000000 | 5 => 16000000 | 6 => 65000000 | 9 => 260000000 | 10 => 1000000000
  | 13 => 4000000000 | 14 => 17000000000 | _ => 50000000

/-- Whether a read has passed its timeout. -/
def Dev.timedOut (d : Dev) (r : HostRead) : Bool := r.time + d.complTimeout r.tid ≤ d.clk.tide

/-- A read times out. -/
def Dev.timeOut (d : Dev) (r : HostRead) : Dev :=
  let d := ((d.freeRead r).hostCount r.tid 1).raiseAer r.tid 14
  if r.absorbed then d else d.readFails r false

/-- COMPLETION_TIMEOUT (R395); before the timeout the command changes nothing. -/
def execCompletionTimeout (link : BitVec 1) (tag : BitVec 14) (s : State) : Host.Outcome State Fault Refusal :=
  s.run fun d =>
    match d.readByTag link.toNat tag.toNat with
    | some r => if d.timedOut r then d.timeOut r else d
    | none => d

/-! Fetched entries become commands (R90, R391) -/

/-- A 32-bit word of an entry. -/
def entryWord (l : List Byte) (n : Nat) : Nat := leNat ((l.drop (4 * n)).take 4)

/-- The descriptor in 64 bytes (Table 3.7), with its KIND. -/
def descOf (l : List Byte) : Nat × Desc :=
  let w := entryWord l
  let w2 (n : Nat) : Nat := w n + w (n + 1) * 2 ^ 32
  (w 0 / 4096 % 16,
   { tag := BitVec.ofNat 16 (w 0 / 65536), cls := BitVec.ofNat 2 (w 0 / 1024)
     bad := (w 0).testBit 9 || w 1 / 64 != 0 || w 9 / 2 ^ 14 != 0 || w 13 / 2 ^ 22 != 0 || w 14 != 0 || w 15 != 0
     ordered := (w 1).testBit 0, mirror := (w 1).testBit 1, cipher := (w 1).testBit 2, notify := (w 1).testBit 3
     interrupt := (w 1).testBit 4, devMem := (w 1).testBit 5, length := BitVec.ofNat 32 (w 2), reqBound := BitVec.ofNat 32 (w 3)
     addr0 := BitVec.ofNat 64 (w2 4), addr1 := BitVec.ofNat 64 (w2 6), target := BitVec.ofNat 32 (w 8)
     keySlot := BitVec.ofNat 14 (w 9), addr2 := BitVec.ofNat 64 (w2 10), windowKey := BitVec.ofNat 32 (w 12)
     window := BitVec.ofNat 22 (w 13) })

/-- The command that a native descriptor is; none for a reserved KIND, NVMe opcode or cipher operation. -/
def nativeInstr (tid : BitVec 9) (ring : BitVec 6) (head : BitVec 16) (kind : Nat) (x : Desc) : Option Instr :=
  match kind with
  | 1 => some (.tx tid ring head x)
  | 2 => some (.rxPost tid ring head x)
  | 3 => some (.sww tid ring head x)
  | 4 => some (.swr tid ring head x)
  | 5 => match x.target.toNat / 2 ^ 24 with
    | 0 => some (.stFlush tid ring head x) | 1 => some (.stWrite tid ring head x) | 2 => some (.stRead tid ring head x)
    | 8 => some (.stWriteZeroes tid ring head x) | 9 => some (.stDatasetManagement tid ring head x)
    | _ => none
  | 6 => match x.target.toNat % 16 with
    | 0 => some (.cyEncrypt tid ring head x) | 1 => some (.cyDecrypt tid ring head x)
    | 2 => some (.cyMacGenerate tid ring head x) | 3 => some (.cyMacVerify tid ring head x)
    | _ => none
  | _ => none

/-- The submission queue head after an entry. -/
def Dev.headAfter (d : Dev) (tid ring index : Nat) : Nat := (index + 1) % d.ringSize tid (qKey 0 ring)

/-- A descriptor with no command is malformed: it is refused by admission (Table 3.8). The kind keeps the descriptor's KIND. -/
def Dev.sampleReserved (d : Dev) (tid ring head kind : Nat) (x : Desc) : Dev :=
  let k := if kind == 5 then 6 else if kind == 6 then 7 else 16 + kind
  d.submit k (x.target.toNat / 2 ^ 24) x.cls.toNat tid (0x010 + linkOf tid) (.ring ring head) { x with bad := true }

/-! Withdrawing a function's rights (R396, R397, R404) -/

/-- Whether an operation needs its function to issue requests: to fetch, to deliver, or to complete. -/
def Op.needsHost (o : Op) : Bool :=
  match o.req.org with
  | .ring _ _ | .nvme _ _ | .wire _ => true
  | .book _ _ _ => o.reads != 0 || o.plan.any (fun s => s.needs.any (fun x => x.res.kind == 1))
  | .sub _ _ _ => false

/-- The packets of an operation that have not been sent are not sent; those sent keep their messages. -/
def Dev.unsend (d : Dev) (o : Op) : Dev :=
  if o.req.kind == 3 || o.req.kind == 5 || (o.req.kind == 6 && o.req.code != 0) then
    d.updConn (d.opConn o) fun x => { x with msgs := x.msgs.map (fun (m : SwMsg) =>
      if m.op == o.id then { m with total := min m.total ((x.out.filter (fun y => y.msn == m.msn && y.op == some o.id)).length + m.answered) } else m) }
  else d

/-- An operation ends and no completion is written. -/
def Dev.vanish (d : Dev) (id : Nat) : Dev :=
  d.withOp id fun d o =>
    let o := { o with envFail := !o.slack }
    (((d.unsend o).absorbReads id).account o d.clk.tide).dropOp id

/-- A storage command that its backend holds is detached: it waits for the answer alone (R399, Table 13.5). One that has its answer goes. -/
def Dev.detach (d : Dev) (id : Nat) : Dev :=
  d.withOp id fun d o =>
    let o := { o with envFail := !o.slack }
    let d := ((d.unsend o).absorbReads id).account o d.clk.tide
    if o.handed.isSome && !o.waiting then d.dropOp id
    else d.updOp id (fun o => { o with detached := true, delivered := some d.clk.tide, waiting := true, plan := [], going := [] })

/-- Requests of a tenant that await decision end as soon as they are decided: how 0 Abort, 1 queue deletion, 2 no completion,
3 HOST_ABORT. -/
def Dev.killLater (d : Dev) (p : Req → Bool) (how : Nat) : Dev :=
  let l := ((d.adm.waiting ++ d.pair.decisions.map (·.req)).filter p).map (fun q => (q.id, how))
  { d with host := { d.host with kill := d.host.kill ++ l } }

/-- End an operation in one of these ways. -/
def Dev.killOp (d : Dev) (id how : Nat) : Dev :=
  match how with
  | 0 => d.endByAction id 0x20 7
  | 1 => d.endByAction id 0x20 8
  | 2 => d.vanish id
  | _ => d.hostAbort id

/-- Those whose decision has become visible end. -/
def Dev.killDecided (d : Dev) : Dev :=
  let l := d.host.kill
  let d := { d with host := { d.host with kill := l.filter (fun x => d.adm.waiting.any (fun q => q.id == x.1)) } }
  d.each l fun d x => d.killOp x.1 x.2

/-- The function's reads are absorbed when they return, and nothing waits any more to be sampled or written. -/
def Dev.stopFetches (d : Dev) (tid : Nat) (count : Bool) : Dev :=
  let n := (d.host.arrived.filter (fun a => a.tid == tid)).length
  let d := if count then d.loseEntries tid n else d
  let d := { d with host := { d.host with arrived := d.host.arrived.filter (fun a => a.tid != tid) } }
  let fed (r : HostRead) : Bool := match r.use with
    | .thread _ _ | .mover _ _ | .resp _ _ => true
    | .data _ _ | .descs _ _ _ | .entries _ _ _ => false
  let gone := (d.host.reads ++ d.host.readQ).filter (fun r => r.tid == tid && fed r && !r.absorbed)
  (d.each gone fun d r => d.readFails r false).absorbWhere (fun r => r.tid == tid)

/-- What R396 does to a function whose right to issue requests is gone. -/
def Dev.withdraw (d : Dev) (tid : Nat) : Dev :=
  let n := (d.host.waitingNvme.filter (fun w => w.tid == tid)).length
  let d := (d.discardWaiting (fun w => w.tid == tid) true).loseEntries tid n
  let d := (d.discardNvme tid).discardPlacings tid
  let hit := d.ops.filter (fun o => o.req.tid == tid && o.needsHost && !o.ended)
  let d := d.each hit fun d o => if o.held != 0 then d.dropRx o.id else (d.unsend o).hostAbort o.id
  let d := d.killLater (fun q => q.tid == tid && (match q.org with | .ring _ _ | .nvme _ _ => true | .book _ _ _ | .sub _ _ _ | .wire _ => false)) 3
  (d.stopFetches tid true).raise (Reg.TEN_STATUS_QUEUES_STALE tid)

/-- A TDI enters ERROR: its function acts as under R396, TDI_ERRORS counts, and the management interrupt is raised. -/
def Dev.tdiError (d : Dev) (tid : Nat) : Dev :=
  let d := (d.put (Reg.HST_TEN_TDI_STATE tid) 3).put (Reg.TEN_ID_TDI_STATE tid) 3
  ((d.hostCount tid 7).mgmt .tdi).withdraw tid

/-- A change to BARs or enables of a TDI that is locked or running is an error (R404). -/
def Dev.tdiChange (d : Dev) (tid : Nat) : Dev :=
  let s := d.rd (Reg.HST_TEN_TDI_STATE tid)
  if s == 1 || s == 2 then d.tdiError tid else d

/-- Set a TDI's state. -/
def Dev.setTdi (d : Dev) (tid s : Nat) : Dev := (d.put (Reg.HST_TEN_TDI_STATE tid) s).put (Reg.TEN_ID_TDI_STATE tid) s

/-- Set or clear a bit of the Command register. -/
def Dev.setCommand (d : Dev) (tid bit : Nat) (on : Bool) : Dev :=
  let w := d.cfgWord tid cfgCommand
  d.setCfg tid cfgCommand (if on then w ||| 2 ^ bit else w - (if w.testBit bit then 2 ^ bit else 0))

/-- Whether the links answer configuration requests: from stage SELECT on (R489). A start that stopped before it never does. -/
def Dev.answersCfg (d : Dev) : Bool := d.rd Reg.HDL_STATUS_STAGE != 1 && d.rd Reg.HDL_STATUS_STAGE != 2 && d.rd Reg.HDL_STATUS_STAGE != 0x0F

/-- Whether configuration writes reach a function. -/
def Dev.cfgOn (d : Dev) (tid : Nat) : Bool := d.linkUp (linkOf tid) && d.answersCfg && d.fnLive tid && !d.inFlr tid

/-- Bus Master Enable is cleared. -/
def Dev.clearBme (d : Dev) (tid : Nat) : Dev :=
  if !d.bit (Reg.HST_TEN_BME tid) then d
  else (((d.setCommand tid 2 false).putNow (Reg.HST_TEN_BME tid) 0).withdraw tid).tdiChange tid

/-- BUS_MASTER_ENABLE_CLEAR (R396). -/
def execBusMasterEnableClear (tid : BitVec 9) (s : State) : Host.Outcome State Fault Refusal :=
  s.run fun d => d.when (d.cfgOn tid.toNat) fun d => d.clearBme tid.toNat

/-- Bus Master Enable is set: in force from the boundary that ends the tick. -/
def Dev.setBme (d : Dev) (tid : Nat) : Dev :=
  if d.bit (Reg.HST_TEN_BME tid) then d else ((d.setCommand tid 2 true).later (Reg.HST_TEN_BME tid) 1).tdiChange tid

/-- BUS_MASTER_ENABLE_SET (R397): held MSI-X messages follow once the enable is in force. -/
def execBusMasterEnableSet (tid : BitVec 9) (s : State) : Host.Outcome State Fault Refusal :=
  s.run fun d => d.when (d.cfgOn tid.toNat) fun d => d.setBme tid.toNat

/-- The functions whose memory space a write to a PF changes: itself, or with vfs its VFs through VF MSE. -/
def mseTargets (tid : Nat) (vfs : Bool) : List Nat := if vfs then vfsOf tid else [tid]

/-- Clearing Memory Space Enable of a function fails the assumption of its operations (Table 3.3). -/
def Dev.clearMse (d : Dev) (tid : Nat) : Dev :=
  if !d.bit (Reg.HST_TEN_MSE tid) then d
  else
    let d := d.later (Reg.HST_TEN_MSE tid) 0
    (d.each (d.ops.filter (fun o => o.req.tid == tid && o.needsHost && !o.ended)) fun d o => d.failAssumption o.id).tdiChange tid

/-- Memory Space Enable is set. -/
def Dev.setMse (d : Dev) (tid : Nat) : Dev :=
  if d.bit (Reg.HST_TEN_MSE tid) then d else (d.later (Reg.HST_TEN_MSE tid) 1).tdiChange tid

/-- The register that holds the enable: Command of a PF, or VF MSE of its SR-IOV control. -/
def Dev.keepMse (d : Dev) (tid : Nat) (vfs on : Bool) : Dev :=
  if vfs then
    let w := d.cfgWord tid cfgVfControl
    d.setCfg tid cfgVfControl (if on then w ||| 8 else w - (if w.testBit 3 then 8 else 0))
  else d.setCommand tid 1 on

/-- MEMORY_SPACE_ENABLE_CLEAR (R397): of a PF, or with vfs of its VFs. -/
def execMemorySpaceEnableClear (tid : BitVec 9) (vfs : Bool) (s : State) : Host.Outcome State Fault Refusal :=
  s.run fun d => d.when (d.cfgOn tid.toNat && !isVf tid.toNat) fun d =>
    (d.keepMse tid.toNat vfs false).each (mseTargets tid.toNat vfs) Dev.clearMse

/-- MEMORY_SPACE_ENABLE_SET (R397). -/
def execMemorySpaceEnableSet (tid : BitVec 9) (vfs : Bool) (s : State) : Host.Outcome State Fault Refusal :=
  s.run fun d => d.when (d.cfgOn tid.toNat && !isVf tid.toNat) fun d =>
    (d.keepMse tid.toNat vfs true).each (mseTargets tid.toNat vfs) Dev.setMse

/-- Entry to D3hot acts as clearing both enables: nothing is issued from this tick on, and requests to the BARs end with UR from the
next. The Command register keeps them. -/
def Dev.enterD3 (d : Dev) (tid : Nat) : Dev :=
  if d.bit (Reg.HST_TEN_D3 tid) then d
  else
    let d := d.setCfg tid cfgPower (d.cfgWord tid cfgPower / 4 * 4 + 3)
    ((d.later (Reg.HST_TEN_D3 tid) 1).withdraw tid).tdiChange tid

/-- D3HOT_ENTRY (R397). -/
def execD3hotEntry (tid : BitVec 9) (s : State) : Host.Outcome State Fault Refusal :=
  s.run fun d => d.when (d.cfgOn tid.toNat) fun d => d.enterD3 tid.toNat

/-- Return to D0: in force, as an enable that is set, from the boundary that ends the tick. -/
def Dev.leaveD3 (d : Dev) (tid : Nat) : Dev :=
  if !d.bit (Reg.HST_TEN_D3 tid) then d
  else (d.setCfg tid cfgPower (d.cfgWord tid cfgPower / 4 * 4)).later (Reg.HST_TEN_D3 tid) 0

/-- D0_RETURN (R397): the enables are again as the Command register holds them. -/
def execD0Return (tid : BitVec 9) (s : State) : Host.Outcome State Fault Refusal :=
  s.run fun d => d.when (d.cfgOn tid.toNat) fun d => d.leaveD3 tid.toNat

/-- QUEUES_STALE_CLEAR (R396). -/
def execQueuesStaleClear (tid : BitVec 9) (tee : Bool) (s : State) : Host.Outcome State Fault Refusal :=
  s.run fun d => d.barReq tid.toNat tee id fun d => d.clearBits (Reg.TEN_STATUS_QUEUES_STALE tid.toNat) 1

end Sys2Proof.Machine
end

