-- ==== Sys2Proof/Machine/Storage.lean ====
section
/-! DEFINITION. The storage service (chapter 13): NVMe controllers, their queues and commands, backends, and the fate of commands. -/

namespace Sys2Proof.Machine

open Sys2Proof

/-- A counter of Table 13.10. -/
def Dev.stgCount (d : Dev) (n : Nat) : Dev := d.bump (Reg.STG_CNT_COUNT n)

/-- The controller of a function. -/
def Dev.ctl (d : Dev) (tid : Nat) : Ctrl := Tab.get {} d.host.ctrls tid
def Dev.updCtl (d : Dev) (tid : Nat) (f : Ctrl → Ctrl) : Dev := { d with host := { d.host with ctrls := Tab.upd {} d.host.ctrls tid f } }

/-- Whether a function's controller is enabled and ready. -/
def Dev.nvOn (d : Dev) (tid : Nat) : Bool := d.nvmeOn tid && d.bit (Reg.STG_FN_EN tid) && d.bit (Reg.STG_FN_RDY tid)

/-- Whether a submission queue exists on an enabled controller. -/
def Dev.nvLive (d : Dev) (tid q : Nat) : Bool := d.nvOn tid && (d.nvSq tid q).size != 0

/-- Free bytes: contents that the spec names and does not give. -/
def Dev.freeBytes (d : Dev) (n : Nat) : List Byte × Dev :=
  let (v, d) := d.draw (2 ^ (8 * n) - 1)
  (natLe n v, d)

/-! Queues and doorbells (R336) -/

/-- Whether an NVMe queue may fetch, and has entries to fetch. -/
def Dev.nvFetches (d : Dev) (tid q : Nat) : Bool :=
  let s := d.nvSq tid q
  d.queuesLive tid && d.nvLive tid q && (d.ctl tid).shst == 0 && s.deleting.isNone &&
    Tab.get 0 d.host.fetch (fetchKey tid (512 + q)) != s.tail

/-- Fetch entries of a submission queue. -/
def Dev.nvFetch (d : Dev) (tid q : Nat) : Dev :=
  let s := d.nvSq tid q
  if d.nvFetches tid q then d.fetchFrom tid (512 + q) s.base s.size s.tail else d

/-- A tail doorbell of a controller; one for a queue that does not exist, or beyond its size, is discarded. -/
def Dev.nvSqBell (d : Dev) (tid q v : Nat) : Dev :=
  let s := d.nvSq tid q
  if !d.nvLive tid q || s.size ≤ v || s.deleting.isSome then d.badBell tid
  else ((d.exposed tid (512 + q) s.tail v).setNvSq tid q { s with tail := v }).nvFetch tid q

/-- NVME_SQ_DOORBELL (R336). -/
def execNvmeSqDoorbell (tid : BitVec 9) (sq : BitVec 7) (index : BitVec 16) (tee : Bool) (s : State) :
    Host.Outcome State Fault Refusal :=
  s.run fun d => d.barReq tid.toNat tee (fun d => d.hostCount tid.toNat 8) fun d => d.nvSqBell tid.toNat sq.toNat index.toNat

/-- NVME_ENTRY_FETCH (R336). -/
def execNvmeEntryFetch (tid : BitVec 9) (sq : BitVec 7) (s : State) : Host.Outcome State Fault Refusal :=
  s.run fun d => d.nvFetch tid.toNat sq.toNat

/-- A head doorbell of a completion queue. -/
def Dev.nvCqBell (d : Dev) (tid q v : Nat) : Dev :=
  let c := d.nvCq tid q
  if !d.nvOn tid || c.size ≤ v then d.badBell tid else d.setNvCq tid q { c with head := v }

/-! I/O commands (R335 to R337) -/

/-- The namespace of an NSID: 0xFF for every namespace of a Flush, 0 for one that cannot exist. -/
def nsOf (code nsid : Nat) : Nat := if nsid == 0xFFFFFFFF && code == 0 then 0xFF else if 1 ≤ nsid && nsid ≤ 32 then nsid else 0

/-- The length of a command in bytes. -/
def Dev.nvLength (d : Dev) (c : NvCmd) (code : Nat) : Nat :=
  let k := nsKey c.tid.toNat (nsOf code c.nsid.toNat)
  match code with
  | 0 => 0
  | 9 => (c.blocks.toNat % 256 + 1) * 16
  | _ => (c.blocks.toNat + 1) * d.lbaBytes k

/-- An I/O command is sampled at Breakwater as an ST operation of its namespace's CLASS. -/
def Dev.sampleNvme (d : Dev) (c : NvCmd) (code : Nat) : Dev :=
  let tid := c.tid.toNat
  let ns := nsOf code c.nsid.toNat
  let x : Desc :=
    { tag := c.cid, bad := c.bad, length := BitVec.ofNat 32 (d.nvLength c code), addr0 := c.prp1, addr1 := c.lba,
      target := BitVec.ofNat 32 (code * 2 ^ 24 + ns), pages := c.pages }
  let q : Req := { id := 0, kind := 6, code := code, cls := 0, tid := tid, src := 0, org := .nvme 0 0, desc := x, tick := 0, time := 0 }
  let cls := d.inF (Reg.STG_NS_CLASS (nsKey tid (d.reqNs q)))
  if d.nvLive tid c.sq.toNat then
    d.submit 6 code cls tid (0x010 + linkOf tid) (.nvme c.sq.toNat c.cid.toNat) { x with cls := BitVec.ofNat 2 cls } (ns != 0)
  else d

/-- FLUSH (R344). -/
def execFlush (cmd : NvCmd) (s : State) : Host.Outcome State Fault Refusal := s.run fun d => d.sampleNvme cmd 0
/-- NVME_WRITE (R345). -/
def execNvmeWrite (cmd : NvCmd) (s : State) : Host.Outcome State Fault Refusal := s.run fun d => d.sampleNvme cmd 1
/-- NVME_READ (R346). -/
def execNvmeRead (cmd : NvCmd) (s : State) : Host.Outcome State Fault Refusal := s.run fun d => d.sampleNvme cmd 2
/-- WRITE_ZEROES (R345). -/
def execWriteZeroes (cmd : NvCmd) (s : State) : Host.Outcome State Fault Refusal := s.run fun d => d.sampleNvme cmd 8
/-- DATASET_MANAGEMENT (R335). -/
def execDatasetManagement (cmd : NvCmd) (s : State) : Host.Outcome State Fault Refusal := s.run fun d => d.sampleNvme cmd 9

/-! Admin commands -/

/-- A command of an enabled controller's admin queue. -/
def Dev.admin (d : Dev) (a : NvAdmin) (f : Dev → Dev) : Dev := d.when (d.nvLive a.tid.toNat 0) f

/-- The shoal that serves admin commands, and whether it has nothing else to do (R335): they are Slack work of it and carry no promise.
DESIGN CHOICE (log 191): the spec gives them no cost, so that an idle shoal serves them at once. -/
def Dev.adminShoal (d : Dev) : Res := ⟨8, d.inF Reg.STG_ADMIN_SHOAL, false⟩
def Dev.adminIdle (d : Dev) : Bool :=
  d.freeAt d.adminShoal ≤ d.clk.tide * 65536 && !d.ops.any (fun o => o.readyFor d.adminShoal || o.going.contains d.adminShoal)

/-- An admin command completes with SCT, SC and Dword 0. -/
def Dev.adminDone (d : Dev) (tid cid sct sc dw0 : Nat) : Dev :=
  d.postNvme { tid := tid, sq := 0, cid := cid, status := nvStatus sct sc 0, dw0 := dw0 }

/-- An admin command writes its data: at PRP1, and what passes its page at PRP2. -/
def Dev.adminData (d : Dev) (a : NvAdmin) (l : List Byte) : Dev :=
  let m := min l.length (4096 - a.prp1.toNat % 4096)
  if !d.mayIssue a.tid.toNat then d
  else
    let d := d.emit (.hostWrite a.tid.toNat a.prp1.toNat (l.take m))
    if l.length ≤ m then d else d.emit (.hostWrite a.tid.toNat a.prp2.toNat (l.drop m))

/-- The I/O queue pairs created are shown. -/
def Dev.showQueues (d : Dev) (tid : Nat) : Dev :=
  d.put (Reg.STG_FN_IO_QUEUES tid) ((List.range 64).filter (fun q => (d.nvSq tid (q + 1)).size != 0)).length

/-- Create I/O CQ (error codes of NVM Express, PRESUMED). -/
def Dev.createCq (d : Dev) (a : NvAdmin) : Dev :=
  let tid := a.tid.toNat
  let q := a.d10.toNat % 65536
  let n := a.d10.toNat / 65536 + 1
  let v := a.d11.toNat / 65536
  let no (sct sc : Nat) : Dev := d.adminDone tid a.cid.toNat sct sc 0
  if q == 0 || 64 < q || (d.nvCq tid q).size != 0 then no 1 1
  else if n < 2 || 4096 < n then no 1 2
  else if 256 ≤ v then no 1 8
  else if !a.d11.toNat.testBit 0 then no 0 2
  else (d.setNvCq tid q { base := a.prp1.toNat, size := n, vector := v, ien := a.d11.toNat.testBit 1 }).adminDone tid a.cid.toNat 0 0 0

/-- Create I/O SQ; QPRIO is ignored. -/
def Dev.createSq (d : Dev) (a : NvAdmin) : Dev :=
  let tid := a.tid.toNat
  let q := a.d10.toNat % 65536
  let n := a.d10.toNat / 65536 + 1
  let cq := a.d11.toNat / 65536
  let no (sct sc : Nat) : Dev := d.adminDone tid a.cid.toNat sct sc 0
  if q == 0 || 64 < q || (d.nvSq tid q).size != 0 then no 1 1
  else if n < 2 || 4096 < n then no 1 2
  else if cq == 0 || 64 < cq || (d.nvCq tid cq).size == 0 then no 1 0
  else if !a.d11.toNat.testBit 0 then no 0 2
  else
    let d := d.setNvSq tid q { base := a.prp1.toNat, size := n, cq := cq }
    let d := { d with host := { d.host with
      fetch := Tab.set 0 d.host.fetch (fetchKey tid (512 + q)) 0
      bellTimes := Tab.set [] d.host.bellTimes (fetchKey tid (512 + q)) [] } }
    (d.showQueues tid).adminDone tid a.cid.toNat 0 0 0

/-- Whether an operation came by a submission queue of a controller, and whether its backend does not hold it yet. -/
def Op.fromSq (o : Op) (tid q : Nat) : Bool :=
  o.req.tid == tid && (match o.req.org with | .nvme sq _ => sq == q | .ring _ _ | .book _ _ _ | .sub _ _ _ | .wire _ => false)
def Op.ofCtl (o : Op) (tid : Nat) : Bool :=
  o.req.tid == tid && (match o.req.org with | .nvme _ _ => true | .ring _ _ | .book _ _ _ | .sub _ _ _ | .wire _ => false)
def Req.fromSq (r : Req) (tid q : Nat) : Bool :=
  r.tid == tid && (match r.org with | .nvme sq _ => sq == q | .ring _ _ | .book _ _ _ | .sub _ _ _ | .wire _ => false)
def Req.ofCtl (r : Req) (tid : Nat) : Bool :=
  r.tid == tid && (match r.org with | .nvme _ _ => true | .ring _ _ | .book _ _ _ | .sub _ _ _ | .wire _ => false)
def Op.queuedAt (o : Op) : Bool := o.handed.isNone && !o.ended && !o.plan.isEmpty

/-- The requests that await decision, and those decided to run whose decision is not visible yet. -/
def Dev.undecided (d : Dev) : List Req := d.adm.waiting ++ (d.pair.decisions.filter (fun x => x.status == 0)).map (·.req)

/-- Nothing of a queue is left at the device. -/
def Dev.sqIdle (d : Dev) (tid q : Nat) : Bool :=
  !d.ops.any (fun o => o.fromSq tid q && !o.ended) && !d.adm.waiting.any (fun r => r.fromSq tid q) &&
    !d.pair.decisions.any (fun x => x.req.fromSq tid q)

/-- A queue that is being deleted goes once none of its commands remains; the Delete then completes. -/
def Dev.finishDelete (d : Dev) (tid q : Nat) : Dev :=
  match (d.nvSq tid q).deleting with
  | none => d
  | some cid => if d.sqIdle tid q then (((d.setNvSq tid q {}).showQueues tid).adminDone tid cid 0 0 0) else d

/-- Delete I/O SQ (R349): queued commands complete with ABORTED, running ones with their own status. -/
def Dev.deleteSq (d : Dev) (a : NvAdmin) : Dev :=
  let tid := a.tid.toNat
  let q := a.d10.toNat % 65536
  let s := d.nvSq tid q
  if q == 0 || 64 < q || s.size == 0 || s.deleting.isSome then d.adminDone tid a.cid.toNat 1 1 0
  else
    let d := d.setNvSq tid q { s with deleting := some a.cid.toNat }
    let d := d.absorbWhere (fun r => r.fetches tid (512 + q))
    let d := { d with host := { d.host with arrived := d.host.arrived.filter (fun x => !(x.tid == tid && x.nvme && x.ring == q)) } }
    let hit := d.ops.filter (fun o => o.fromSq tid q && o.queuedAt)
    let late := (d.undecided.filter (fun r => r.fromSq tid q)).length
    let d := d.bump (Reg.STG_CNT_COUNT 4) (hit.length + late)
    let d := d.each hit fun d o => (d.unsend o).killOp o.id 1
    (d.killLater (fun r => r.fromSq tid q) 1).finishDelete tid q

/-- DELETE_IO_SQ (R349). -/
def execDeleteIoSq (cmd : NvAdmin) (s : State) : Host.Outcome State Fault Refusal := s.run fun d => d.admin cmd fun d => d.deleteSq cmd

/-- Delete I/O CQ: only one that no submission queue uses. -/
def Dev.deleteCq (d : Dev) (a : NvAdmin) : Dev :=
  let tid := a.tid.toNat
  let q := a.d10.toNat % 65536
  if q == 0 || 64 < q || (d.nvCq tid q).size == 0 then d.adminDone tid a.cid.toNat 1 1 0
  else if (List.range 65).any (fun n => (d.nvSq tid n).size != 0 && (d.nvSq tid n).cq == q) then d.adminDone tid a.cid.toNat 1 0x0C 0
  else (d.setNvCq tid q {}).adminDone tid a.cid.toNat 0 0 0

/-! Identify (Table 13.1; the offsets are NVM Express's, PRESUMED) -/

/-- Bytes put at an offset of a page. -/
def setAt (l : List Byte) (off : Nat) (x : List Byte) : List Byte := l.take off ++ x ++ l.drop (off + x.length)

/-- Activation limit in units of 100 ms, rounded up. -/
def Dev.mtfa (d : Dev) : Nat := ceilDiv (d.inF Reg.STG_ACT_LIMIT_MS) 100

/-- Identify Controller: the fields of Table 13.1 and the identity of Table 15.1; serial number, model and revision are free. -/
def Dev.identCtrl (d : Dev) : List Byte × Dev :=
  let (name, d) := d.freeBytes 68
  let z := List.replicate 4096 (0 : Byte)
  let put (l : List Byte) (p : Nat × Nat × Nat) : List Byte := setAt l p.1 (natLe p.2.1 p.2.2)
  (setAt ([(0, 2, 0xEC4A), (2, 2, d.inF Reg.HST_IDS_SUBSYS_VENDOR), (77, 1, 9), (80, 4, 0x20000), (256, 2, 0x14), (258, 1, 3),
    (260, 1, 4), (276, 2, d.mtfa), (316, 2, 30), (512, 1, 0x66), (513, 1, 0x44), (516, 4, 32), (520, 2, 0x0C), (525, 1, 0)].foldl put z)
    4 name, d)

/-- Identify Namespace: sizes, DLFEAT, NAWUPF of 128 KiB less one LBA, NABSPF 0, and the LBA format. -/
def Dev.identNs (d : Dev) (tid ns : Nat) : List Byte :=
  let k := nsKey tid ns
  let z := List.replicate 4096 (0 : Byte)
  if !(1 ≤ ns && ns ≤ 32 && d.on (Reg.STG_NS_ENABLE k)) then z
  else
    let n := d.inF (Reg.STG_NS_SIZE_LBAS k)
    let put (l : List Byte) (p : Nat × Nat × Nat) : List Byte := setAt l p.1 (natLe p.2.1 p.2.2)
    [(0, 8, n), (8, 8, n), (16, 8, n), (24, 1, 2), (33, 1, 1), (36, 2, 131072 / d.lbaBytes k - 1), (44, 2, 0),
      (130, 1, if d.on (Reg.STG_NS_LBA_4K k) then 12 else 9)].foldl put z

/-- The active namespace IDs above one, in order. -/
def Dev.activeNs (d : Dev) (tid above : Nat) : List Nat :=
  ((List.range 32).map (· + 1)).filter (fun n => above < n && d.on (Reg.STG_NS_ENABLE (nsKey tid n)))

/-- Identify. -/
def Dev.identify (d : Dev) (a : NvAdmin) : Dev :=
  let tid := a.tid.toNat
  let ok (d : Dev) (l : List Byte) : Dev := (d.adminData a l).adminDone tid a.cid.toNat 0 0 0
  match a.d10.toNat % 256 with
  | 0 => ok d (d.identNs tid a.nsid.toNat)
  | 1 => let (l, d) := d.identCtrl
         ok d l
  | 2 => ok d (setAt (List.replicate 4096 0) 0 ((d.activeNs tid a.nsid.toNat).flatMap (natLe 4)))
  | 3 => let (l, d) := d.freeBytes 4096
         ok d l
  | _ => d.adminDone tid a.cid.toNat 0 2 0

/-! Log pages, features -/

/-- One result of log page 0x06, 28 bytes. -/
def TestResult.bytes (r : TestResult) : List Byte :=
  natLe 1 (r.stc * 16 + r.result) ++ natLe 1 0 ++ natLe 1 (1 + if r.lba.isSome then 2 else 0) ++ natLe 9 0 ++ natLe 4 r.nsid ++
    natLe 8 (r.lba.getD 0) ++ natLe 4 0

/-- Log page 0x06 (R352): what runs, and the last 20 results. -/
def Ctrl.log6 (c : Ctrl) : List Byte :=
  natLe 4 (match c.test with | some t => if t.extended then 2 else 1 | none => 0) ++
    ((c.results.take 20).flatMap TestResult.bytes ++ (List.replicate (20 - c.results.length) (natLe 28 0xF)).flatten)

/-- Get Log Page: logs 0x01, 0x02, 0x03 and 0x06. What the first three hold is not stated: free bytes. -/
def Dev.getLog (d : Dev) (a : NvAdmin) : Dev :=
  let tid := a.tid.toNat
  let id := a.d10.toNat % 256
  let n := min 4096 ((a.d10.toNat / 65536 + 1) * 4)
  let done (d : Dev) (l : List Byte) : Dev := (d.adminData a (fitBytes n l)).adminDone tid a.cid.toNat 0 0 0
  if id == 6 then done d (d.ctl tid).log6
  else if id == 1 || id == 2 || id == 3 then
    let (l, d) := d.freeBytes n
    done d l
  else d.adminDone tid a.cid.toNat 1 9 0

/-- The features of Table 13.2. -/
def featureOk (n : Nat) : Bool := n == 1 || n == 4 || n == 7 || n == 8 || n == 9 || n == 0x0A

/-- Number of Queues answers 64 pairs, 0's based. -/
def queuesGranted : Nat := 63 * 65536 + 63

/-- Set Features. -/
def Dev.setFeature (d : Dev) (a : NvAdmin) : Dev :=
  let tid := a.tid.toNat
  let f := a.d10.toNat % 256
  if !featureOk f then d.adminDone tid a.cid.toNat 0 2 0
  else
    let v := if f == 7 then queuesGranted else a.d11.toNat
    (d.updCtl tid fun c => { c with feats := Tab.set 0 c.feats f v }).adminDone tid a.cid.toNat 0 0 (if f == 7 then queuesGranted else 0)

/-- Get Features. -/
def Dev.getFeature (d : Dev) (a : NvAdmin) : Dev :=
  let tid := a.tid.toNat
  let f := a.d10.toNat % 256
  if !featureOk f then d.adminDone tid a.cid.toNat 0 2 0
  else d.adminDone tid a.cid.toNat 0 0 (if f == 7 then queuesGranted else Tab.get 0 (d.ctl tid).feats f)

/-! Abort (R347, R348) -/

/-- What Abort does and answers in Dword 0. -/
def Dev.abortOne (d : Dev) (tid sq cid : Nat) : Nat × Dev :=
  let is (r : Req) : Bool := r.tid == tid && r.org == .nvme sq cid
  match d.ops.find? (fun o => is o.req && !o.ended && !o.detached) with
  | some o =>
    if o.handed.isNone && !d.complDue o.id then (0, (((d.unsend o).killOp o.id 0).stgCount 1))
    else (5, d.stgCount 2)
  | none =>
    if (d.adm.waiting ++ d.pair.decisions.map (·.req)).any is then (0, (d.killLater is 0).stgCount 1)
    else if d.host.doneNow.contains (tid, sq, cid) then (3, d.stgCount 2)
    else (7, d.stgCount 2)

/-- An Abort: the fifth outstanding is refused; another completes in the tick after it acts. -/
def Dev.abort (d : Dev) (a : NvAdmin) : Dev :=
  let tid := a.tid.toNat
  if 4 ≤ (d.ctl tid).aborts.length then d.adminDone tid a.cid.toNat 1 3 0
  else
    let (w, d) := d.abortOne tid (a.d10.toNat % 65536) (a.d10.toNat / 65536)
    d.updCtl tid fun c => { c with aborts := c.aborts ++ [⟨a.cid.toNat, w, d.clk.tick⟩] }

/-- ABORT (R347). -/
def execAbort (cmd : NvAdmin) (s : State) : Host.Outcome State Fault Refusal := s.run fun d => d.admin cmd fun d => d.abort cmd

/-- Aborts that acted in an earlier tick complete. -/
def Dev.finishAborts (d : Dev) : Dev :=
  d.each d.host.ctrls fun d p =>
    let done := p.2.aborts.filter (fun a => a.tick < d.clk.tick)
    let d := d.updCtl p.1 fun c => { c with aborts := c.aborts.filter (fun a => !(a.tick < d.clk.tick)) }
    d.each done fun d a => d.adminDone p.1 a.cid 0 0 a.dw0

/-! Firmware (R350) -/

/-- A firmware command is refused where the function has no right to it. -/
def Dev.firmware (d : Dev) (a : NvAdmin) (f : Dev → Dev) : Dev :=
  if d.on (Reg.STG_FW_RIGHTS a.tid.toNat) then f d else d.adminDone a.tid.toNat a.cid.toNat 0 1 0

/-- The piece of an image is staged at its offset. -/
def Dev.download (d : Dev) (a : NvAdmin) : Dev :=
  let n := (a.d10.toNat + 1) * 4
  (d.updCtl a.tid.toNat fun c => { c with image := putData c.image (a.d11.toNat * 4) (fitBytes n a.data) }).adminDone
    a.tid.toNat a.cid.toNat 0 0 0

/-- Commit hands the image to Headland (R350); it completes when the slot is written. -/
def Dev.commitImage (d : Dev) (a : NvAdmin) (mark : Bool) : Dev :=
  let u : Update := { src := .commit a.tid.toNat a.cid.toNat, bundle := (d.ctl a.tid.toNat).image, mark := mark }
  { d with boot := { d.boot with updates := d.boot.updates ++ [u] } }

/-- FIRMWARE_COMMIT_ACTION_3, which acts as it is sampled: the image is written and marked (R449), ACT_HOLD sets, and the device waits for storage to be quiet. One that meets another under way
completes with Command Sequence Error (PRESUMED NVM Express). -/
def execFirmwareCommitAction3 (cmd : NvAdmin) (s : State) : Host.Outcome State Fault Refusal :=
  s.run fun d => d.admin cmd fun d => d.firmware cmd fun d =>
    if d.host.act.isSome then d.adminDone cmd.tid.toNat cmd.cid.toNat 0 0x0C 0
    else
      let u : Update := { src := .activate cmd.tid.toNat cmd.cid.toNat, bundle := (d.ctl cmd.tid.toNat).image, mark := true }
      { d with host := { d.host with act := some { tid := cmd.tid.toNat, cid := cmd.cid.toNat, time := d.clk.tide } }
               boot := { d.boot with updates := d.boot.updates ++ [u] } }.put Reg.STG_STATUS_ACT_HOLD 1

/-- Whether no storage command is queued or running anywhere. -/
def Dev.storageQuiet (d : Dev) : Bool :=
  !d.ops.any (fun o => o.req.kind == 6 && !o.ended) && !d.undecided.any (fun r => r.kind == 6)

/-- Whether the image of an activation is still being written. -/
def Dev.activating (d : Dev) : Bool :=
  d.boot.updates.any fun u => match u.src with
    | .activate _ _ => true
    | .xfer | .commit _ _ => false

/-- The limit of an activation in ns. -/
def Dev.actLimit (d : Dev) : Nat := d.inF Reg.STG_ACT_LIMIT_MS * 1000000

/-- ACTIVATION_QUIESCED (R350): the new image has started and reports ready; ACT_HOLD clears and the Commit completes. -/
def execActivationQuiesced (s : State) : Host.Outcome State Fault Refusal :=
  s.run fun d => match d.host.act with
    | some a =>
      if d.storageQuiet && !d.activating then
        (({ d with host := { d.host with act := none } }.put Reg.STG_STATUS_ACT_HOLD 0).stgCount 9).adminDone a.tid a.cid 0 0 0
      else d
    | none => d

/-- ACT_FAILED (R350): the limit passes first. -/
def Dev.actFailed (d : Dev) : Dev :=
  match d.host.act with
  | some a =>
    if a.time + d.actLimit ≤ d.clk.tide then
      ((({ d with host := { d.host with act := none } }.put Reg.STG_STATUS_ACT_HOLD 0).raise Reg.STG_STATUS_ACT_FAILED).stgCount 10).adminDone
        a.tid a.cid 1 0x12 0
    else d
  | none => d

/-- ACT_FAILED. -/
def execActFailed (s : State) : Host.Outcome State Fault Refusal := s.run fun d => d.actFailed

/-! Self-test (R352) -/

/-- A self-test of a controller ends with a result. -/
def Dev.endTest (d : Dev) (tid result : Nat) (lba : Option Nat) : Dev :=
  match (d.ctl tid).test with
  | none => d
  | some t =>
    let r : TestResult := { stc := if t.extended then 2 else 1, result := result, nsid := t.nsid, lba := lba }
    (d.updCtl tid fun c => { c with test := none, results := r :: c.results.take 19 }).put (Reg.STG_FN_DST_RUNNING tid) 0

/-- A self-test starts, unless one runs. -/
def Dev.startTest (d : Dev) (a : NvAdmin) (extended : Bool) : Dev :=
  let tid := a.tid.toNat
  if (d.ctl tid).test.isSome then d.adminDone tid a.cid.toNat 1 0x1D 0
  else
    let d := d.updCtl tid fun c => { c with test := some ⟨extended, a.nsid.toNat⟩ }
    ((d.put (Reg.STG_FN_DST_RUNNING tid) 1).stgCount 11).adminDone tid a.cid.toNat 0 0 0

/-- SELF_TEST_END: the test is complete, or a read of an LBA failed. -/
def execSelfTestEnd (tid : BitVec 9) (failed : Option (BitVec 64)) (s : State) : Host.Outcome State Fault Refusal :=
  s.run fun d => match failed with
    | some l => d.endTest tid.toNat 7 (some l.toNat)
    | none => d.endTest tid.toNat 0 none

/-! Admin commands as the storage layer serves them (R335) -/

/-- What the storage layer does for an admin command. -/
def Dev.serveAdmin (d : Dev) (op : AdminOp) (a : NvAdmin) : Dev :=
  match op with
  | .createCq => d.createCq a
  | .createSq => d.createSq a
  | .deleteCq => d.deleteCq a
  | .identify => d.identify a
  | .getLog => d.getLog a
  | .setFeature => d.setFeature a
  | .getFeature => d.getFeature a
  | .download => d.firmware a fun d => d.download a
  | .commit mark => d.firmware a fun d => d.commitImage a mark
  | .test extended => d.startTest a extended
  | .testAbort => (d.endTest a.tid.toNat 1 none).adminDone a.tid.toNat a.cid.toNat 0 0 0

/-- An admin command is served in its turn: at once where ADMIN_SHOAL is idle and none waits before it. -/
def Dev.takeAdmin (d : Dev) (op : AdminOp) (a : NvAdmin) : Dev :=
  d.admin a fun d =>
    if d.host.adminQ.isEmpty && d.adminIdle then d.serveAdmin op a
    else { d with host := { d.host with adminQ := d.host.adminQ ++ [(op, a)] } }

/-- The admin commands that wait are served, in order, once ADMIN_SHOAL is idle. -/
def Dev.serveAdmins (d : Dev) : Dev :=
  if d.adminIdle then
    { d with host := { d.host with adminQ := [] } }.each d.host.adminQ fun d p => d.admin p.2 fun d => d.serveAdmin p.1 p.2
  else d

/-- CREATE_IO_CQ (R335). -/
def execCreateIoCq (cmd : NvAdmin) (s : State) : Host.Outcome State Fault Refusal := s.run fun d => d.takeAdmin .createCq cmd
/-- CREATE_IO_SQ (R335). -/
def execCreateIoSq (cmd : NvAdmin) (s : State) : Host.Outcome State Fault Refusal := s.run fun d => d.takeAdmin .createSq cmd
/-- DELETE_IO_CQ (R349). -/
def execDeleteIoCq (cmd : NvAdmin) (s : State) : Host.Outcome State Fault Refusal := s.run fun d => d.takeAdmin .deleteCq cmd
/-- IDENTIFY (R335). -/
def execIdentify (cmd : NvAdmin) (s : State) : Host.Outcome State Fault Refusal := s.run fun d => d.takeAdmin .identify cmd
/-- GET_LOG_PAGE (R335). -/
def execGetLogPage (cmd : NvAdmin) (s : State) : Host.Outcome State Fault Refusal := s.run fun d => d.takeAdmin .getLog cmd
/-- SET_FEATURES (R335). -/
def execSetFeatures (cmd : NvAdmin) (s : State) : Host.Outcome State Fault Refusal := s.run fun d => d.takeAdmin .setFeature cmd
/-- GET_FEATURES (R335). -/
def execGetFeatures (cmd : NvAdmin) (s : State) : Host.Outcome State Fault Refusal := s.run fun d => d.takeAdmin .getFeature cmd
/-- FIRMWARE_IMAGE_DOWNLOAD (R350): the piece is staged at its offset. -/
def execFirmwareImageDownload (cmd : NvAdmin) (s : State) : Host.Outcome State Fault Refusal :=
  s.run fun d => d.takeAdmin .download cmd
/-- FIRMWARE_COMMIT_ACTION_0 (R350). -/
def execFirmwareCommitAction0 (cmd : NvAdmin) (s : State) : Host.Outcome State Fault Refusal :=
  s.run fun d => d.takeAdmin (.commit false) cmd
/-- FIRMWARE_COMMIT_ACTION_1: the image is activated at the next power-on reset. -/
def execFirmwareCommitAction1 (cmd : NvAdmin) (s : State) : Host.Outcome State Fault Refusal :=
  s.run fun d => d.takeAdmin (.commit true) cmd
/-- FIRMWARE_COMMIT_ACTION_2: as action 1. -/
def execFirmwareCommitAction2 (cmd : NvAdmin) (s : State) : Host.Outcome State Fault Refusal :=
  s.run fun d => d.takeAdmin (.commit true) cmd
/-- DEVICE_SELF_TEST_SHORT (R352). -/
def execDeviceSelfTestShort (cmd : NvAdmin) (s : State) : Host.Outcome State Fault Refusal :=
  s.run fun d => d.takeAdmin (.test false) cmd
/-- DEVICE_SELF_TEST_EXTENDED (R352). -/
def execDeviceSelfTestExtended (cmd : NvAdmin) (s : State) : Host.Outcome State Fault Refusal :=
  s.run fun d => d.takeAdmin (.test true) cmd
/-- DEVICE_SELF_TEST_ABORT: STC 0xF ends the test with result 1. -/
def execDeviceSelfTestAbort (cmd : NvAdmin) (s : State) : Host.Outcome State Fault Refusal :=
  s.run fun d => d.takeAdmin .testAbort cmd

/-! Enabling, disabling and shutting down a controller (R334, R349) -/

/-- CC.EN is set: the admin queues are those of AQA, ASQ and ACQ, and the controller is ready. One that still resets is not
enabled. -/
def Dev.enableCtl (d : Dev) (tid cc : Nat) : Dev :=
  let c := d.ctl tid
  if !d.nvmeOn tid || c.resetting || d.bit (Reg.STG_FN_EN tid) then d
  else
    let d := d.updCtl tid fun c => { c with cc := cc, shst := 0 }
    let d := d.setNvSq tid 0 { base := c.asq, size := c.aqa % 4096 + 1, cq := 0 }
    let d := d.setNvCq tid 0 { base := c.acq, size := c.aqa / 65536 % 4096 + 1, ien := true }
    let d := { d with host := { d.host with fetch := Tab.set 0 d.host.fetch (fetchKey tid 512) 0 } }
    (d.put (Reg.STG_FN_EN tid) 1).put (Reg.STG_FN_RDY tid) 1

/-- CC_EN_SET (R334). -/
def execCcEnSet (tid : BitVec 9) (cc : BitVec 32) (tee : Bool) (s : State) : Host.Outcome State Fault Refusal :=
  s.run fun d => d.barReq tid.toNat tee id fun d => d.enableCtl tid.toNat (cc.toNat ||| 1)

/-- The queues of a controller are deleted, and what waits to be fetched or posted with them. -/
def Dev.dropQueues (d : Dev) (tid : Nat) : Dev :=
  let fetch (r : HostRead) : Bool := r.tid == tid && (match r.use with
    | .entries _ _ _ => true
    | .descs _ _ _ | .data _ _ | .thread _ _ | .mover _ _ | .resp _ _ => false)
  let d := d.absorbWhere fetch
  { d with host := { d.host with
      sqs := d.host.sqs.filter (fun p => p.1 / 65 != tid)
      bellTimes := d.host.bellTimes.filter (fun p => p.1 / 1024 != tid || p.1 % 1024 < 512)
      cqs := d.host.cqs.filter (fun p => p.1 / 65 != tid)
      waitingNvme := d.host.waitingNvme.filter (fun w => w.tid != tid)
      adminQ := d.host.adminQ.filter (fun p => p.2.tid.toNat != tid)
      arrived := d.host.arrived.filter (fun a => !(a.tid == tid && a.nvme)) } }.put (Reg.STG_FN_IO_QUEUES tid) 0

/-- The queued commands of a controller are squashed and those that run are detached (R349); n is the counter. -/
def Dev.squash (d : Dev) (tid n : Nat) : Dev :=
  let d := d.discardNvme tid
  let hit := d.ops.filter (fun o => o.ofCtl tid && o.queuedAt)
  let late := (d.undecided.filter (fun r => r.ofCtl tid)).length
  let d := (d.bump (Reg.STG_CNT_COUNT n) (hit.length + late)).killLater (fun r => r.ofCtl tid) 2
  let d := d.each hit fun d o => d.vanish o.id
  d.each (d.ops.filter (fun o => o.ofCtl tid && !o.ended && !o.detached)) fun d o => d.detach o.id

/-- CC.EN is cleared. -/
def Dev.disableCtl (d : Dev) (tid cc : Nat) : Dev :=
  if !d.bit (Reg.STG_FN_EN tid) then d
  else
    let d := (d.squash tid 3).dropQueues tid
    let d := if ((d.ctl tid).test.map (·.extended)) == some false then d.endTest tid 2 none else d
    (d.updCtl tid fun c => { c with cc := cc, resetting := true, aborts := [] }).put (Reg.STG_FN_EN tid) 0

/-- CC_EN_CLEAR (R349). -/
def execCcEnClear (tid : BitVec 9) (cc : BitVec 32) (tee : Bool) (s : State) : Host.Outcome State Fault Refusal :=
  s.run fun d => d.barReq tid.toNat tee id fun d => d.disableCtl tid.toNat (cc.toNat / 2 * 2)

/-- CC.SHN is set: fetching stops. -/
def Dev.shutCtl (d : Dev) (tid cc : Nat) : Dev :=
  if d.nvOn tid && (d.ctl tid).shst == 0 then d.updCtl tid fun c => { c with cc := cc, shst := 1 } else d

/-- CC_SHN_SET (R349). -/
def execCcShnSet (tid : BitVec 9) (cc : BitVec 32) (tee : Bool) (s : State) : Host.Outcome State Fault Refusal :=
  s.run fun d => d.barReq tid.toNat tee id fun d => d.shutCtl tid.toNat cc.toNat

/-- A write of CC as a whole. -/
def Dev.writeCc (d : Dev) (tid v : Nat) : Dev :=
  let c := d.ctl tid
  if v.testBit 0 && !d.bit (Reg.STG_FN_EN tid) then d.enableCtl tid v
  else if !v.testBit 0 && d.bit (Reg.STG_FN_EN tid) then d.disableCtl tid v
  else if bits v 15 14 != 0 && bits c.cc 15 14 == 0 then d.shutCtl tid v
  else d.updCtl tid fun c => { c with cc := v }

/-- No command of a controller remains. -/
def Dev.ctlIdle (d : Dev) (tid : Nat) : Bool :=
  !d.ops.any (fun o => o.ofCtl tid && !o.ended) && !d.undecided.any (fun r => r.ofCtl tid) &&
    !d.host.arrived.any (fun a => a.tid == tid && a.nvme) && !d.host.adminQ.any (fun p => p.2.tid.toNat == tid)

/-- At the end of a tick RDY clears, or SHST becomes 2, where no command remains; deletions that are done complete. -/
def Dev.stepCtls (d : Dev) : Dev :=
  let d := d.each (d.host.ctrls.map (·.1)) fun d tid =>
    let d := if (d.ctl tid).resetting && d.ctlIdle tid then
        (d.updCtl tid fun c => { c with resetting := false }).put (Reg.STG_FN_RDY tid) 0 else d
    if (d.ctl tid).shst == 1 && d.ctlIdle tid then d.updCtl tid fun c => { c with shst := 2 } else d
  d.each (d.host.sqs.filter (fun p => p.2.deleting.isSome)) fun d p => d.finishDelete (p.1 / 65) (p.1 % 65)

/-! Backends (R339 to R346) -/

/-- Whether an earlier storage command must complete before one is handed to its backend (R343): also one that a controller reset or an
FLR has left running (R349). -/
def Dev.mustWait (d : Dev) (o : Op) : Bool :=
  d.ops.any fun e => e.req.kind == 6 && !e.ended && e.id < o.id &&
    ((sameRing e.req.tid e.req.org o.req.tid o.req.org && (o.req.desc.ordered || e.req.desc.ordered)) ||
     (e.req.tid == o.req.tid && d.strictNs o.req != 0 && d.reqNs e.req == d.reqNs o.req))

/-- Whether a storage command hands nothing to its backend: a Flush (R344), or a Dataset Management of a controller without the attribute
AD, the only one that acts (Table 13.2). -/
def Op.handsNothing (o : Op) : Bool :=
  o.req.code == 0 || (o.req.code == 9 && !o.req.desc.addr1.toNat.testBit 34 && (match o.req.org with
    | .nvme _ _ => true
    | .ring _ _ | .book _ _ _ | .sub _ _ _ | .wire _ => false))

/-- Whether the ranges of a Dataset Management lie in its namespace, as it was when the command was sampled (R338). -/
def Op.rangesOk (o : Op) : Bool := o.req.code != 9 || o.ranges.all (fun r => r.1 + r.2 ≤ o.req.lbas)

/-- The atomic pieces of n bytes from a byte address of a namespace on: split at every 128 KiB boundary (R345). Offset and length. -/
def atomicPieces (addr : Nat) : Nat → Nat → Nat → List (Nat × Nat)
  | 0, _, _ => []
  | fuel + 1, off, n =>
    if n == 0 then []
    else
      let m := min n (131072 - (addr + off) % 131072)
      (off, m) :: atomicPieces addr fuel (off + m) (n - m)

/-- The pieces in which a storage command reaches its backend: a write or Write Zeroes its atomic pieces, another command as a whole. -/
def Dev.pieces (d : Dev) (o : Op) : List (Nat × Nat) :=
  let n := d.namedBytes o
  if o.req.code == 1 || o.req.code == 8 then
    atomicPieces (o.req.desc.addr1.toNat * d.lbaBytes (nsKey o.req.tid (d.reqNs o.req))) (n / 131072 + 2) 0 n
  else [(0, n)]

/-- The storage layer rings the doorbell of the SSD of a local backend for a command: an NVMe command for each piece, with FUA set (R340) and a
write's data in the namespace's staging memory (R339). -/
def Dev.ssdCommands (d : Dev) (o : Op) : Dev :=
  let b := o.req.backend
  if d.on (Reg.STG_BE_KIND b) then d
  else
    let hbm := d.on (Reg.STG_NS_STAGE_MEM (nsKey o.req.tid (d.reqNs o.req)))
    d.each (d.pieces o) fun d p =>
      d.emit (.ssd (d.inF (Reg.STG_BE_SLOT b)) o.id o.req.code (o.req.code != 2) p.1 p.2 hbm
        (if o.req.code == 1 then (fitBytes (stData o.req) o.data).drop p.1 |>.take p.2 else []))

/-- A command is handed to a local backend, or begins to be sent to a remote one; while its backend is not available it waits (R342). A
Dataset Management whose ranges pass the end of its namespace is refused (R338; DESIGN CHOICE, log 192: once its list has been read). -/
def Dev.hand (d : Dev) (id : Nat) : Dev :=
  d.withOp id fun d o =>
    if o.req.kind != 6 || o.handsNothing || !o.waiting || o.handed.isSome || o.detached || d.bit Reg.HDL_STATUS_HOLDUP_STOP ||
        !d.on (Reg.STG_BE_AVAILABLE o.req.backend) || d.mustWait o then d
    else if !o.rangesOk then d.endWith id 3 4
    else
      match o.plan.head?.map (·.no) with
      | some 4 => (d.drawPeer id).updOp id (fun o => { o with waiting := false })
      | some 5 => ((d.updOp id (fun o => o.hand d.clk.tide)).emit (.backend o.req.backend id)).ssdCommands o
      | _ => d

/-- BACKEND_HAND (R342). -/
def execBackendHand (op : Nat) (s : State) : Host.Outcome State Fault Refusal := s.run fun d => d.hand op

/-- At a tick boundary the storage layer hands over every command that may be handed (R342, R343), as it takes up all ready work (log 98). -/
def Dev.handReady (d : Dev) : Dev :=
  d.each ((d.ops.filter (fun o => o.req.kind == 6 && o.waiting && o.handed.isNone)).map (·.id)) Dev.hand

/-- A backend has answered: 0 OK with a Read's data, 1 a media failure, 2 a tag that failed (R346). -/
def Dev.backendAnswer (d : Dev) (id status : Nat) (data : List Byte) : Dev :=
  d.withOp id fun d o =>
    if o.req.kind != 6 || o.handed.isNone then d
    else if o.detached then d.dropOp id
    else if !o.waiting || (o.plan.head?.map (·.no)) != some 5 then d
    else
      let d := if status == 0 then d else d.stgCount 7
      let d := if status == 2 then d.stgCount 8 else d
      let n := o.req.desc.length.toNat
      (d.updOp id (fun o => { o with
        waiting := false
        data := if status == 0 && o.req.code == 2 then fitBytes n data else o.data
        status := if o.status == 0 && status != 0 then 0x60 else o.status
        detail := if o.status == 0 && status != 0 then (if status == 2 then 3 else 1) else o.detail
        tagFail := o.tagFail || status == 2 })).advance id

/-- BACKEND_RESPONSE (R341). -/
def execBackendResponse (op : Nat) (status : Fin 3) (data : List Byte) (s : State) : Host.Outcome State Fault Refusal :=
  s.run fun d => d.backendAnswer op status.val data

/-- Whether a storage command still needs its backend: it has not been answered. -/
def Op.needsBackend (o : Op) : Bool :=
  o.req.kind == 6 && !o.handsNothing && !o.ended &&
    (match o.plan.head? with | some s => o.waiting || s.no ≤ 4 | none => o.detached)

/-- The commands on a backend. -/
def Dev.onBackend (d : Dev) (b : Nat) : List Op := d.ops.filter (fun o => o.needsBackend && o.req.backend == b)

/-- Commands whose backend is not available, as the steward has set it, have lost their assumption (R76). -/
def Dev.loseBackends (d : Dev) : Dev :=
  d.each (d.ops.filter (fun o => o.needsBackend && !o.detached && !o.slack && !o.envFail && !d.on (Reg.STG_BE_AVAILABLE o.req.backend)))
    fun d o => d.failAssumption o.id

/-- A backend becomes unavailable: the assumption of its commands fails (R76). -/
def Dev.backendDown (d : Dev) (b : Nat) : Dev :=
  (d.putNow (Reg.STG_BE_AVAILABLE b) 0).each (d.onBackend b) fun d o => d.failAssumption o.id

/-- A command ends with MEDIA_ERROR; one that is detached only goes. -/
def Dev.mediaError (d : Dev) (id detail : Nat) : Dev :=
  d.withOp id fun d o => if o.detached then d.dropOp id else ((d.stgCount 7).unsend o).endWith id 0x60 detail

/-- Whether a command is with its backend: handed to it, and not answered. -/
def Op.atBackend (o : Op) : Bool :=
  o.req.kind == 6 && !o.ended && o.waiting && (o.detached || (o.plan.head?.map (·.no)) == some 5)

/-- Whether a command has been with its backend for a time. -/
def Op.heldFor (o : Op) (now t : Nat) : Bool :=
  match o.handed with
  | some h => o.atBackend && h + t ≤ now
  | none => false

/-- A backend times out on a command (R342). -/
def Dev.backendTimesOut (d : Dev) (id : Nat) : Dev :=
  d.withOp id fun d o =>
    let b := o.req.backend
    if o.heldFor d.clk.tide o.req.timeout then (((d.stgCount 6).backendDown b).mediaError id 2) else d

/-- BACKEND_TIMEOUT. -/
def execBackendTimeout (op : Nat) (s : State) : Host.Outcome State Fault Refusal := s.run fun d => d.backendTimesOut op

/-- A backend's declared bound runs out (R76). -/
def Dev.boundExpires (d : Dev) (id : Nat) : Dev :=
  d.withOp id fun d o =>
    if o.heldFor d.clk.tide o.req.bound && !o.envFail then d.failAssumption id else d

/-- BACKEND_BOUND_EXPIRY. -/
def execBackendBoundExpiry (op : Nat) (s : State) : Host.Outcome State Fault Refusal := s.run fun d => d.boundExpires op

/-- A slot has lost its SSD: the local backends on it become unavailable and their commands fail with DETAIL 5 (R342). -/
def Dev.slotLost (d : Dev) (slot : Nat) : Dev :=
  let bs := (List.range 256).filter (fun b => !d.on (Reg.STG_BE_KIND b) && d.inF (Reg.STG_BE_SLOT b) == slot)
  d.each bs fun d b =>
    let l := d.onBackend b
    (d.backendDown b).each l fun d o => d.mediaError o.id 5

/-- Whether a Flush may complete: no write, Write Zeroes or deallocation of its namespaces that was sampled before it remains
(R344). -/
def Dev.flushReady (d : Dev) (o : Op) : Bool :=
  let ns := o.req.desc.target.toNat % 256
  !d.ops.any (fun e => e.req.kind == 6 && !e.ended && e.id < o.id && e.req.tid == o.req.tid &&
    (e.req.code == 1 || e.req.code == 8 || e.req.code == 9) && (ns == 0xFF || d.reqNs e.req == ns))

/-- A command that hands nothing to its backend goes on: a Flush completes (R344), whatever of its stages remains; a Dataset Management
without AD has only its stages after the backend left. -/
def Dev.passBackend (d : Dev) (o : Op) : Dev :=
  let rest (s : Stage) : Bool := o.req.code != 0 && 5 ≤ s.no
  ((d.updOp o.id (fun o => { o with waiting := false, plan := o.plan.filter rest })).input (.releaseStage o.id 4)).advance o.id

/-- The commands that hand nothing to their backends and wait for no other go on. -/
def Dev.serveFlushes (d : Dev) : Dev :=
  d.each (d.ops.filter (fun o => o.req.kind == 6 && o.handsNothing && !o.ended && o.waiting && !d.complDue o.id &&
      (o.req.code != 0 || d.flushReady o))) fun d o => d.passBackend o

/-! NVMe entries become commands -/

/-- The pages of an I/O command's buffer after its first: PRP2, or the entries of a list that the host holds, which are free
values. -/
def Dev.nvPages (d : Dev) (prp1 prp2 n : Nat) : List (BitVec 64) × Dev :=
  let k := ceilDiv (n - (4096 - prp1 % 4096)) 4096
  if k == 0 then ([], d)
  else if k == 1 then ([BitVec.ofNat 64 prp2], d)
  else (List.range k).foldl (fun r _ =>
    let (v, d) := r.2.draw (2 ^ 52 - 1)
    (r.1 ++ [BitVec.ofNat 64 (v * 4096)], d)) ([], d)

/-- The admin command of an entry; the data of a downloaded piece lies in host memory: free bytes. -/
def adminInstr (op : Nat) (a : NvAdmin) : Option Instr :=
  match op with
  | 0x00 => some (.deleteIoSq a) | 0x04 => some (.deleteIoCq a) | 0x01 => some (.createIoSq a) | 0x05 => some (.createIoCq a)
  | 0x02 => some (.getLogPage a) | 0x06 => some (.identify a) | 0x08 => some (.abort a) | 0x09 => some (.setFeatures a)
  | 0x0A => some (.getFeatures a)
  | 0x10 => match bits a.d10.toNat 5 3 with
    | 0 => some (.firmwareCommitAction0 a) | 1 => some (.firmwareCommitAction1 a) | 2 => some (.firmwareCommitAction2 a)
    | 3 => some (.firmwareCommitAction3 a) | _ => none
  | 0x11 => some (.firmwareImageDownload a)
  | 0x14 => match a.d10.toNat % 16 with
    | 1 => some (.deviceSelfTestShort a) | 2 => some (.deviceSelfTestExtended a) | 15 => some (.deviceSelfTestAbort a)
    | _ => none
  | _ => none

/-- The I/O command of an entry. -/
def ioInstr (op : Nat) (c : NvCmd) : Option Instr :=
  match op with
  | 0 => some (.flush c) | 1 => some (.nvmeWrite c) | 2 => some (.nvmeRead c) | 8 => some (.writeZeroes c)
  | 9 => some (.datasetManagement c) | _ => none

/-- A fetched entry is sampled: the command it is, or none where it is done with at once (an opcode that is not supported). -/
def Dev.sampleEntry (d : Dev) (tid q : Nat) (l : List Byte) : Option Instr × Dev :=
  let w := entryWord l
  let w2 (n : Nat) : Nat := w n + w (n + 1) * 2 ^ 32
  let op := w 0 % 256
  let cid := w 0 / 65536
  if q == 0 then
    let (data, d) := if op == 0x11 then d.freeBytes ((w 10 + 1) * 4) else ([], d)
    let a : NvAdmin :=
      { tid := BitVec.ofNat 9 tid, cid := BitVec.ofNat 16 cid, nsid := BitVec.ofNat 32 (w 1), prp1 := BitVec.ofNat 64 (w2 6),
        prp2 := BitVec.ofNat 64 (w2 8), d10 := BitVec.ofNat 32 (w 10), d11 := BitVec.ofNat 32 (w 11), d12 := BitVec.ofNat 32 (w 12),
        data := data }
    match adminInstr op a with
    | some i => (some i, d)
    | none =>
      let sc := if op == 0x10 || op == 0x14 then 2 else 1
      (none, if d.nvLive tid 0 then d.adminDone tid cid 0 sc 0 else d)
  else
    let c : NvCmd :=
      { tid := BitVec.ofNat 9 tid, sq := BitVec.ofNat 7 q, cid := BitVec.ofNat 16 cid, nsid := BitVec.ofNat 32 (w 1)
        lba := if op == 0 then 0 else BitVec.ofNat 64 (w2 10)
        blocks := if op == 9 then BitVec.ofNat 16 (w 10) else BitVec.ofNat 16 (w 12)
        prp1 := BitVec.ofNat 64 (w2 6), bad := bits (w 0) 9 8 != 0 || bits (w 0) 15 14 != 0 }
    let (ps, d) := if op == 1 || op == 2 || op == 9 then d.nvPages (w2 6) (w2 8) (d.nvLength c op) else ([], d)
    match ioInstr op { c with pages := ps } with
    | some i => (some i, d)
    | none =>
      let cls := d.inF (Reg.STG_NS_CLASS (nsKey tid (nsOf op (w 1))))
      (none, if d.nvLive tid q then
          d.submit 16 op cls tid (0x010 + linkOf tid) (.nvme q cid) { tag := BitVec.ofNat 16 cid, bad := true } (nsOf op (w 1) != 0)
        else d)

/-- The fetched entries of earlier ticks are sampled in order: the commands they are (R391, R336). -/
def Dev.sampleArrivals (d : Dev) : List Instr × Dev :=
  let now := d.host.arrived
  let d := { d with host := { d.host with arrived := [] } }
  now.foldl (fun r a =>
    let d := r.2
    if a.nvme then
      let (i, d) := d.sampleEntry a.tid a.ring a.bytes
      (r.1 ++ i.toList, d)
    else
      let (kind, x) := descOf a.bytes
      let head := d.headAfter a.tid a.ring a.index
      match nativeInstr (BitVec.ofNat 9 a.tid) (BitVec.ofNat 6 a.ring) (BitVec.ofNat 16 head) kind x with
      | some i => (r.1 ++ [i], d)
      | none => (r.1, d.sampleReserved a.tid a.ring head kind x)) ([], d)

end Sys2Proof.Machine
end

