-- ==== Sys2Proof/Machine/Flr.lean ====
section
/-! DEFINITION. Function level reset, link reset, VF Enable, configuration space, the tenant page and ATS (chapter 15). -/

namespace Sys2Proof.Machine

open Sys2Proof

/-! Function Level Reset (R399, R400) -/

/-- What becomes of one operation of a function that is reset: a command that its backend holds is detached, an NVMe command is
squashed, what comes by the wire is dropped, and every other operation ends with HOST_ABORT. A BOOK's completion goes to its
channel; no other completion is written. -/
def Dev.flrOp (d : Dev) (o : Op) : Dev :=
  match o.req.org with
  | .nvme _ _ => if o.handed.isSome then d.detach o.id else (d.stgCount 5).vanish o.id
  | .ring _ _ => if o.req.kind == 6 && o.handed.isSome then d.detach o.id else (d.hostCount o.req.tid 4).vanish o.id
  | .book _ _ _ => (d.unsend o).hostAbort o.id
  | .wire _ => d.vanish o.id
  | .sub _ _ _ => d

/-- A function is reset in tick f. -/
def Dev.flr (d : Dev) (tid : Nat) : Dev :=
  if d.inFlr tid then d
  else
    let d := (d.put (Reg.HST_TEN_FLR_ACTIVE tid) 1).hostCount tid 3
    let d := { d with host := { d.host with flrFrom := Tab.set none d.host.flrFrom tid (some d.clk.tide) } }
    let d := (d.setTdi tid 0).discardWaiting (fun w => w.tid == tid) false
    let d := (d.discardNvme tid).discardPlacings tid
    let d := d.each (d.ops.filter (fun o => o.req.tid == tid && !o.ended && !o.detached)) Dev.flrOp
    let late := (d.adm.waiting.filter (fun r => r.ofCtl tid)).length
    let d := (d.bump (Reg.STG_CNT_COUNT 5) late).killLater (fun q => q.tid == tid) 2
    let d := (d.stopFetches tid false).dropQueues tid
    let d := d.endTest tid 2 none
    d.swashFlr tid

/-- INITIATE_FLR (R399). -/
def execInitiateFlr (tid : BitVec 9) (s : State) : Host.Outcome State Fault Refusal :=
  s.run fun d => d.when (d.cfgOn tid.toNat) fun d => d.flr tid.toNat

/-- Whether Transactions Pending of a function is set (R396, R400). -/
def Dev.transPending (d : Dev) (tid : Nat) : Bool := d.host.reads.any (fun r => r.tid == tid)

/-- Whether an FLR may complete: no engine step of the function remains, and every tag has returned or 90 ms have passed. -/
def Dev.flrDone (d : Dev) (tid : Nat) : Bool :=
  match Tab.get none d.host.flrFrom tid with
  | none => false
  | some f => !d.ops.any (fun o => o.req.tid == tid && o.ended) && (!d.transPending tid || f + 90000000 ≤ d.clk.tide)

/-- The registers of a tenant page return to their reset values. -/
def Dev.resetPage (d : Dev) (tid : Nat) : Dev :=
  let mine (key : Nat) : Bool := (key / 64 % 2 ^ 48) / 0x4000 == (0x10000000000 + 0x4000 * tid) / 0x4000
  { d with regs := { d.regs with
      cur := d.regs.cur.filter (fun p => !mine p.1)
      force := d.regs.force.filter (fun p => !mine p.1)
      waiting := d.regs.waiting.filter (fun w => !mine w.key) } }

/-- The configuration words that an FLR of a PF keeps: VF Enable and VF MSE, NumVFs (R386). -/
def keptCfg (tid key : Nat) : Bool := !isVf tid && (key % 4096 == cfgVfControl || key % 4096 == cfgNumVfs)

/-- Everything else that the host side holds of a function is as after reset; keep names configuration words that stay. -/
def Dev.resetHost (d : Dev) (tid : Nat) (keep : Nat → Bool) : Dev :=
  { d with host := { d.host with
      waiting := d.host.waiting.filter (fun w => w.tid != tid)
      phase := d.host.phase.filter (fun p => p.1 / 1024 != tid)
      posted := d.host.posted.filter (fun p => p.1 / 256 != tid)
      postNext := d.host.postNext.filter (fun p => p.1 / 256 != tid)
      fetch := d.host.fetch.filter (fun p => p.1 / 1024 != tid)
      bells := d.host.bells.filter (fun p => p.1 / 256 != tid)
      bellTimes := d.host.bellTimes.filter (fun p => p.1 / 1024 != tid)
      msixMask := d.host.msixMask.filter (fun p => p.1 / 256 != tid)
      msixPending := d.host.msixPending.filter (fun p => p.1 / 256 != tid || (tid == 0 && p.1 == d.inF Reg.HST_MGMT_VECTOR))
      msixTable := d.host.msixTable.filter (fun p => p.1 / 1024 != tid)
      config := d.host.config.filter (fun p => p.1 / 4096 != tid || keep p.1)
      sqs := d.host.sqs.filter (fun p => p.1 / 65 != tid)
      cqs := d.host.cqs.filter (fun p => p.1 / 65 != tid)
      ctrls := d.host.ctrls.filter (fun p => p.1 != tid)
      flrFrom := Tab.set none d.host.flrFrom tid none } }

/-- The tags that a function still holds are released as timed out. -/
def Dev.releaseTags (d : Dev) (tid : Nat) : Dev :=
  let n := (d.host.reads.filter (fun r => r.tid == tid)).length
  let d := { d with host := { d.host with reads := d.host.reads.filter (fun r => r.tid != tid) } }
  (d.hostCount tid 1 n).showTags (linkOf tid)

/-- The tag mode of a link follows the tag enables of its PF0 (R394). -/
def Dev.takeTagMode (d : Dev) (l : Nat) : Dev :=
  d.put (Reg.HST_LINK_TAG_MODE l)
    (if (d.cfgWord (l * 256) 0x160).testBit 2 then 2 else if (d.cfgWord (l * 256) 0x68).testBit 12 then 1 else 0)

/-- A function comes out of reset: it takes its personality (R333), and its VF MSE where it is a VF. -/
def Dev.afterReset (d : Dev) (tid : Nat) : Dev :=
  let d := d.commitReset (fun a => a == 0x600018 + bankStep * tid)
  let d := (d.put (Reg.STG_FN_PERSONALITY tid) (d.inF (Reg.STG_NVME_EN tid))).put (Reg.TEN_ID_NVME tid) (d.inF (Reg.STG_NVME_EN tid))
  let d := ((d.put (Reg.STG_FN_EN tid) 0).put (Reg.STG_FN_RDY tid) 0).put (Reg.STG_FN_DST_RUNNING tid) 0
  let mse := if isVf tid && (d.cfgWord (pfOf tid) cfgVfControl).testBit 3 then 1 else 0
  let d := ((d.putNow (Reg.HST_TEN_BME tid) 0).putNow (Reg.HST_TEN_MSE tid) mse).putNow (Reg.HST_TEN_D3 tid) 0
  (d.put (Reg.HST_TEN_FLR_ACTIVE tid) 0).takeTagMode (linkOf tid)

/-- The FLR of a function completes. -/
def Dev.flrComplete (d : Dev) (tid : Nat) : Dev :=
  if d.flrDone tid then (((d.releaseTags tid).resetPage tid).resetHost tid (keptCfg tid)).afterReset tid else d

/-- FLR_COMPLETE (R400); while something remains the command changes nothing. -/
def execFlrComplete (tid : BitVec 9) (s : State) : Host.Outcome State Fault Refusal := s.run fun d => d.flrComplete tid.toNat

/-! Links (R381 to R383, R489) -/

/-- The operations that need a resource of a link, and the reads of other agents over it, lose their assumption. -/
def Dev.linkFails (d : Dev) (l : Nat) : Dev :=
  d.each (d.ops.filter (fun o => !o.ended && o.plan.any (fun s => s.needs.any (fun x => x.res.kind == 1 && x.res.inst == l)))) fun d o =>
    d.failAssumption o.id

/-- A link reset: every function is reset as by FLR, VF Enable is cleared, configuration space and the subsystem identity are taken
afresh. -/
def Dev.linkReset (d : Dev) (l : Nat) : Dev :=
  let fns := (List.range 256).map (· + l * 256)
  let d := (d.each (fns.filter d.fnLive) Dev.flr).each fns fun d t =>
    ((d.putNow (Reg.HST_TEN_BME t) 0).putNow (Reg.HST_TEN_MSE t) 0).putNow (Reg.HST_TEN_D3 t) 0
  let d := { d with host := { d.host with config := d.host.config.filter (fun p => p.1 / 4096 / 256 != l) } }
  let d := (d.commitReset (fun a => a == 0x800010)).linkFails l
  let d := ((d.put (Reg.HST_LINK_LINK_UP l) 0).put (Reg.HST_LINK_DEGRADED l) 0).put (Reg.HST_LINK_FLIT l) 0
  ((d.put (Reg.HST_LINK_WIDTH l) 0).put (Reg.HST_LINK_SPEED l) 0).takeTagMode l

/-- HOST_LINK_RESET (R383). -/
def execHostLinkReset (link : BitVec 1) (s : State) : Host.Outcome State Fault Refusal := s.run fun d => d.linkReset link.toNat

/-- PERST_ASSERT (R489). -/
def execPerstAssert (link : BitVec 1) (s : State) : Host.Outcome State Fault Refusal := s.run fun d => d.linkReset link.toNat

/-- HOST_LINK_UP (R382, R76): a link trains once stage SELFTEST has ended; one that comes up degraded counts as down for what is
admitted over it. -/
def execHostLinkUp (link : BitVec 1) (speed : BitVec 4) (width : BitVec 8) (flit : Bool) (s : State) :
    Host.Outcome State Fault Refusal :=
  s.run fun d => d.when (d.rd Reg.HDL_STATUS_STAGE != 1) fun d =>
    let l := link.toNat
    let d := ((d.put (Reg.HST_LINK_LINK_UP l) 1).put (Reg.HST_LINK_SPEED l) speed.toNat).put (Reg.HST_LINK_WIDTH l) width.toNat
    let bad := !(speed.toNat == 6 && width.toNat == 16)
    ((d.putBit (Reg.HST_LINK_FLIT l) flit).putBit (Reg.HST_LINK_DEGRADED l) bad).when bad fun d => d.linkFails l

/-! VF Enable (R386) -/

/-- VF Enable is set: the VFs are in their after-FLR state from the boundary that ends the tick. -/
def Dev.setVfe (d : Dev) (pf : Nat) : Dev :=
  if (d.cfgWord pf cfgVfControl).testBit 0 || d.host.vfAsk.contains pf then d
  else { d with host := { d.host with vfAsk := d.host.vfAsk ++ [pf] } }

/-- VF_ENABLE_SET. -/
def execVfEnableSet (pf : BitVec 9) (s : State) : Host.Outcome State Fault Refusal :=
  s.run fun d => d.when (d.cfgOn pf.toNat && !isVf pf.toNat) fun d => d.setVfe pf.toNat

/-- The VFs that were enabled in this tick appear at its end. -/
def Dev.enableVfs (d : Dev) : Dev :=
  let l := d.host.vfAsk
  let d := { d with host := { d.host with vfAsk := [] } }
  d.each l fun d pf =>
    let d := d.setCfg pf cfgVfControl (d.cfgWord pf cfgVfControl ||| 1)
    d.each ((vfsOf pf).filter (fun t => !d.inFlr t)) fun d t => ((d.resetPage t).resetHost t (fun _ => false)).afterReset t

/-- VF Enable is cleared: every VF is reset as by FLR. -/
def Dev.clearVfe (d : Dev) (pf : Nat) : Dev :=
  let w := d.cfgWord pf cfgVfControl
  if !w.testBit 0 then { d with host := { d.host with vfAsk := d.host.vfAsk.filter (· != pf) } }
  else (d.each ((vfsOf pf).filter d.fnLive) Dev.flr).setCfg pf cfgVfControl (w - 1)

/-- VF_ENABLE_CLEAR. -/
def execVfEnableClear (pf : BitVec 9) (s : State) : Host.Outcome State Fault Refusal :=
  s.run fun d => d.when (d.cfgOn pf.toNat && !isVf pf.toNat) fun d => d.clearVfe pf.toNat

/-! Configuration space (R384, R385; the places of fields within a capability are PCI Express's, PRESUMED) -/

/-- The extended capabilities of a function in their chain: offset and identity. -/
def extCaps (tid : Nat) : List (Nat × Nat) :=
  [(0x100, 0x0001), (0x148, 0x000E), (0x158, 0x002F)] ++ (if isVf tid then [] else [(0x168, 0x0010)]) ++
    [(0x1A8, 0x000F), (0x1B0, 0x000D)] ++ (if fnOf tid == 0 then [(0x1C0, 0x002E), (0x200, 0x0030)] else [])

/-- The header of an extended capability: its identity, or its version 1 with the offset of the next one present (R385). -/
def extHeader (tid off : Nat) : Option Nat :=
  match (extCaps tid).dropWhile (fun c => c.1 != off / 4 * 4) with
  | c :: r => some (if off % 4 == 0 then c.2 else ((r.head?.map (·.1)).getD 0) * 16 + 1)
  | [] => none

/-- What a 16-bit word of configuration space reads as (Tables 15.1 and 15.2). -/
def Dev.cfgRead (d : Dev) (tid off : Nat) : Nat :=
  let vf := isVf tid
  let w := d.cfgWord tid off
  match off with
  | 0x00 => if vf then 0xFFFF else 0xEC4A
  | 0x02 => if vf then 0xFFFF else 0xA932
  | 0x06 => 0x0010
  | 0x08 => if d.nvmeOn tid then 0x0221 else 0x0021
  | 0x0A => if d.nvmeOn tid then 0x0108 else 0x1200
  | 0x0E => if vf then 0x0000 else 0x0080
  | 0x10 | 0x18 => if vf then 0 else w ||| 4
  | 0x20 => if tid == 0 then w ||| 4 else 0
  | 0x2C => d.inF Reg.HST_IDS_SUBSYS_VENDOR
  | 0x2E => d.inF Reg.HST_IDS_SUBSYS_ID
  | 0x34 => 0x40
  | 0x40 => 0x7010
  | 0x42 => 0x0002
  | 0x44 => 0x8022
  | 0x46 => 0x1000
  | 0x4C => 0x0106
  | 0x64 => 0x000F
  | 0x66 => 0x0003
  | 0x4A => if d.transPending tid then 0x0020 else 0
  | 0x70 => 0x8011
  | 0x72 => w ||| 0x00FF
  | 0x74 => 0x0002
  | 0x78 => 0x8002
  | 0x80 => 0x0001
  | 0x82 => 0x0003
  | 0x84 => w ||| 0x0008
  | 0x15C => 0x0006
  | 0x184 | 0x188 => if vf then 0 else 1
  | 0x18C | 0x194 => if vf then 0 else w ||| 4
  | 0x174 | 0x176 => if vf then 0 else 127
  | 0x17C => if vf then 0 else if fnOf tid == 0 then 2 else 128
  | 0x17E => if vf then 0 else 1
  | 0x182 => if vf then 0 else 0xA933
  | 0x1AC => 0x0060
  | _ => (extHeader tid off).getD w

/-- The writable bits of a word. -/
def cfgMask (tid off : Nat) : Nat :=
  let pf := !isVf tid
  match off with
  | 0x04 => if pf then 0x0146 else 0x0004
  | 0x10 => if pf && tid != 0 then 0xC000 else 0
  | 0x12 => if tid == 0 then 0xF000 else if pf then 0xFFFF else 0
  | 0x1A | 0x14 | 0x16 | 0x1C | 0x1E => if pf then 0xFFFF else 0
  | 0x20 => if tid == 0 then 0xC000 else 0
  | 0x22 | 0x24 | 0x26 => if tid == 0 then 0xFFFF else 0
  | 0x48 => 0x7FFF
  | 0x68 => 0x100F
  | 0x72 => 0xC000
  | 0x108 | 0x10A | 0x10C | 0x10E | 0x114 | 0x118 => 0xFFFF
  | 0x160 => 0x0004
  | 0x178 => if pf then 0xFFFF else 0
  | 0x18C => if pf then 0xC000 else 0
  | 0x18E | 0x190 | 0x192 | 0x196 | 0x198 | 0x19A => if pf then 0xFFFF else 0
  | 0x1AE => 0x801F
  | _ => if fnOf tid == 0 && 0x1C0 ≤ off && off < 0x400 then 0xFFFF else 0

/-- A write of one 16-bit word of configuration space, with its effects. -/
def Dev.cfgWrite16 (d : Dev) (tid off v : Nat) : Dev :=
  let old := d.cfgWord tid off
  let m := cfgMask tid off
  let new := (old &&& (0xFFFF - m)) ||| (v &&& m)
  match off with
  | 0x04 =>
    let d := d.setCfg tid off ((new &&& (0xFFFF - 6)) ||| (old &&& 6))
    let d := if new.testBit 1 && !old.testBit 1 then (d.setCommand tid 1 true).setMse tid
      else if !new.testBit 1 && old.testBit 1 then (d.setCommand tid 1 false).clearMse tid else d
    if new.testBit 2 && !old.testBit 2 then d.setBme tid else if !new.testBit 2 && old.testBit 2 then d.clearBme tid else d
  | 0x48 => if v.testBit 15 then (d.setCfg tid off new).flr tid else d.setCfg tid off new
  | 0x68 | 0x160 => if fnOf tid == 0 then (d.setCfg tid off new).takeTagMode (linkOf tid) else d.setCfg tid off new
  | 0x72 => (d.setCfg tid off new).sendPending tid
  | 0x84 => if v % 4 == 3 then d.enterD3 tid else if v % 4 == 0 then d.leaveD3 tid else d
  | 0x104 | 0x106 | 0x110 => d.setCfg tid off (old &&& (0xFFFF - v))
  | 0x170 =>
    if isVf tid then d
    else
      let d := if v.testBit 3 != old.testBit 3 then
          (d.keepMse tid true (v.testBit 3)).each (vfsOf tid) (fun d t => if v.testBit 3 then d.setMse t else d.clearMse t) else d
      if v.testBit 0 && !old.testBit 0 then d.setVfe tid else if !v.testBit 0 && old.testBit 0 then d.clearVfe tid else d
  | 0x178 => if (d.cfgWord tid cfgVfControl).testBit 0 then d else d.setCfg tid off new
  | _ =>
    let d := d.setCfg tid off new
    let bars := if 0x10 ≤ off && off < 0x28 then [tid] else if 0x18C ≤ off && off < 0x1A4 && !isVf tid then vfsOf tid else []
    if new != old then d.each bars Dev.tdiChange else d

/-- The bytes of a word that a write enables, with the others as they stand. -/
def byEnables (old v be : Nat) : Nat :=
  (if be.testBit 0 then v % 256 else old % 256) + (if be.testBit 1 then v / 256 % 256 else old / 256 % 256) * 256

/-- A configuration write to a dword with byte enables; status bits that ones would clear are not enabled by reading back. -/
def Dev.cfgWrite (d : Dev) (tid reg be v : Nat) : Dev :=
  let half (d : Dev) (off v be : Nat) : Dev :=
    if be % 4 == 0 then d
    else
      let old := if off == 0x104 || off == 0x106 || off == 0x110 then 0 else d.cfgWord tid off
      d.cfgWrite16 tid off (byEnables old v be)
  half (half d (reg * 4) (v % 65536) be) (reg * 4 + 2) (v / 65536) (be / 4)

/-- CONFIG_SPACE_WRITE (R394). -/
def execConfigSpaceWrite (tid : BitVec 9) (reg : BitVec 10) (be : BitVec 4) (value : BitVec 32) (s : State) :
    Host.Outcome State Fault Refusal :=
  s.run fun d => d.when (d.cfgOn tid.toNat) fun d => d.cfgWrite tid.toNat reg.toNat be.toNat value.toNat

/-! The tenant page (R334, R388, R392) -/

/-- Where the control and status region, and the contract status region, of a function begin. -/
def Dev.pageC (d : Dev) (tid : Nat) : Nat := if d.nvmeOn tid then 0x1800 else 0
def Dev.pageK (d : Dev) (tid : Nat) : Nat := if d.nvmeOn tid then 0x1C00 else 0x1000

/-- The ring that the tenant has selected. -/
def Dev.selRing (d : Dev) (tid : Nat) : Nat × Nat := (d.inF (Reg.TEN_QSEL_QTYPE tid), d.inF (Reg.TEN_QSEL_QINDEX tid))

/-- A write to the selected ring's second register: its fields, and ENABLE where the write reaches it. -/
def Dev.writeRingCtl (d : Dev) (tid : Nat) (half : Fin 3) (v : Nat) : Dev :=
  let (qt, n) := d.selRing tid
  let k := qKey qt n
  let d := d.each [Reg.TEN_Q_VECTOR tid k, Reg.TEN_Q_BIND tid k, Reg.TEN_Q_SIZE_LOG2 tid k] fun d f => d.storeBits f half v
  if !highHalf half then d
  else if halfBit half v 63 then d.enableRing tid qt n (d.rd (Reg.TEN_Q_SIZE_LOG2 tid k))
  else d.disableRing tid qt n

/-- A write to the timing ring's control: enabling sets the tail to 0. -/
def Dev.writeTring (d : Dev) (tid : Nat) (half : Fin 3) (v : Nat) : Dev :=
  let old := d.bit (Reg.TEN_TRING_EN tid)
  let d := (d.storeBits (Reg.TEN_TRING_EN tid) half v).storeBits (Reg.TEN_TRING_SIZE_LOG2 tid) half v
  if d.bit (Reg.TEN_TRING_EN tid) && !old then
    { d with host := { d.host with phase := Tab.set true d.host.phase (tid * 1024 + 1023) true } }.put (Reg.TEN_TRING_TAIL tid) 0
  else d

/-- A write to the MSI-X table: the entry's words, and its mask bit; what was pending is sent when it may be. -/
def Dev.writeMsix (d : Dev) (tid off : Nat) (half : Fin 3) (v : Nat) : Dev :=
  let put (d : Dev) (w v : Nat) : Dev :=
    let vec := w / 4
    let d := { d with host := { d.host with msixTable := Tab.set 0 d.host.msixTable (tid * 1024 + w) v } }
    if w % 4 == 3 then
      { d with host := { d.host with msixMask := Tab.set true d.host.msixMask (tid * 256 + vec) (v.testBit 0) } }.sendPending tid
    else d
  let w := off / 8 * 2
  if 0x1000 ≤ off then d
  else
    let d := if lowHalf half then put d w (v % 2 ^ 32) else d
    if highHalf half then put d (w + 1) (mergeHalf 0 half.val v / 2 ^ 32) else d

/-- A write to the NVMe controller registers. -/
def Dev.writeNvReg (d : Dev) (tid off : Nat) (half : Fin 3) (v : Nat) : Dev :=
  let x := mergeHalf 0 half.val v
  let low := x % 2 ^ 32
  let high := x / 2 ^ 32
  match off with
  | 0x08 => if highHalf half then d.updCtl tid fun c => { c with intm := c.intm ||| high } else d
  | 0x10 =>
    let d := if lowHalf half then d.updCtl tid fun c => { c with intm := c.intm &&& (2 ^ 32 - 1 - low) } else d
    if highHalf half then d.writeCc tid high else d
  | 0x20 => if highHalf half then d.updCtl tid fun c => { c with aqa := high } else d
  | 0x28 => d.updCtl tid fun c => { c with asq := mergeHalf c.asq half.val v / 4096 * 4096 }
  | 0x30 => d.updCtl tid fun c => { c with acq := mergeHalf c.acq half.val v / 4096 * 4096 }
  | _ => d

/-- What the NVMe controller registers read as (Table 13.1): RDY and SHST as they stood at the end of the previous tick (R500). -/
def Dev.nvRead (p d : Dev) (tid off : Nat) : Nat :=
  let c := d.ctl tid
  match off with
  | 0x00 => 0x0FFF + 2 ^ 16 + 0x14 * 2 ^ 24 + 2 ^ 37
  | 0x08 => 0x20000 + c.intm * 2 ^ 32
  | 0x10 => c.intm + c.cc * 2 ^ 32
  | 0x18 => ((if p.bit (Reg.STG_FN_RDY tid) then 1 else 0) + (p.ctl tid).shst * 4) * 2 ^ 32
  | 0x20 => c.aqa * 2 ^ 32
  | 0x28 => c.asq
  | 0x30 => c.acq
  | _ => 0

/-- Each half of a write to the NVMe doorbells is a doorbell of its own. -/
def Dev.writeNvBells (d : Dev) (tid off : Nat) (half : Fin 3) (v : Nat) : Dev :=
  let one (d : Dev) (n v : Nat) : Dev :=
    if n % 2 == 0 then d.nvSqBell tid (n / 2) (v % 65536) else d.nvCqBell tid (n / 2) (v % 65536)
  let n := (off - 0x1000) / 4
  let d := if lowHalf half then one d n (v % 2 ^ 32) else d
  if highHalf half then one d (n + 1) (mergeHalf 0 half.val v / 2 ^ 32) else d

/-- A write to a register of the tenant page at an offset that is a multiple of 8. -/
def Dev.pageWrite (d : Dev) (tid off : Nat) (half : Fin 3) (v : Nat) : Dev :=
  let c := d.pageC tid
  let k := d.pageK tid
  let (qt, n) := d.selRing tid
  if d.nvmeOn tid && off < 0x40 then d.writeNvReg tid off half v
  else if d.nvmeOn tid && 0x1000 ≤ off && off < 0x1208 then d.writeNvBells tid off half v
  else if 0x2000 ≤ off && off < 0x2200 then (if lowHalf half then d.sqBell tid ((off - 0x2000) / 8) (v % 65536) else d)
  else if 0x2200 ≤ off && off < 0x2400 then (if lowHalf half then d.cqBell tid ((off - 0x2200) / 8) (v % 65536) else d)
  else if off == c + 0x008 then
    d.each [Reg.TEN_STATUS_POST_DROPPED tid, Reg.TEN_STATUS_RX_TOO_LONG tid, Reg.TEN_STATUS_DOORBELL_BAD tid,
      Reg.TEN_STATUS_QUEUES_STALE tid] fun d f => if halfBit half v f.lo && lowHalf half then d.clearBits f 1 else d
  else if off == c + 0x010 then (d.storeBits (Reg.TEN_QSEL_QTYPE tid) half v).storeBits (Reg.TEN_QSEL_QINDEX tid) half v
  else if off == c + 0x018 then if d.bit (Reg.TEN_Q_ENABLE tid (qKey qt n)) then d else d.storeBits (Reg.TEN_Q_QBASE tid (qKey qt n)) half v
  else if off == c + 0x020 then d.writeRingCtl tid half v
  else if off == k + 0x180 then (if d.bit (Reg.TEN_TRING_EN tid) then d else d.storeBits (Reg.TEN_TRING_BASE tid) half v)
  else if off == k + 0x188 then d.writeTring tid half v
  else if off == k + 0x190 then d.storeBits (Reg.TEN_TRING_HEAD tid) half v
  else d

/-- A tenant page access of a size or alignment that R3 does not allow is logged (R388); its source is the host link (DEDUCED). -/
def Dev.pageBad (d : Dev) (tid off size : Nat) : Dev :=
  d.report { source := 0x010 + linkOf tid, kind := 0x12, sev := 1, addr := off, tid := some tid, detail := size }

/-- TENANT_PAGE_WRITE (R388): a host write to a tenant page, or with bar2 to the MSI-X table. Doorbells that do not reach the
function are counted; a write of another size or alignment is discarded. -/
def execTenantPageWrite (tid : BitVec 9) (bar2 : Bool) (offset : BitVec 16) (size : BitVec 4) (value : BitVec 64) (tee : Bool) (s : State) :
    Host.Outcome State Fault Refusal :=
  s.run fun d =>
    let t := tid.toNat
    let off := offset.toNat / 8 * 8
    let bell := !bar2 && ((0x2000 ≤ off && off < 0x2400) || (d.nvmeOn t && 0x1000 ≤ off && off < 0x1208))
    d.barReq t tee (fun d => if bell then d.hostCount t 8 else d) fun d =>
      match accessHalf offset.toNat size.toNat with
      | none => if bar2 then d else d.pageBad t offset.toNat size.toNat
      | some half => if bar2 then d.writeMsix t off half value.toNat else d.pageWrite t off half value.toNat

/-! ATS (R402) -/

/-- Whether a read uses the translation of a range. -/
def HostRead.uses (r : HostRead) (link tid a n : Nat) : Bool :=
  r.link == link && r.tid == tid && r.addr < a + n && a < r.addr + r.len

/-- ATS_INVALIDATION_REQUEST (R402): from its tick no new request uses the entry; its completion waits for the reads that do. -/
def execAtsInvalidationRequest (link : BitVec 1) (itag : BitVec 5) (tid : BitVec 9) (addr : BitVec 64) (len : BitVec 64) (s : State) :
    Host.Outcome State Fault Refusal :=
  s.run fun d =>
    let tags := (d.host.reads.filter (fun r => r.uses link.toNat tid.toNat addr.toNat len.toNat)).map (·.tag)
    let w : AtsWait := { link := link.toNat, itag := itag.toNat, tid := tid.toNat, addr := addr.toNat, len := len.toNat, tags := tags }
    { d with host := { d.host with ats := d.host.ats ++ [w] } }

/-- Whether an invalidation's reads have all returned or timed out. -/
def Dev.atsReady (d : Dev) (w : AtsWait) : Bool := !d.host.reads.any (fun r => r.link == w.link && w.tags.contains r.tag && r.uses w.link w.tid w.addr w.len)

/-- The Invalidation Completion of an ITag is sent. -/
def Dev.atsComplete (d : Dev) (link itag : Nat) : Dev :=
  match d.host.ats.find? (fun w => w.link == link && w.itag == itag) with
  | some w => if d.atsReady w then { d with host := { d.host with ats := d.host.ats.erase w } }.emit (.ats link itag) else d
  | none => d

/-- ATS_INVALIDATION_COMPLETE (R402). -/
def execAtsInvalidationComplete (link : BitVec 1) (itag : BitVec 5) (s : State) : Host.Outcome State Fault Refusal :=
  s.run fun d => d.atsComplete link.toNat itag.toNat

/-! The steward's management interrupt (R39, R405) -/

/-- The management message is sent: one for each setting, or one where it had to wait; otherwise its pending bit is held. -/
def Dev.sendMgmt (d : Dev) : Dev :=
  let n := d.rd Reg.HST_MGMT_PENDING_EVENTS
  let v := d.inF Reg.HST_MGMT_VECTOR
  if n == 0 then d
  else if d.vectorOpen 0 v then
    let m := if Tab.get false d.host.msixPending v then 1 else n
    (d.each (List.range m) fun d _ => d.sendMsix 0 v).put Reg.HST_MGMT_PENDING_EVENTS 0
  else { d with host := { d.host with msixPending := Tab.set false d.host.msixPending v true } }

/-- MGMT_INTERRUPT_SEND (R405). -/
def execMgmtInterruptSend (s : State) : Host.Outcome State Fault Refusal := s.run fun d => d.sendMgmt

end Sys2Proof.Machine
end

