-- ==== Sys2Proof/Machine/Slots.lean ====
section
/-! DEFINITION. SPDM, IDE and TDISP on the host links, and the downstream slots with their configuration cycles (chapter 15). -/

namespace Sys2Proof.Machine

open Sys2Proof

/-! SPDM (R403). The responders are PF0 of link A and of link B, over DOE, and Headland's over MCTP, which is link 2. The codes of
the answers are SPDM's, PRESUMED. -/

/-- The responder of a link. -/
def Dev.spdm (d : Dev) (l : Nat) : Spdm := Tab.get {} d.host.spdm l
def Dev.setSpdm (d : Dev) (l : Nat) (x : Spdm) : Dev := { d with host := { d.host with spdm := Tab.set {} d.host.spdm l x } }

/-- Whether a responder answers: its link is up; over MCTP, from the end of stage SELFTEST (R475). -/
def Dev.spdmOn (d : Dev) (l : Nat) : Bool := if l == 2 then d.rd Reg.HDL_STATUS_STAGE != 1 else d.linkUp l

/-- An answer of a responder. -/
def Dev.spdmSay (d : Dev) (l code value : Nat) : Dev := d.emit (.answer l code value)

/-- A request that comes out of order is answered with ERROR, UnexpectedRequest. -/
def Dev.spdmError (d : Dev) (l : Nat) : Dev := d.spdmSay l 0x7F 4

/-- A request that needs the connection to have come to a step. -/
def Dev.spdmAfter (d : Dev) (l step : Nat) (f : Dev → Dev) : Dev :=
  if !d.spdmOn l then d else if (d.spdm l).step < step then d.spdmError l else f d

/-- A request that needs a session that FINISH has completed. -/
def Dev.inSession (d : Dev) (l : Nat) (f : Dev → Dev) : Dev :=
  if !d.spdmOn l then d else if (d.spdm l).session.isSome && (d.spdm l).finished then f d else d.spdmError l

/-- An answer that carries a certificate, a signature or a key, whose bytes are not stated: a free value. -/
def Dev.spdmFree (d : Dev) (l code : Nat) : Dev :=
  let (v, d) := d.draw (2 ^ 768 - 1)
  d.spdmSay l code v

/-- GET_VERSION: version 1.3; whatever the connection was, it begins again. -/
def execGetVersion (link : Fin 3) (s : State) : Host.Outcome State Fault Refusal :=
  s.run fun d => d.spdmAfter link.val 0 fun d => (d.setSpdm link.val { step := 1 }).spdmSay link.val 0x04 0x13

/-- GET_CAPABILITIES. -/
def execGetCapabilities (link : Fin 3) (s : State) : Host.Outcome State Fault Refusal :=
  s.run fun d => d.spdmAfter link.val 1 fun d => (d.setSpdm link.val { d.spdm link.val with step := 2 }).spdmFree link.val 0x61

/-- NEGOTIATE_ALGORITHMS: ECDSA P-384, SHA-384, ECDHE secp384r1 and AES-256-GCM, where the requester offers them. -/
def execNegotiateAlgorithms (link : Fin 3) (offered : Bool) (s : State) : Host.Outcome State Fault Refusal :=
  s.run fun d => d.spdmAfter link.val 2 fun d =>
    if offered then (d.setSpdm link.val { d.spdm link.val with step := 3 }).spdmSay link.val 0x63 384 else d.spdmSay link.val 0x7F 1

/-- GET_DIGESTS. -/
def execGetDigests (link : Fin 3) (s : State) : Host.Outcome State Fault Refusal :=
  s.run fun d => d.spdmAfter link.val 3 fun d => d.spdmFree link.val 0x01
/-- GET_CERTIFICATE. -/
def execGetCertificate (link : Fin 3) (s : State) : Host.Outcome State Fault Refusal :=
  s.run fun d => d.spdmAfter link.val 3 fun d => d.spdmFree link.val 0x02
/-- CHALLENGE: signed with the identity key; without one it is answered with ERROR. -/
def execChallenge (link : Fin 3) (s : State) : Host.Outcome State Fault Refusal :=
  s.run fun d => d.spdmAfter link.val 3 fun d => if d.boot.identityKey then d.spdmFree link.val 0x03 else d.spdmError link.val
/-- GET_MEASUREMENTS: the measurement that Headland supplies of what it started. -/
def execGetMeasurements (link : Fin 3) (s : State) : Host.Outcome State Fault Refusal :=
  s.run fun d => d.spdmAfter link.val 3 fun d => d.spdmSay link.val 0x60 (beNat (Config.sha384 d.boot.running))

/-- KEY_EXCHANGE: a session begins. -/
def execKeyExchange (link : Fin 3) (session : BitVec 32) (s : State) : Host.Outcome State Fault Refusal :=
  s.run fun d => d.spdmAfter link.val 3 fun d =>
    (d.setSpdm link.val { step := 3, session := some session.toNat }).spdmFree link.val 0x64
/-- FINISH: the session is complete. -/
def execFinish (link : Fin 3) (s : State) : Host.Outcome State Fault Refusal :=
  s.run fun d => d.spdmAfter link.val 3 fun d =>
    if (d.spdm link.val).session.isSome && !(d.spdm link.val).finished then
      (d.setSpdm link.val { d.spdm link.val with finished := true }).spdmSay link.val 0x65 0
    else d.spdmError link.val
/-- HEARTBEAT. -/
def execHeartbeat (link : Fin 3) (s : State) : Host.Outcome State Fault Refusal :=
  s.run fun d => d.inSession link.val fun d => d.spdmSay link.val 0x68 0
/-- KEY_UPDATE. -/
def execKeyUpdate (link : Fin 3) (s : State) : Host.Outcome State Fault Refusal :=
  s.run fun d => d.inSession link.val fun d =>
    (d.setSpdm link.val { d.spdm link.val with updates := (d.spdm link.val).updates + 1 }).spdmSay link.val 0x69 0
/-- END_SESSION. -/
def execEndSession (link : Fin 3) (s : State) : Host.Outcome State Fault Refusal :=
  s.run fun d => d.inSession link.val fun d => (d.setSpdm link.val { step := 3 }).spdmSay link.val 0x6C 0

/-! IDE (R404). The selective streams' registers lie in the IDE capability of PF0 as PCI Express lays them out (PRESUMED). -/

/-- A stream of a link. -/
def Dev.stream (d : Dev) (l i : Nat) : Stream := Tab.get {} d.host.streams (l * 8 + i)
def Dev.setStream (d : Dev) (l i : Nat) (x : Stream) : Dev := { d with host := { d.host with streams := Tab.set {} d.host.streams (l * 8 + i) x } }

/-- A dword of a stream's register block: capability, control, status, RID association 1 and 2. -/
def Dev.streamReg (d : Dev) (l i n : Nat) : Nat :=
  let off := 0x20C + i * 0x2C + n * 4
  d.cfgWord (l * 256) off + d.cfgWord (l * 256) (off + 2) * 65536

/-- Whether a stream is enabled, and TEE-Limited; and whether its RID range holds a function. -/
def Dev.streamOn (d : Dev) (l i : Nat) : Bool := (d.streamReg l i 1).testBit 0
def Dev.streamTee (d : Dev) (l i : Nat) : Bool := (d.streamReg l i 1).testBit 23
def Dev.streamHas (d : Dev) (l i tid : Nat) : Bool :=
  (d.streamReg l i 4).testBit 0 && bits (d.streamReg l i 4) 15 8 ≤ fnOf tid && fnOf tid ≤ bits (d.streamReg l i 3) 15 8

/-- Whether a TEE-Limited stream that is secure covers a function. -/
def Dev.covered (d : Dev) (tid : Nat) : Bool :=
  let l := linkOf tid
  (List.range 8).any fun i => d.streamOn l i && d.streamTee l i && d.streamHas l i tid && (d.stream l i).secure && !(d.stream l i).insecure

/-- IDE_KM (R404): within a session a key is programmed (what 0), the key set goes into use (1), or is stopped (2). -/
def execIdeKm (link : BitVec 1) (stream : BitVec 3) (what : Fin 3) (sub : BitVec 3) (key : List Byte) (s : State) :
    Host.Outcome State Fault Refusal :=
  s.run fun d => d.inSession link.toNat fun d =>
    let x := d.stream link.toNat stream.toNat
    let y := match what.val with
      | 0 => { x with keys := Tab.set [] x.keys sub.toNat (fitBytes 32 key) }
      | 1 => { x with secure := !x.keys.isEmpty, insecure := false }
      | _ => { x with secure := false }
    (d.setStream link.toNat stream.toNat y).spdmSay link.toNat 0x7E what.val

/-- IDE_CHECK_FAILED (R404): the TLP is dropped, AER logs it, the stream is Insecure, and every TDI that it carries enters ERROR. -/
def execIdeCheckFailed (link : BitVec 1) (stream : BitVec 3) (s : State) : Host.Outcome State Fault Refusal :=
  s.run fun d =>
    let l := link.toNat
    let d := ((d.bump (Reg.HST_CNT_COUNT l 6)).raiseAer (l * 256) 27).setStream l stream.toNat
      { d.stream l stream.toNat with secure := false, insecure := true }
    let hit := ((List.range 256).map (· + l * 256)).filter fun t =>
      t != 0 && d.fnLive t && d.streamHas l stream.toNat t && d.rd (Reg.HST_TEN_TDI_STATE t) != 3
    (d.mgmt .tdi).each hit Dev.tdiError

/-! TDISP (R404; the codes of the answers are TDISP's, PRESUMED) -/

/-- A TDISP request for a TDI: within a session of its link, and not for the steward. -/
def Dev.tdisp (d : Dev) (tid : Nat) (f : Dev → Dev) : Dev :=
  d.inSession (linkOf tid) fun d => if tid == 0 || !d.fnLive tid then d.spdmSay (linkOf tid) 0x7F 2 else f d

/-- LOCK_INTERFACE_REQUEST. -/
def execLockInterfaceRequest (tid : BitVec 9) (s : State) : Host.Outcome State Fault Refusal :=
  s.run fun d => d.tdisp tid.toNat fun d =>
    let t := tid.toNat
    if d.rd (Reg.HST_TEN_TDI_STATE t) == 0 && d.covered t then (d.setTdi t 1).spdmSay (linkOf t) 0x03 t else d.spdmSay (linkOf t) 0x7F 3

/-- START_INTERFACE_REQUEST. -/
def execStartInterfaceRequest (tid : BitVec 9) (s : State) : Host.Outcome State Fault Refusal :=
  s.run fun d => d.tdisp tid.toNat fun d =>
    let t := tid.toNat
    if d.rd (Reg.HST_TEN_TDI_STATE t) == 1 then (d.setTdi t 2).spdmSay (linkOf t) 0x06 t else d.spdmSay (linkOf t) 0x7F 4

/-- STOP_INTERFACE_REQUEST. -/
def execStopInterfaceRequest (tid : BitVec 9) (s : State) : Host.Outcome State Fault Refusal :=
  s.run fun d => d.tdisp tid.toNat fun d => (d.setTdi tid.toNat 0).spdmSay (linkOf tid.toNat) 0x07 tid.toNat

/-- The report of a function (R404): its BARs, then its contract bounds, budgets, quotas, namespaces and key slots. -/
def Dev.tdiReport (d : Dev) (tid : Nat) : List Nat :=
  let bars := (List.range 6).map (fun i => d.cfgRead tid (0x10 + 4 * i) + d.cfgRead tid (0x12 + 4 * i) * 65536)
  let bounds := (List.range 28).map (fun i => d.inF (Reg.BWK_CT_DATA_BOUND (tid * 32 + i + 4)))
  let budgets := (List.range 3).flatMap (fun c => [d.inF (Reg.BWK_BUDGET_DATA_RATE (bucketKey tid c)), d.inF (Reg.BWK_BUDGET_DATA_DEPTH (bucketKey tid c))])
  let spaces := (List.range 32).flatMap (fun n =>
    let k := nsKey tid (n + 1)
    [d.inF (Reg.STG_NS_ENABLE k), d.inF (Reg.STG_NS_SIZE_LBAS k), d.inF (Reg.STG_NS_KEY_SLOT k)])
  let slots := ((d.cry.keys.map (·.1)).filter (fun k => d.inF (Reg.CRY_SLOT_OWNER k) == tid))
  bars ++ bounds ++ budgets ++ [d.ringQuota tid 0, d.ringQuota tid 1, d.ringQuota tid 2] ++ spaces ++ slots

/-- GET_DEVICE_INTERFACE_REPORT: of a TDI that is locked or runs. -/
def execGetDeviceInterfaceReport (tid : BitVec 9) (s : State) : Host.Outcome State Fault Refusal :=
  s.run fun d => d.tdisp tid.toNat fun d =>
    let t := tid.toNat
    let st := d.rd (Reg.HST_TEN_TDI_STATE t)
    if st == 1 || st == 2 then d.spdmSay (linkOf t) 0x04 (leNat ((d.tdiReport t).flatMap (natLe 8))) else d.spdmSay (linkOf t) 0x7F 4

/-! Slots (R406 to R409) -/

/-- A slot. -/
def Dev.slot (d : Dev) (n : Nat) : Slot := Tab.get {} d.host.slots n
def Dev.updSlot (d : Dev) (n : Nat) (f : Slot → Slot) : Dev := { d with host := { d.host with slots := Tab.upd {} d.host.slots n f } }

/-- Ticks in a millisecond (R408). -/
def msTicks : Nat := 125000

/-- Slot Status changes: bits set, and Presence Detect State as it is; the hot-plug cause and the message (R409). -/
def Dev.slotChanged (d : Dev) (n set : Nat) : Dev :=
  let here := if d.bit (Reg.HST_RP_PRESENT n) then 64 else 0
  let d := d.updSlot n fun x => { x with status := ((x.status ||| set) &&& (0xFFFF - 64)) ||| here }
  let d := d.mgmt .hotPlug
  if d.on (Reg.HST_RP_HP_MSG_EN n) then
    d.unitPost (unitEnd (0x018 + n)) (d.inF (Reg.HST_RP_HP_CHANNEL n)) [d.short * 2 ^ 32 + n * 2 ^ 16 + (d.slot n).status]
  else d

/-- Power Controller Control written 0: PWREN at the next tick, PERST_N released PWR_ON_DELAY_MS later. -/
def Dev.slotOn (d : Dev) (n : Nat) : Dev :=
  let ms := max 100 (d.inF (Reg.HST_RP_PWR_ON_DELAY_MS n))
  if !(d.slot n).off then d
  else (d.updSlot n fun x => { x with off := false, pwrenAt := none, perstAt := some (d.clk.tick + 1 + ms * msTicks) }).later
    (Reg.HST_RP_POWERED n) 1

/-- SLOT_POWER_ON (R408). -/
def execSlotPowerOn (slot : BitVec 3) (s : State) : Host.Outcome State Fault Refusal := s.run fun d => d.slotOn slot.toNat

/-- SLOTn_PERST_N is released once its time has come. -/
def Dev.slotPerst (d : Dev) (n : Nat) : Dev :=
  match (d.slot n).perstAt with
  | some t => if t ≤ d.clk.tick then (d.updSlot n fun x => { x with perstAt := none }).put (Reg.HST_RP_PERST_ASSERTED n) 0 else d
  | none => d

/-- SLOT_PERST_RELEASE (R408). -/
def execSlotPerstRelease (slot : BitVec 3) (s : State) : Host.Outcome State Fault Refusal := s.run fun d => d.slotPerst slot.toNat

/-- Power Controller Control written 1: PERST_N at the next tick, PWREN low 1 ms later. That the data link goes down while the slot is
still powered is an event of its own (R409). -/
def Dev.slotOff (d : Dev) (n : Nat) : Dev :=
  if (d.slot n).off then d
  else
    let d := d.updSlot n fun x => { x with off := true, perstAt := none, pwrenAt := some (d.clk.tick + 1 + msTicks) }
    d.later (Reg.HST_RP_PERST_ASSERTED n) 1

/-- SLOT_POWER_OFF (R408). -/
def execSlotPowerOff (slot : BitVec 3) (s : State) : Host.Outcome State Fault Refusal := s.run fun d => d.slotOff slot.toNat

/-- SLOTn_PWREN is driven low once its time has come; an unpowered slot has no data link (DEDUCED). -/
def Dev.slotPwren (d : Dev) (n : Nat) : Dev :=
  match (d.slot n).pwrenAt with
  | some t => if t ≤ d.clk.tick then (((d.updSlot n fun x => { x with pwrenAt := none }).put (Reg.HST_RP_POWERED n) 0).put
    (Reg.HST_RP_LINK_UP n) 0).put (Reg.HST_RP_SPEED n) 0 else d
  | none => d

/-- SLOT_PWREN_OFF (R408). -/
def execSlotPwrenOff (slot : BitVec 3) (s : State) : Host.Outcome State Fault Refusal := s.run fun d => d.slotPwren slot.toNat

/-- ATTENTION_BUTTON_PRESSED (R408): the button has been low for 20 ms. -/
def execAttentionButtonPressed (slot : BitVec 3) (s : State) : Host.Outcome State Fault Refusal :=
  s.run fun d => d.slotChanged slot.toNat 1

/-- PRESENCE_DETECT_CHANGED (R409): a card is inserted. -/
def execPresenceDetectChanged (slot : BitVec 3) (s : State) : Host.Outcome State Fault Refusal :=
  s.run fun d => (d.put (Reg.HST_RP_PRESENT slot.toNat) 1).slotChanged slot.toNat 8

/-- ROOT_PORT_LINK_UP (R409): a powered slot's data link comes up. -/
def execRootPortLinkUp (slot : BitVec 3) (speed : BitVec 4) (s : State) : Host.Outcome State Fault Refusal :=
  s.run fun d =>
    let n := slot.toNat
    if !d.bit (Reg.HST_RP_POWERED n) || d.bit (Reg.HST_RP_PERST_ASSERTED n) || d.bit (Reg.HST_RP_LINK_UP n) then d
    else ((d.put (Reg.HST_RP_LINK_UP n) 1).put (Reg.HST_RP_SPEED n) speed.toNat).slotChanged n 0x100

/-- A slot loses its card, its data link while powered, or its power (R409): what 0, 1, 2. -/
def Dev.slotGone (d : Dev) (n what : Nat) : Dev :=
  if what == 1 && !(d.bit (Reg.HST_RP_POWERED n) && d.bit (Reg.HST_RP_LINK_UP n)) then d
  else
    let d := d.updSlot n fun x => { x with off := true, perstAt := none, pwrenAt := none }
    let d := ((d.putNow (Reg.HST_RP_PERST_ASSERTED n) 1).putNow (Reg.HST_RP_POWERED n) 0).putNow (Reg.HST_RP_LINK_UP n) 0
    let d := d.put (Reg.HST_RP_SPEED n) 0
    let d := if what == 0 then d.put (Reg.HST_RP_PRESENT n) 0 else d
    let d := if what == 2 then d.bump (Reg.HST_RP_POWER_FAULTS n) else d.bump (Reg.HST_RP_SURPRISE_REMOVALS n)
    (d.slotChanged n (if what == 0 then 8 else if what == 1 then 0x100 else 2)).slotLost n

/-- SLOT_SURPRISE_REMOVAL (R409). -/
def execSlotSurpriseRemoval (slot : BitVec 3) (what : Fin 3) (s : State) : Host.Outcome State Fault Refusal :=
  s.run fun d => d.slotGone slot.toNat what.val

/-! What an SSD sends (R407) -/

/-- An interrupt of a slot's SSD: a message to a channel. -/
def Dev.ssdInterrupt (d : Dev) (n off data : Nat) : Dev :=
  if d.bit (Reg.HST_RP_LINK_UP n) then d.unitPost (unitEnd (0x018 + n)) (off / 8) [data] else d

/-- SSD_INTERRUPT (R407): a write to offset off of the interrupt range. -/
def execSsdInterrupt (slot : BitVec 3) (offset : BitVec 16) (data : BitVec 32) (s : State) : Host.Outcome State Fault Refusal :=
  s.run fun d => d.ssdInterrupt slot.toNat offset.toNat data.toNat

/-- A memory request of an SSD: n bytes at an address read, or bytes written. Its answer to a read leaves with the tick; one
that the firewall refuses is logged and answered with nothing. -/
def Dev.ssdRequest (d : Dev) (n a len : Nat) (data : Option (List Byte)) : Dev :=
  let k : AccessKind := if data.isSome then .write else .read
  if !d.bit (Reg.HST_RP_LINK_UP n) then d
  else if 0xFEE00000 ≤ a && a < 0xFEE10000 then
    match data with
    | some l => d.ssdInterrupt n (a - 0xFEE00000) (leNat (l.take 4))
    | none => d
  else
    match d.firewall (.shoal (d.inF (Reg.HST_RP_DMA_SHOAL n))) a len k with
    | .granted =>
      match data with
      | some l => (match d.place a with
        | .host t off => if d.mayIssue t then d.emit (.hostWrite t (d.inF (Reg.HST_TEN_IOVA_BASE t) * 4096 + off) l) else d
        | .ddr | .hbm | .sram _ | .packet | .control _ | .hole => d.memWrite a l none none)
      | none => (match d.place a with
        | .host _ _ =>
          let (l, d) := d.freeBytes len
          d.emit (.ssdData n l)
        | .ddr | .hbm | .sram _ | .packet | .control _ | .hole => d.emit (.ssdData n (d.bytes a len)))
    | ans => d.reportFw ans (0x018 + n) n k a none none

/-- SSD_DMA_REQUEST (R407). -/
def execSsdDmaRequest (slot : BitVec 3) (addr : BitVec 64) (len : BitVec 13) (data : Option (List Byte)) (s : State) :
    Host.Outcome State Fault Refusal :=
  s.run fun d =>
    let l := data.map (fitBytes len.toNat)
    if len == 0 then d else d.ssdRequest slot.toNat addr.toNat len.toNat l

/-- An access of an agent to a slot's memory window. While the link is down a load returns all ones and is logged (as an access
that reaches nothing: DEDUCED), and a store is discarded. -/
def Dev.slotWindow (d : Dev) (ag : Agent) (n off : Nat) (store : Option Nat) : Dev :=
  if d.bit (Reg.HST_RP_LINK_UP n) then
    match store with
    | some v => d.emit (.slotWrite n off v)
    | none => d.emit (.slotRead n off)
  else match store with
    | some _ => d
    | none => d.reportCtl ag 0x13 (0x840000 + n * 0x10000 + off) 0

/-- SLOT_WINDOW_ACCESS (R407). -/
def execSlotWindowAccess (ag : Agent) (slot : BitVec 3) (offset : BitVec 16) (store : Option (BitVec 64)) (s : State) :
    Host.Outcome State Fault Refusal :=
  s.run fun d =>
    let off := 0x840000 + slot.toNat * 0x10000 + offset.toNat
    if store.isSome then d.byRight ag off fun d => d.slotWindow ag slot.toNat offset.toNat (store.map (·.toNat))
    else d.byRead ag off fun d => d.slotWindow ag slot.toNat offset.toNat none

/-! The private hierarchy (R406, R410) -/

/-- A dword of a root port's configuration header and PCI Express capability, which lies at 0x40 (PRESUMED). -/
def Dev.rootRead (d : Dev) (n reg : Nat) : Nat :=
  match reg with
  | 0x00 => 0xA938 * 65536 + 0xEC4A
  | 0x02 => 0x06040000 + 0x21
  | 0x03 => 0x00010000
  | 0x06 => (n + 1) * 65536 + (n + 1) * 256
  | 0x08 => (0x100 + n * 0x10) * 16 + (0x10F + n * 0x10) * 16 * 65536
  | 0x0D => 0x40
  | 0x10 => 0x0142 * 65536 + 0x10
  | 0x13 => 5 + 4 * 16
  | 0x14 => if d.bit (Reg.HST_RP_LINK_UP n) then (d.rd (Reg.HST_RP_SPEED n) + 4 * 16 + 0x2000) * 65536 else 0
  | 0x15 => 1 + 2 + 8 + 16 + 32 + 64 + 2 ^ 18 + (n + 1) * 2 ^ 19
  | 0x16 => (d.slot n).status * 65536 + (d.slot n).ctl + (if (d.slot n).off then 1024 else 0)
  | _ => 0

/-- A write to a root port: Slot Control, whose bit 10 is Power Controller Control, and Slot Status, whose events clear where ones
are written. -/
def Dev.rootWrite (d : Dev) (n reg v : Nat) : Dev :=
  if reg != 0x16 then d
  else
    let d := d.updSlot n fun x => { x with
      ctl := v % 65536 &&& (0x1FFF - 1024)
      status := x.status &&& (0xFFFF - (v / 65536 &&& 0x11F)) }
    if v.testBit 10 then d.slotOff n else d.slotOn n

/-- A configuration cycle begins; a GO while one is in progress is discarded. -/
def Dev.pcfg (d : Dev) (ag : Agent) (write : Bool) (bus dev fn reg : Nat) : Dev :=
  d.byRight ag 0x800048 fun d =>
    let d := ((d.putBit Reg.HST_PCFG_WRITE write).put Reg.HST_PCFG_BUS bus).put Reg.HST_PCFG_DEV dev
    let d := (d.put Reg.HST_PCFG_FN fn).put Reg.HST_PCFG_REG reg
    if d.bit Reg.HST_PCFG_BUSY then d
    else
      let d := { d with host := { d.host with pcfg := some ⟨d.clk.tick, write, bus, dev, fn, reg⟩ } }.put Reg.HST_PCFG_BUSY 1
      if bus == 0 then (if write && dev < 8 && fn == 0 then d.rootWrite dev reg (d.inF Reg.HST_PCFG_DATA) else d)
      else d.emit (.cfg write bus dev fn reg (if write then d.inF Reg.HST_PCFG_DATA else 0))

/-- PCFG_READ (R410). -/
def execPcfgRead (ag : Agent) (bus : BitVec 8) (dev : BitVec 5) (fn : BitVec 3) (reg : BitVec 10) (s : State) :
    Host.Outcome State Fault Refusal :=
  s.run fun d => d.pcfg ag false bus.toNat dev.toNat fn.toNat reg.toNat

/-- PCFG_WRITE (R410). -/
def execPcfgWrite (ag : Agent) (bus : BitVec 8) (dev : BitVec 5) (fn : BitVec 3) (reg : BitVec 10) (s : State) :
    Host.Outcome State Fault Refusal :=
  s.run fun d => d.pcfg ag true bus.toNat dev.toNat fn.toNat reg.toNat

/-- A configuration cycle ends: with an answer (0 OK, 1 UR, 2 CA), or with none in 50 ms (3). Bus 0 is the device's own. -/
def Dev.pcfgEnd (d : Dev) (status data : Nat) : Dev :=
  match d.host.pcfg with
  | none => d
  | some c =>
    let st := if c.bus == 0 then (if c.dev < 8 && c.fn == 0 then 0 else 1) else status
    let v := if c.bus == 0 then d.rootRead c.dev c.reg else data
    if st == 3 && d.clk.tick < c.tick + 50 * msTicks then d
    else
      let d := { d with host := { d.host with pcfg := none } }
      let d := (d.put Reg.HST_PCFG_BUSY 0).put Reg.HST_PCFG_CFG_STATUS st
      if st == 0 && !c.write then d.put Reg.HST_PCFG_DATA v else d

/-- PCFG_CYCLE_END (R410). -/
def execPcfgCycleEnd (status : Fin 4) (data : BitVec 32) (s : State) : Host.Outcome State Fault Refusal :=
  s.run fun d => d.pcfgEnd status.val data.toNat

end Sys2Proof.Machine
end

