-- ==== Sys2Proof/Machine/Tide.lean ====
section
/-! DEFINITION. Tide: the servo and its measurements, forced steps, the timing pins (chapter 02). -/

namespace Sys2Proof.Machine

open Sys2Proof

/-- RMAX, 200 ppm in units of 2^-32 (R47). -/
def rmax : Int := 858993

/-- Limit x to the range −m to m. -/
def clampTo (m x : Int) : Int := max (-m) (min m x)

/-- Arithmetic shift right (R47, R51). -/
def asr (x : Int) (n : Nat) : Int := x / (2 ^ n : Nat)

/-- A number of nanoseconds rounded toward zero to a multiple of 256 (R50, R51). -/
def roundSlot (x : Int) : Int := x.tdiv 256 * 256

/-- STEP_LIMIT in force; values below 256 act as 256 (Table 2.13). -/
def Dev.stepLimit (d : Dev) : Nat := max 256 (d.inF Reg.TIDE_LIMITS_STEP_LIMIT)

/-- Whether an offset is beyond the step limit (R47). -/
def Dev.beyondLimit (d : Dev) (off : Int) : Bool := off.natAbs > d.stepLimit * 65536

/-- Whether an offset is within the lock window (R48). -/
def Dev.inLockWindow (d : Dev) (off : Int) : Bool := off.natAbs ≤ d.inF Reg.TIDE_LIMITS_LOCK_THRESH * 65536

/-- The servo's state (Table 2.1). -/
def Dev.servoState (d : Dev) : Nat := d.rd Reg.TIDE_STATUS_STATE

/-- The rate shown and applied in each state (Table 2.1, Table 2.16). -/
def Dev.showServo (d : Dev) : Dev :=
  ((d.put Reg.TIDE_RATE_INTEG (wrap 32 d.servo.integ)).put Reg.TIDE_RATE_RATE (wrap 32 d.servo.rate)).put
    Reg.TIDE_OFFSET_LAST_OFFSET (wrap 64 d.servo.lastOffset)

/-- Enter FREERUN: rate 0. -/
def Dev.enterFreerun (d : Dev) : Dev :=
  ({ d with servo := { d.servo with rate := 0, lockCount := 0 } }.put Reg.TIDE_STATUS_STATE 0).showServo

/-- Enter HOLDOVER: the rate is integ, frozen (Table 2.1); the steward's interrupt is raised (R49). -/
def Dev.enterHoldover (d : Dev) : Dev :=
  let e := ({ d with servo := { d.servo with rate := d.servo.integ, lockCount := 0 } }.put Reg.TIDE_STATUS_STATE 3).showServo
  if d.servoState == 3 then e else e.mgmt .tide

/-- Enter ACQUIRE: the lock count starts at 0 and the source timeout runs from here (R48). -/
def Dev.enterAcquire (d : Dev) : Dev :=
  ({ d with servo := { d.servo with lockCount := 0, timeoutFrom := d.clk.tide } }.put Reg.TIDE_STATUS_STATE 1).showServo

/-- Count a measurement against the lock window, and enter LOCKED when the count reaches LOCK_COUNT (R48). -/
def Dev.countLock (d : Dev) (off : Int) : Dev :=
  let n := if d.inLockWindow off then d.servo.lockCount + 1 else 0
  let d := { d with servo := { d.servo with lockCount := n } }
  if d.servoState == 1 && d.inLockWindow off && n ≥ d.inF Reg.TIDE_LIMITS_LOCK_COUNT
  then d.put Reg.TIDE_STATUS_STATE 2 else d

/-- A requested step is refused (R49). -/
def Dev.refuseStep (d : Dev) : Dev :=
  ((d.raise Reg.TIDE_STATUS_STEP_REFUSED).bump Reg.TIDE_COUNTS_STEP_REFUSED).enterHoldover

/-- A Tide time after a step. DESIGN CHOICE (log 177): the spec is silent on a step that would move Tide time, or a time saved from before,
below 0; such a time becomes 0. -/
def movedTime (amt : Int) (t : Nat) : Nat := ((t : Int) + amt).toNat

/-- The times of a request and of an operation after a step (R54): with a forced step (its E0), work admitted before E0 is rebased, and
carries REBASED unless the amount is 0; work that came in the hold epoch keeps its times. -/
def Req.stepped (amt : Int) (q : Req) : Req := { q with time := movedTime amt q.time }
def Op.stepped (hold : Option Nat) (amt : Int) (o : Op) : Op :=
  let o := { o with since := movedTime amt o.since, handed := o.handed.map (movedTime amt),
                    ends := Tab.mapAll 0 o.ends fun _ x => movedTime (amt * 65536) x }
  if hold.any (· ≤ o.admitted) then o
  else { o with req := o.req.stepped amt, admitted := movedTime amt o.admitted,
                promise := if o.slack then o.promise else movedTime amt o.promise,
                delivered := o.delivered.map (movedTime amt), rebased := o.rebased || (hold.isSome && amt != 0) }

/-- The admission state after a step. -/
def Adm.stepped (amt : Int) (a : Adm) : Adm :=
  { a with
    entries := a.entries.map fun (e : Entry) => { e with admitted := movedTime amt e.admitted, promise := movedTime amt e.promise }
    waiting := a.waiting.map (Req.stepped amt) }

/-- An input of Breakwater after a step. -/
def AdmInput.stepped (amt : Int) (i : AdmInput) : AdmInput :=
  match i with
  | .request q => .request (q.stepped amt)
  | .byRate q p n => .byRate (q.stepped amt) (movedTime amt p) n
  | .slotStep | .epochStep | .releaseStage _ _ | .releaseFuture _ | .releaseSpace _ | .close _ _ => i

/-- What waits for a port, after a step: the ingress time of a PTP event message. -/
def TxWhat.stepped (amt : Int) (w : TxWhat) : TxWhat :=
  match w with
  | .frame b (some (k, t)) => .frame b (some (k, t + amt * 65536))
  | .frame _ none | .op _ | .resp _ | .again _ _ | .control _ _ _ _ _ => w

/-- Tide time steps by an amount (R50, R52), a forced one with its E0: outstanding work is rebased (R54), and every time that the device has
noted in order to measure an interval moves with it (DEDUCED: a step changes no interval). -/
def Dev.stepTime (d : Dev) (hold : Option Nat) (amt : Int) : Dev :=
  let f := movedTime amt
  let g := movedTime (amt * 65536)
  let sub (x : Int) : Int := x + amt * 65536
  { d with
    clk := { d.clk with tide := f d.clk.tide }
    servo := { d.servo with timeoutFrom := f d.servo.timeoutFrom, ppsEdge := d.servo.ppsEdge.map f,
                            ppsLast := d.servo.ppsLast.map fun x => (sub x).toNat }
    ops := d.ops.map (Op.stepped hold amt)
    adm := d.adm.stepped amt
    pair := { d.pair with other := d.pair.other.stepped amt, inputs := d.pair.inputs.map (AdmInput.stepped amt),
                          replay := d.pair.replay.map (AdmInput.stepped amt), refuse := d.pair.refuse.map (Req.stepped amt) }
    host := { d.host with
      reads := d.host.reads.map fun (r : HostRead) => { r with time := f r.time }
      readQ := d.host.readQ.map fun (r : HostRead) => { r with time := f r.time }
      posted := d.host.posted.map fun p => (p.1, p.2.map fun (b : Posted) => { b with time := f b.time })
      bellTimes := d.host.bellTimes.map fun p => (p.1, p.2.map fun b => (b.1, f b.2))
      flrFrom := d.host.flrFrom.map fun p => (p.1, p.2.map f)
      act := d.host.act.map fun (a : Activation) => { a with time := f a.time } }
    cal := { d.cal with busy := Tab.mapAll 0 d.cal.busy fun _ x => g x }
    cry := { d.cry with runs := d.cry.runs.map fun (r : LaRun) => { r with started := f r.started, from_ := g r.from_ } }
    net := { d.net with
      frames := d.net.frames.map fun (x : RxFrame) => { x with at_ := f x.at_, stamp := sub x.stamp }
      items := d.net.items.map fun (x : TxItem) => { x with what := x.what.stepped amt, since := f x.since }
      wire := d.net.wire.map fun p => (p.1, p.2.map fun (x : OnWire) => { x with start := g x.start, what := x.what.stepped amt })
      pauses := d.net.pauses.map fun p => (p.1, p.2.map f)
      xoff := d.net.xoff.map fun p => (p.1, p.2.map f)
      cutAt := d.net.cutAt.map fun p => (p.1, p.2.map f) }
    sw := { d.sw with conns := d.sw.conns.map fun p => (p.1,
      { p.2 with out := p.2.out.map fun (x : OutPsn) => { x with expiry := f x.expiry } }) } }

/-- Before release, a measurement beyond the limit steps Tide time at once, by the offset rounded toward zero to a multiple of 256 ns
(R50). -/
def Dev.freeStep (d : Dev) (off : Int) : Dev :=
  (d.stepTime none (off.tdiv (256 * 65536) * 256)).enterAcquire.countLock off

/-- integ and rate from an offset within the limit (R47); with FREQ_REF the integral stays as the reference set it. -/
def Dev.servoLaw (d : Dev) (off : Int) : Dev :=
  let integ := if d.on Reg.TIDE_CONTROL_FREQ_REF then d.servo.integ
    else clampTo rmax (d.servo.integ + asr off (d.inF Reg.TIDE_CONTROL_KI_SHIFT))
  let rate := clampTo rmax (integ + asr off (d.inF Reg.TIDE_CONTROL_KP_SHIFT))
  { d with servo := { d.servo with integ := integ, rate := rate } }

/-- One measurement is consumed (R46 to R50). -/
def Dev.measure (d : Dev) (off : Int) : Dev :=
  let d := { d with servo := { d.servo with lastOffset := off, timeoutFrom := d.clk.tide } }.showServo
  if d.beyondLimit off then
    if d.released then d.refuseStep else d.freeStep off
  else
    let d := d.servoLaw off
    if d.servoState == 1 then (d.countLock off).showServo
    else if d.servoState == 2 then (d.countLock off).showServo
    else (d.enterAcquire.countLock off).showServo

/-- TIDE_MEAS (R46): consumed when PTP is the source; a measurement of the step tick is discarded. -/
def execTideMeas (ag : Agent) (offset : BitVec 64) (s : State) : Host.Outcome State Fault Refusal :=
  s.run fun d => d.byRight ag 0x10028 fun d =>
    if d.clk.stepTick || d.inF Reg.TIDE_CONTROL_SOURCE != 1 then d else d.measure offset.toInt

/-- The offset of a PPS_IN edge in 2^-16 ns: the nearest whole second minus the edge, the later one at half way
(R46). -/
def ppsOffset (edge : Nat) : Int :=
  let sec := 1000000000 * 65536
  let n := (edge + sec / 2) / sec
  (n * sec : Nat) - (edge : Int)

/-- PPS_IN_EDGE (R56): edge is its timestamp in 2^-16 ns. An edge less than 0.5 s after the last accepted one is
ignored and counted. -/
def execPpsInEdge (edge : BitVec 80) (s : State) : Host.Outcome State Fault Refusal :=
  s.run fun d =>
    let d := ({ d with servo := { d.servo with ppsEdge := some d.clk.tide } }.put Reg.TIDE_STATUS_PPS_IN_PRESENT 1)
    let tooSoon := match d.servo.ppsLast with
      | none => false
      | some l => edge.toNat < l + 500000000 * 65536
    if tooSoon then d.bump Reg.TIDE_COUNTS_PPS_IGNORED
    else
      let d := { d with servo := { d.servo with ppsLast := some edge.toNat } }.put Reg.TIDE_PPS_IN_TS_EDGE_TIME (edge.toNat / 65536)
      if d.clk.stepTick || d.inF Reg.TIDE_CONTROL_SOURCE != 2 then d else d.measure (ppsOffset edge.toNat)

/-- Whether the source timeout has run out (R48): SOURCE_TIMEOUT milliseconds since the last measurement consumed, in a
state that follows a source. -/
def Dev.sourceTimedOut (d : Dev) : Bool :=
  (d.servoState == 1 || d.servoState == 2) &&
    d.servo.timeoutFrom + d.inF Reg.TIDE_LIMITS_SOURCE_TIMEOUT * 1000000 ≤ d.clk.tide

/-- SOURCE_TIMEOUT (R48): the source is lost and the servo holds over; before the time has run out nothing happens. -/
def execSourceTimeout (s : State) : Host.Outcome State Fault Refusal :=
  s.run fun d => d.when d.sourceTimedOut fun d => (d.raise Reg.TIDE_STATUS_SOURCE_LOST).enterHoldover

/-- REF10M_LOSS (R58). -/
def execRef10mLoss (s : State) : Host.Outcome State Fault Refusal :=
  s.run fun d => (d.raise Reg.TIDE_STATUS_REF10M_LOST).put Reg.TIDE_STATUS_REF10M_PRESENT 0

/-- REF10M_RETURN (R58): the servo again takes integ from the reference. -/
def execRef10mReturn (s : State) : Host.Outcome State Fault Refusal :=
  s.run fun d => d.put Reg.TIDE_STATUS_REF10M_PRESENT 1

/-- The value of a TIDE_FORCE_STEP write: GO, USE_SOURCE, AMOUNT (R51, R55). -/
def Dev.forceStep (d : Dev) (ag : Agent) (go useSource : Bool) (amount : Int) : Dev :=
  if !d.mayWrite ag 0x10040 || ag != .steward then d.discarded ag 0x10040
  else if !go then d
  else if d.bit Reg.TIDE_STATUS_ADMIT_HOLD || d.clk.stepTick then d.discarded ag 0x10040
  else ({ d with servo := { d.servo with phase := .requested, stepUseSource := useSource, stepAmount := amount } }.put
    Reg.TIDE_STATUS_STEP_PENDING 1).askEpoch .stepHold

/-- TIDE_FORCE_STEP (R51, R55): only the steward; during the hold it is discarded and logged. -/
def execTideForceStep (ag : Agent) (go useSource : Bool) (amount : BitVec 62) (s : State) :
    Host.Outcome State Fault Refusal :=
  s.run fun d => d.forceStep ag go useSource amount.toInt

/-- FORCED_STEP_HOLD (R52, step 1): at E0, ADMIT_HOLD sets. -/
def execForcedStepHold (s : State) : Host.Outcome State Fault Refusal :=
  s.run fun d => d.ifDue .stepHold fun d => d.when (d.servo.phase == .requested) fun d =>
    ({ d with servo := { d.servo with phase := .holding, holdFrom := d.clk.tide } }.put Reg.TIDE_STATUS_ADMIT_HOLD 1).askEpoch .stepApply

/-- The rounded amount of the forced step (R51): AMOUNT, or LAST_OFFSET at the end of the previous tick in whole ns. -/
def State.stepRounded (s : State) : Int :=
  roundSlot (if s.dev.servo.stepUseSource then asr s.prev.servo.lastOffset 16 else s.dev.servo.stepAmount)

/-- FORCED_STEP_APPLY (R52, step 2): at E1 the step tick begins; the amount is added at its end, and with it outstanding work is rebased
(R54), so that a completion has all its times, and REBASED, on one timescale. -/
def Dev.applyStep (d : Dev) (amt : Int) : Dev :=
  if d.servo.phase != .holding then d
  else
    let d := { d with servo := { d.servo with phase := .idle }, clk := { d.clk with stepTick := true, stepAdd := amt } }
    let d := (d.put Reg.TIDE_STATUS_ADMIT_HOLD 0).put Reg.TIDE_STATUS_STEP_PENDING 0
    if d.inF Reg.TIDE_CONTROL_SOURCE == 0 then d.enterFreerun else d.enterAcquire

/-- FORCED_STEP_APPLY. -/
def execForcedStepApply (s : State) : Host.Outcome State Fault Refusal :=
  s.run fun d => d.ifDue .stepApply fun d => d.applyStep s.stepRounded

/-- PPS_OUT may be driven (R57): ENABLE, and LOCKED, or HOLDOVER that is not squelched. -/
def Dev.ppsDriven (d : Dev) : Bool :=
  d.on Reg.TIDE_PPS_OUT_ENABLE &&
    (d.servoState == 2 || (d.servoState == 3 && !d.on Reg.TIDE_PPS_OUT_SQUELCH_HOLDOVER))

/-- The high time of PPS_OUT in ns: WIDTH_MS, 1 to 999; other values act as 100 (Table 2.19). -/
def Dev.ppsWidth (d : Dev) : Nat :=
  let w := d.inF Reg.TIDE_PPS_OUT_WIDTH_MS
  (if 1 ≤ w && w ≤ 999 then w else 100) * 1000000

/-- Whether PPS_OUT is within its high time at a Tide time: whole second plus OFFSET, for WIDTH_MS (R57). -/
def Dev.ppsHigh (d : Dev) (t : Nat) : Bool :=
  let x := ((t : Int) - sgn 32 (d.inF Reg.TIDE_PPS_OUT_OFFSET)) % 1000000000
  x < d.ppsWidth

/-- PPS_OUT_EDGE (R57): the pin takes the level that Tide time gives it; it is low when it is not driven. DESIGN CHOICE (log 178): where
PPS_OUT becomes driven in the middle of its high time the pin rises at once; R57 says only that it rises at the whole second plus OFFSET. -/
def execPpsOutEdge (s : State) : Host.Outcome State Fault Refusal :=
  s.run fun d => { d with servo := { d.servo with ppsOut := d.ppsDriven && d.ppsHigh d.clk.tide } }

/-- A load of Tide time (R498, Table 2.21), rounded down to 256 ns, while Breakwater is not released; of class TICK, it holds from the
boundary that ends the tick. -/
def Dev.timeInit (d : Dev) (v : Nat) : Dev :=
  let d := d.store Reg.TIDE_TIME_INIT_INIT v
  if d.released then d else { d with clk := { d.clk with load := some (v / 256 * 256) } }

/-- TIDE_TIME_INIT (R498). -/
def execTideTimeInit (ag : Agent) (init : BitVec 64) (s : State) : Host.Outcome State Fault Refusal :=
  s.run fun d => d.byRight ag 0x10060 fun d => d.timeInit init.toNat

/-- The servo at an epoch boundary: SOURCE = 0 in force gives FREERUN (R48), with rate 0; with FREQ_REF, integ comes from the count of
10 MHz cycles against 41,943.04 (R47), whatever SOURCE is, unless the reference is lost (R58) or the rate is frozen. DESIGN CHOICE
(log 33): this integ is limited to ±RMAX as that of a measurement is, and the rate keeps the phase term of the last measurement over it;
R47 gives no limit for this path and no moment for the new rate. -/
def Dev.servoEpoch (d : Dev) (cycles : Nat) : Dev :=
  let d := if d.inF Reg.TIDE_CONTROL_SOURCE == 0 then d.enterFreerun else d
  if d.on Reg.TIDE_CONTROL_FREQ_REF && d.bit Reg.TIDE_STATUS_REF10M_PRESENT && d.servoState != 3 then
    let integ := clampTo rmax (((cycles : Int) * 100 - 4194304) * 1024)
    let rate := if d.servoState == 0 then 0 else clampTo rmax (integ + (d.servo.rate - d.servo.integ))
    { d with servo := { d.servo with integ := integ, rate := rate } }.showServo
  else d

/-- PPS_IN_PRESENT falls 1.5 s after the last edge (Table 2.11). -/
def Dev.ppsPresence (d : Dev) : Dev :=
  match d.servo.ppsEdge with
  | some e => if e + 1500000000 < d.clk.tide then d.put Reg.TIDE_STATUS_PPS_IN_PRESENT 0 else d
  | none => d

end Sys2Proof.Machine
end

