-- ==== Sys2Proof/Machine/Control.lean ====
section
/-! DEFINITION. Control space as a whole: what any register reads as and what a write to any register does (chapter 00, R63,
R500), with the rules of access of each block. -/

namespace Sys2Proof.Machine

open Sys2Proof

/-! Where a register is -/

/-- The two indexes of an address in an array of registers. -/
def RegSpec.idx1 (r : RegSpec) (a : Nat) : Nat := if r.s1 == 0 then 0 else (a - r.base) / r.s1
def RegSpec.idx2 (r : RegSpec) (a : Nat) : Nat := if r.s1 == 0 || r.s2 == 0 then 0 else (a - r.base) % r.s1 / r.s2

/-- The register at an address. -/
def regAt (a : Nat) : Option RegSpec := allRegs.find? (·.covers a)

/-- The number that a register's select chooses; i is the register's first index. -/
def Dev.bankOf (d : Dev) (b : Bank) (i : Nat) : Nat :=
  match b with
  | .none => 0
  | .ct => d.ctSelected
  | .budget => bucketKey (d.inF Reg.BWK_BUDGET_SELECT_TID) (d.inF Reg.BWK_BUDGET_SELECT_CLASS)
  | .calTenant => d.inF Reg.CAL_TENANT_SELECT_TID
  | .calLeaf => d.inF Reg.CAL_LEAF_SELECT_LEAF
  | .calQueue => d.inF Reg.CAL_QUEUE_SELECT_PORT * 16 + d.inF Reg.CAL_QUEUE_SELECT_QUEUE
  | .gatePort => d.gatePort
  | .policer => d.inF Reg.CAL_POL_SELECT_POLICER
  | .qsample => d.inF Reg.CAL_QSAMPLE_QTYPE * 2 ^ 24 + d.inF Reg.CAL_QSAMPLE_QINDEX
  | .txTid => d.inF Reg.PRS_TX_SELECT_TX_TID
  | .reefTid => d.inF Reg.REEF_TENANT_SELECT_TID
  | .conn => d.inF Reg.SWH_CONN_SELECT_CONN
  | .window => d.inF Reg.SWH_WIN_SELECT_WINDOW
  | .swhTid => d.inF Reg.SWH_TENANT_SELECT_TID
  | .stgTid => d.inF Reg.STG_FN_SELECT_TID
  | .ns => d.inF Reg.STG_NS_SELECT_TID * 32 + d.inF Reg.STG_NS_SELECT_NSID_M1
  | .backend => d.inF Reg.STG_BE_SELECT_BACKEND
  | .cryTid => d.inF Reg.CRY_TENANT_SELECT_TID
  | .keySlot => d.inF Reg.CRY_SLOT_SELECT_SLOT
  | .hstTid => d.inF Reg.HST_TENANT_SELECT_TID
  | .region => d.inF Reg.MEM_FW_SELECT_REGION
  | .strand => d.inF Reg.HDL_STRAND_SELECT_WORD
  | .qmon => d.inF Reg.MON_QMON_SELECT_QMON
  | .tenQ => qKey (d.inF (Reg.TEN_QSEL_QTYPE i)) (d.inF (Reg.TEN_QSEL_QINDEX i))

/-- A field of the register at an address, as its own index and the selected number place it; WRITE_REFUSED is one bit for every
contract and budget (R99). -/
def Dev.fieldAt (d : Dev) (r : RegSpec) (a : Nat) (f : Fld) : Fld :=
  if f.key == (Reg.BWK_CT_DATA_WRITE_REFUSED 0).key then f
  else f.shift (a - r.base + bankStep * d.bankOf r.bank (r.idx1 a))

/-! What fields that are not stored read as -/

/-- A truth value as a bit. -/
def bitNat (b : Bool) : Nat := if b then 1 else 0

/-- The admission state that a read of a unit's range shows (R98): the unit's own copy while it is active, stands by or drains,
else that of the unit in charge, else none. -/
def Dev.admOf (d : Dev) (u : Nat) : Option Adm :=
  if d.unitState u == 4 then some d.pair.other
  else if d.activeUnit.isSome || d.pair.draining.isSome then some d.adm
  else none

/-- A view: a field, and what it reads as from the device at the end of the previous tick, the device now, the unit addressed,
the register's two indexes and the selected number. -/
abbrev View := Fld × (Dev → Dev → Nat → Nat → Nat → Nat → Nat)

/-- Identity, Tide, Breakwater. -/
def viewsCore : List View :=
  [(Reg.DEV_DIE_DIE_NUMBER, fun _ _ _ _ _ _ => 1 + Config.dieNumber % (2 ^ 64 - 2)),
   (Reg.DEV_STATUS_TEST_MODE, fun p _ _ _ _ _ => bitNat p.boot.testMode),
   (Reg.DEV_STATUS_BREAKWATER_RELEASED, fun p _ _ _ _ _ => bitNat p.released),
   (Reg.DEV_STATUS_KEY_LOCKED, fun p _ _ _ _ _ => p.inF Reg.HDL_CONTROL_KEY_LOCK),
   (Reg.TIDE_TIME_TIME, fun _ d _ _ _ _ => d.clk.tide % 2 ^ 64),
   (Reg.TIDE_SLOT_SEQ_SLOT_SEQ, fun p _ _ _ _ _ => p.clk.slotSeq % 2 ^ 64),
   (Reg.BWK_ENV_SPRING_OFFERED, fun p _ _ _ _ _ => bitNat (p.inF Reg.BWK_ENV_HOST_READ_BOUND ≤ 1500)),
   (Reg.BWK_BUDGET_TOKENS_TOKENS, fun p d u _ _ _ =>
     match p.admOf u with
     | some a => Tab.get 0 a.tokens (d.bankOf .budget 0) % 2 ^ 32
     | none => 0),
   (Reg.BWK_DEADLINES_HIGH_WATER 0, fun p _ _ u _ _ => match p.admOf u with | some a => a.high | none => 0),
   (Reg.BWK_DEADLINES_IN_FLIGHT 0, fun p _ _ u _ _ => match p.admOf u with | some a => a.entries.length | none => 0),
   (Reg.BWK_COUNT_COUNT 0 0, fun p _ u c n _ => match p.admOf u with | some a => Tab.get 0 a.counts (countKey c n) | none => 0)]

/-- The resource that CAL_INSPECT names, and its slot. -/
def Dev.inspected (d : Dev) : Res := ⟨d.inF Reg.CAL_INSPECT_RES, d.inF Reg.CAL_INSPECT_INSTANCE, d.on Reg.CAL_INSPECT_DIR⟩
def Dev.inspectSlot (d : Dev) : Nat := d.clk.slotSeq + d.inF Reg.CAL_INSPECT_SLOT_AHEAD

/-- Calendars. -/
def viewsCal : List View :=
  [(Reg.CAL_BOOKED_GATE_STANDING, fun p d _ _ _ _ => p.gateStanding d.inspected (p.clk.slotSeq + d.inF Reg.CAL_INSPECT_SLOT_AHEAD)),
   (Reg.CAL_BOOKED_SPRING, fun p d _ _ _ _ => p.booked d.inspected (p.clk.slotSeq + d.inF Reg.CAL_INSPECT_SLOT_AHEAD) 0),
   (Reg.CAL_BOOKED_FLOOD, fun p d _ _ _ _ => p.booked d.inspected (p.clk.slotSeq + d.inF Reg.CAL_INSPECT_SLOT_AHEAD) 1),
   (Reg.CAL_BOOKED_NEAP, fun p d _ _ _ _ => p.booked d.inspected (p.clk.slotSeq + d.inF Reg.CAL_INSPECT_SLOT_AHEAD) 2),
   (Reg.CAL_CAPACITY_UNIT, fun _ d _ _ _ _ => resUnit d.inspected.kind),
   (Reg.CAL_CAPACITY_CAPACITY, fun p d _ _ _ _ => p.capacity d.inspected (p.clk.slotSeq + d.inF Reg.CAL_INSPECT_SLOT_AHEAD)),
   (Reg.CAL_PKT_SPACE_SPACE_IN_USE_KIB, fun p _ _ _ _ _ => ceilDiv p.adm.space 1024),
   (Reg.CAL_GATE_CYCLE_ADMIN_CYCLE_NS 0, fun p _ _ _ _ k =>
     (((List.range (p.rd (Reg.CAL_GATE_CTRL_ADMIN_LEN k))).map fun e => gateNs (p.rd (Reg.CAL_GATE_ENTRY_W k e))).sum) % 2 ^ 32),
   (Reg.CAL_QSAMPLE_DEPTH, fun p d _ _ _ _ => (Tab.get (0, 0) p.cal.samples (d.bankOf .qsample 0)).1),
   (Reg.CAL_QSAMPLE_DELAY, fun p d _ _ _ _ => (Tab.get (0, 0) p.cal.samples (d.bankOf .qsample 0)).2)]

/-- The members in RUN of the group that names a thread; none where no group does (R160). -/
def Dev.groupRun (d : Dev) (t : Nat) : List Nat :=
  match (List.range 8).find? (fun g => (d.groupMembers (shoalOf t) g).contains t) with
  | some g => (d.groupMembers (shoalOf t) g).filter (fun x => (d.thr x).st == 1)
  | none => []

/-- Entry j of a thread's wait set, as a channel. -/
def Dev.waitCh (d : Dev) (s t j : Nat) : Nat := match (d.thr (s * 64 + t)).waits[j]? with | some w => w.1 | none => 0

/-- Shoals. -/
def viewsShl : List View :=
  [(Reg.SHL_DBG_DATA 0, fun p d _ s _ _ => p.debugItem (s * 64 + d.inF (Reg.SHL_DBG_SELECT_THREAD s)) (d.inF (Reg.SHL_DBG_SELECT_ITEM s))),
   (Reg.SHL_CORE_THREAD_STATE 0 0, fun p _ _ s c _ =>
     ((List.range 8).map fun k => (p.thr (s * 64 + c * 8 + k)).st * 16 ^ k).sum),
   (Reg.SHL_THR_OWED_TICKS 0 0, fun p _ _ s t _ => (p.thr (s * 64 + t)).owed),
   (Reg.SHL_THR_BOOKED 0 0, fun p _ _ s t _ => bitNat (p.bookedIndex (s * 64 + t)).isSome),
   (Reg.SHL_THR_WAITING 0 0, fun p _ _ s t _ => bitNat (p.thr (s * 64 + t)).waiting),
   (Reg.SHL_THR_ARMED 0 0, fun p _ _ s t _ => bitNat ((p.thr (s * 64 + t)).waiting && p.armedIn (p.groupRun (s * 64 + t)) (s * 64 + t))),
   (Reg.SHL_THR_EFF_PRIORITY 0 0, fun p _ _ s t _ => p.effPriority (s * 64 + t)),
   (Reg.SHL_THR_STATE 0 0, fun p _ _ s t _ => (p.thr (s * 64 + t)).st),
   (Reg.SHL_THR_PC 0 0, fun p _ _ s t _ => let x := p.thr (s * 64 + t); if 2 ≤ x.st then x.pc else 0),
   (Reg.SHL_THR_WAIT_COUNT 0 0, fun p _ _ s t _ => (p.thr (s * 64 + t)).waits.length),
   (Reg.SHL_THR_WAIT_OVERFLOW 0 0, fun p _ _ s t _ => bitNat (p.thr (s * 64 + t)).overrun),
   (Reg.SHL_THR_WAIT_DIR 0 0, fun p _ _ s t _ => ((p.thr (s * 64 + t)).waits.zipIdx.map fun w => bitNat w.1.2 * 2 ^ w.2).sum),
   (Reg.SHL_THR_WAIT_CH3 0 0, fun p _ _ s t _ => p.waitCh s t 3),
   (Reg.SHL_THR_WAIT_CH2 0 0, fun p _ _ s t _ => p.waitCh s t 2),
   (Reg.SHL_THR_WAIT_CH1 0 0, fun p _ _ s t _ => p.waitCh s t 1),
   (Reg.SHL_THR_WAIT_CH0 0 0, fun p _ _ s t _ => p.waitCh s t 0),
   (Reg.SHL_CH_CLAIM 0 0, fun p _ _ s h _ => bitNat (p.claimIndex (s * 512 + h)).isSome),
   (Reg.SHL_CH_COUNT 0 0, fun p _ _ s h _ => (p.chan (s * 512 + h)).msgs.length)]

/-- The oldest entry of a port's transmit timestamp FIFO. -/
def Dev.stampHead (d : Dev) (p : Nat) : Option TxStamp := (Tab.get [] d.net.stamps p).head?

/-- A part of the oldest timestamp; 0 for an empty FIFO. -/
def Dev.stampPart (d : Dev) (p : Nat) (f : TxStamp → Nat) : Nat := match d.stampHead p with | some x => f x | none => 0

/-- Ports, Reef; a backend reads as unavailable while an activation holds (R350). -/
def viewsNet : List View :=
  [(Reg.MAC_TS_TX_TS_TIME 0, fun p _ _ i _ _ => p.stampPart i (·.ns)),
   (Reg.MAC_TS_SEQUENCE_ID 0, fun p _ _ i _ _ => p.stampPart i (·.seq)),
   (Reg.MAC_TS_DOMAIN 0, fun p _ _ i _ _ => p.stampPart i (·.domain)),
   (Reg.MAC_TS_MSG_TYPE 0, fun p _ _ i _ _ => p.stampPart i (·.type)),
   (Reg.MAC_TS_FRACTION 0, fun p _ _ i _ _ => p.stampPart i (·.frac)),
   (Reg.MAC_TS_COUNT 0, fun p _ _ i _ _ => (Tab.get [] p.net.stamps i).length),
   (Reg.REEF_STATUS_EM_ENTRIES, fun p _ _ _ _ _ => p.emEntries.length),
   (Reg.REEF_STATUS_PFX_ENTRIES, fun p _ _ _ _ _ => p.pfxList.length),
   (Reg.REEF_STATUS_PFX_PATH_BUSY, fun p _ _ _ _ _ => bitNat p.reef.pfxPath.isSome),
   (Reg.REEF_STATUS_EM_PATH_BUSY, fun p _ _ _ _ _ => bitNat p.reef.emPath.isSome),
   (Reg.REEF_STATUS_LEARNED_ENTRIES, fun p _ _ _ _ _ => (p.emEntries.filter (·.learned)).length),
   (Reg.REEF_TENANT_COUNT 0, fun p _ _ _ _ k => p.tenantLearned k),
   (Reg.REEF_LEARN_PORT_COUNT 0, fun p _ _ i _ _ => p.portLearned i),
   (Reg.STG_BE_AVAILABLE 0, fun p _ _ _ _ k => bitNat (p.backendUp k))]

/-- Tenant pages: the contract region shows the unit in charge. -/
def viewsTen : List View :=
  [(Reg.TEN_ID_STEWARD 0, fun _ _ _ t _ _ => bitNat (t == 0)),
   (Reg.TEN_ID_LINK 0, fun _ _ _ t _ _ => linkOf t),
   (Reg.TEN_ID_TID 0, fun _ _ _ t _ _ => t),
   (Reg.TEN_RQ_QUOTA 0, fun p _ _ t _ _ => p.ringQuota t 2),
   (Reg.TEN_CQ_QUOTA 0, fun p _ _ t _ _ => p.ringQuota t 1),
   (Reg.TEN_SQ_QUOTA 0, fun p _ _ t _ _ => p.ringQuota t 0),
   (Reg.KON_TOKENS_TOKENS 0 0, fun p _ _ t c _ => Tab.get 0 p.adm.tokens (bucketKey t c) % 2 ^ 32),
   (Reg.KON_BUDGET_DEPTH 0 0, fun p _ _ t c _ => p.inF (Reg.BWK_BUDGET_DATA_DEPTH (bucketKey t c))),
   (Reg.KON_BUDGET_RATE 0 0, fun p _ _ t c _ => p.inF (Reg.BWK_BUDGET_DATA_RATE (bucketKey t c))),
   (Reg.KON_CT_ENABLE 0 0, fun p _ _ t k _ => p.inF (Reg.BWK_CT_DATA_ENABLE (ctKey t (k / 3 + 1) (k % 3)))),
   (Reg.KON_CT_BOUND 0 0, fun p _ _ t k _ => p.inF (Reg.BWK_CT_DATA_BOUND (ctKey t (k / 3 + 1) (k % 3)))),
   (Reg.KON_COUNT 0 0, fun p _ _ t n _ => Tab.get 0 p.adm.counts (tenCountKey t (n / 4) (n % 4)))]

/-- A word of a record; 0 where there is none. -/
def recWord (r : Option ErrRec) (w : Nat) : Nat := match r with | some x => x.words.getD w 0 | none => 0

/-- A bin pair of a snapshot buffer. -/
def binPair (t : Tab Nat) (i : Nat) : Nat := Tab.get 0 t (2 * i) + Tab.get 0 t (2 * i + 1) * 2 ^ 32

/-- A snapshot buffer as its copy landed. -/
def Dev.bufAt (d : Dev) (b : Nat) : SnapBuf := Tab.get {} d.mon.bufs b

/-- Memory, error log, Headland, monitors. -/
def viewsSys : List View :=
  [(Reg.ERR_STATUS_FIFO_COUNT, fun p _ _ _ _ _ => p.log.fifo.length),
   (Reg.ERR_FIRST 0, fun p _ _ w _ _ => recWord p.log.first w),
   (Reg.ERR_LAST 0, fun p _ _ w _ _ => recWord p.log.last w),
   (Reg.HDL_STATUS_BOOT_SRC, fun p _ _ _ _ _ => bitNat p.boot.bootSrc),
   (Reg.HDL_FUSES_SHL_COUNTER, fun p _ _ _ _ _ => p.boot.shlCount),
   (Reg.HDL_FUSES_KEY_REVOKED, fun p _ _ _ _ _ => p.boot.revoked),
   (Reg.HDL_FUSES_HDL_COUNTER, fun p _ _ _ _ _ => p.boot.hdlCount),
   (Reg.HDL_STRAND_WORN 0, fun p _ _ _ _ k => bitNat (p.strandWorn k)),
   (Reg.HDL_STRAND_WORN_SOON 0, fun p _ _ _ _ k => bitNat (99000000 ≤ p.strandWear k)),
   (Reg.HDL_STRAND_WEAR 0, fun p _ _ _ _ k => p.strandWear k),
   (Reg.MON_POWER 0, fun p _ _ g _ _ => if p.clk.epochs == 0 then 0 else Config.powerEighths (p.clk.epochs - 1) g % 65536),
   (Reg.MON_SIG_SIG 0 2, fun _ _ _ t _ _ => (Config.bistExpect t).toNat % 2 ^ 64),
   (Reg.MON_SIG_SIG 0 3, fun _ _ _ t _ _ => (Config.bistExpect t).toNat / 2 ^ 64),
   (Reg.MON_BUF_READY 0, fun p _ _ b _ _ => bitNat (p.bufAt b).ready),
   (Reg.MON_BUF_SET_TYPE 0, fun p _ _ b _ _ => (p.bufAt b).setType),
   (Reg.MON_BUF_SET_INDEX 0, fun p _ _ b _ _ => (p.bufAt b).setIndex),
   (Reg.MON_BUF_SNAP_AT 0, fun p _ _ b _ _ => (p.bufAt b).at_),
   (Reg.MON_BUF_COUNT 0, fun p _ _ b _ _ => (p.bufAt b).set.count),
   (Reg.MON_BUF_SUM 0, fun p _ _ b _ _ => (p.bufAt b).set.sum),
   (Reg.MON_BUF_MAX 0, fun p _ _ b _ _ => (p.bufAt b).set.maxV),
   (Reg.MON_BUF_MIN 0, fun p _ _ b _ _ => (p.bufAt b).set.minV),
   (Reg.MON_BUF_ENV_LATE 0, fun p _ _ b _ _ => (p.bufAt b).set.envLate),
   (Reg.MON_BUF_LATE 0, fun p _ _ b _ _ => (p.bufAt b).set.late),
   (Reg.MON_BUF_MIN_MARGIN 0, fun p _ _ b _ _ =>
     if (p.bufAt b).setType == 2 then 0 else wrap 32 (p.bufAt b).set.minMargin),
   (Reg.MON_BUF_LAT_BIN 0 0, fun p _ _ b i _ => binPair (p.bufAt b).set.latBins i),
   (Reg.MON_BUF_MARGIN_BIN 0 0, fun p _ _ b i _ => binPair (p.bufAt b).set.marginBins i)]

/-- Every view. -/
def views : List View := viewsCore ++ viewsCal ++ viewsShl ++ viewsNet ++ viewsTen ++ viewsSys

/-! Reads (R3 to R9, R500) -/

/-- What hardware holds in a field of a claim channel's configuration (R151). -/
def Dev.claimField (p : Dev) (f : Fld) (s h : Nat) : Option Nat :=
  if f.key == (Reg.SHL_CH_ENABLE 0 0).key || f.key == (Reg.SHL_CH_PRODUCER 0 0).key || f.key == (Reg.SHL_CH_CONSUMER 0 0).key then
    if (p.claimIndex (s * 512 + h)).isNone then none
    else if f.key == (Reg.SHL_CH_ENABLE 0 0).key then some 1
    else if f.key == (Reg.SHL_CH_PRODUCER 0 0).key then some (p.chanProducer (s * 512 + h))
    else some (p.chanConsumer (s * 512 + h))
  else none

/-- What a field reads as now; p is the device at the end of the previous tick. A writable field reads as last written (R12), and
every other one as it stood then, but for what software has cleared since (R500). -/
def Dev.fieldNow (p d : Dev) (r : RegSpec) (a u : Nat) (f : Fld) : Nat :=
  let g := d.fieldAt r a f
  let old : Nat := match views.find? (fun v => v.1.key == f.key) with
    | some v => v.2 p d u (r.idx1 a) (r.idx2 a) (d.bankOf r.bank (r.idx1 a))
    | none => p.rd g
  let gone := Tab.get 0 d.regs.cleared g.key
  match f.acc with
  | .rw => if f.key == (Reg.SHL_DBG_DATA 0).key then old else (p.claimField f (r.idx1 a) (r.idx2 a)).getD (d.rd g)
  | .rwp | .rw1s => d.rd g
  | .wo => 0
  | .ro => old
  | .rw1c => old &&& (2 ^ f.width - 1 - gone)
  | .rc => if gone == 0 then old else f.rst

/-- The offset at which a control offset's register stands in the register tables: unit B's range shows unit A's registers below
0x0200, but for those that each unit has (R98). -/
def canonical (off : Nat) : Nat := if 0x30000 ≤ off && off < 0x30200 && off != 0x30050 then off - 0x10000 else off

/-- The unit of Breakwater whose range an offset lies in. -/
def unitOf (off : Nat) : Nat := if 0x30000 ≤ off && off < 0x40000 then 1 else 0

/-- The 64-bit value that the register at an address reads as; 0 for a reserved offset (R7). -/
def Dev.regValue (p d : Dev) (a u : Nat) : Nat :=
  match regAt a with
  | some r => (r.flds.map (fun f => Dev.fieldNow p d r a u f % 2 ^ f.width * 2 ^ f.lo)).sum
  | none => 0

/-- A read clears the RC fields that lie wholly within the half read (R4, R8). -/
def Dev.clearRead (d : Dev) (a : Nat) (half : Fin 3) : Dev :=
  match regAt a with
  | some r => d.each (r.flds.filter (fun f => f.acc == .rc && reaches half f)) fun d f => d.clearCount (d.fieldAt r a f)
  | none => d

/-- The half of a value that a read returns. -/
def halfOf (half : Fin 3) (v : Nat) : Nat :=
  if half.val == 0 then v % 2 ^ 32 else if half.val == 1 then v / 2 ^ 32 % 2 ^ 32 else v % 2 ^ 64

/-- Whether an offset lies in the register block of a port that is not active: reserved once the lanes are set, at release (R234). -/
def Dev.deadPort (d : Dev) (b : Nat) : Bool :=
  0x200000 ≤ b && b < 0x240000 && d.deadMac ((b - 0x200000) / 0x4000)

/-- Whether an offset below 0x0E0_0000 is reserved: no register, strand word or root port's window lies there (R7, R234). -/
def Dev.reservedAt (d : Dev) (b : Nat) : Bool :=
  d.deadPort b ||
    (!(0xB00000 ≤ b && b < 0xB08000) && !(0x840000 ≤ b && b < 0x8C0000) && (regAt (canonical b)).isNone)

/-- What the words of the strand and of root ports' windows, and every register, read as. -/
def Dev.wordValue (p d : Dev) (b : Nat) : Nat :=
  if 0xB00000 ≤ b && b < 0xB08000 then d.strandRead ((b - 0xB00000) / 8)
  else if d.deadPort b then 0
  else Dev.regValue p d (canonical b) (unitOf b)

/-- A read of control space (R3, R7, R30, R500): its value, and the device after it. -/
def Dev.ctlRead (p d : Dev) (ag : Agent) (off size : Nat) : Nat × Dev :=
  match accessHalf off size with
  | none => (0, d.reportCtl ag 0x12 off size)
  | some half =>
    let b := off / 8 * 8
    if 0xE00000 ≤ off then (0, d.reportCtl ag 0x13 off 0)
    else if 0x840000 ≤ b && b < 0x8C0000 then
      let n := (b - 0x840000) / 0x10000
      if d.bit (Reg.HST_RP_LINK_UP n) then
        let (v, d) := d.draw (2 ^ 64 - 1)
        (halfOf half v, d.slotWindow ag n (off % 0x10000) none)
      else (halfOf half (2 ^ 64 - 1), d.slotWindow ag n (off % 0x10000) none)
    else (halfOf half (Dev.wordValue p d b), if d.deadPort b then d else d.clearRead (canonical b) half)

/-! Writes -/

/-- The words whose fields are given by a format of their own, each field in one half: gate entries (Table 4.4), parser states and
transitions (Tables 10.3 and 10.4), header templates (R331). A 32-bit write changes the half that it addresses (R4). -/
def packedWord (a : Nat) : Bool :=
  (0x50000 ≤ a && a < 0x70000) || (0x310000 ≤ a && a < 0x312000) || (0x320000 ≤ a && a < 0x324000) || (0x580000 ≤ a && a < 0x600000)

/-- The bits of a packed word that are stored: of a header template, words 0 to 13, and HDR_LEN, L3_OFF and IPV6 of word 15 (R7, R331).
The reserved zeros of the other formats are stored, since the checks of their commits look at them (R118, R256). -/
def packedBits (a v : Nat) : Nat :=
  if a < 0x580000 then v
  else if a % 0x80 / 8 == 14 then 0
  else if a % 0x80 / 8 == 15 then v / 2 ^ 47 * 2 ^ 47
  else v

/-- A field takes its part of a written value by its access code (Table 0.2). -/
def Dev.writeField (d : Dev) (f : Fld) (half : Fin 3) (v : Nat) : Dev :=
  if packedWord f.addr then d.store f (packedBits f.addr (mergeHalf (d.rd f) half.val v))
  else if !reaches half f then d
  else match f.acc with
  | .rw | .rwp => d.storeBits f half v
  | .rw1c => d.clearBits f (bits (mergeHalf 0 half.val v) f.hi f.lo)
  | .rw1s => d.store f (d.rd f ||| bits (mergeHalf 0 half.val v) f.hi f.lo)
  | .ro | .wo | .rc => d

/-- A write of a register with no effect beyond its fields. -/
def Dev.writePlain (d : Dev) (a : Nat) (half : Fin 3) (v : Nat) : Dev :=
  match regAt a with
  | some r => d.each r.flds fun d f => d.writeField (d.fieldAt r a f) half v
  | none => d

/-- Whether a write would change a stored field of a register. -/
def Dev.wouldChange (d : Dev) (a : Nat) (half : Fin 3) (v : Nat) : Bool :=
  match regAt a with
  | some r => r.flds.any fun f => f.acc == .rw && d.wr (d.fieldAt r a f) half v != d.rd (d.fieldAt r a f)
  | none => false

/-- A write to a resource of a tenant whose TDI may be frozen (R401, R404). -/
def Dev.writeFrozen (d : Dev) (ag : Agent) (a tid : Nat) (half : Fin 3) (v : Nat) : Dev :=
  if d.frozen ag tid && d.wouldChange a half v then d.discarded ag a else d.writePlain a half v

/-- Tide: a measurement, a forced step and an initial time are 64-bit fields. -/
def Dev.writeTide (d : Dev) (ag : Agent) (a : Nat) (half : Fin 3) (v : Nat) : Dev :=
  if a == 0x10028 then
    if half.val == 2 && d.inF Reg.TIDE_CONTROL_SOURCE == 1 && !d.clk.stepTick then d.measure (sgn 64 v) else d
  else if a == 0x10040 then
    d.forceStep ag (halfBit half v 63) (halfBit half v 62) (if half.val == 2 then sgn 62 (v % 2 ^ 62) else 0)
  else if a == 0x10060 then (if half.val == 2 then d.timeInit v else d)
  else d.writePlain a half v

/-- Breakwater: the admission registers go to the active unit, those of a unit to it (R98, R142). -/
def Dev.writeBwk (d : Dev) (ag : Agent) (off : Nat) (half : Fin 3) (v : Nat) : Dev :=
  let a := canonical off
  if a == 0x20010 then d.writeContract ag half v off
  else if a == 0x20020 then d.writeBudget ag half v off
  else if a == 0x20038 then d.writeGovernor ag half v off
  else if a % 0x10000 == 0x208 then
    let u := unitOf off
    let d := d.when (halfBit half v 0) fun d => d.resetUnit ag u
    let d := d.when (halfBit half v 1) fun d => d.swapWrite ag u
    d.when (halfBit half v 2) fun d => d.recoverWrite ag u
  else d.writePlain a half v

/-- Calendars: a gate list's commit, and the settings of a policer, which are checked at the epoch boundary. -/
def Dev.writeCal (d : Dev) (ag : Agent) (a : Nat) (half : Fin 3) (v : Nat) : Dev :=
  if a == 0x40068 then d.writeGateCtrl ag half v
  else if a == 0x40088 || a == 0x40090 || a == 0x40098 then
    (d.writePlain a half v).askEpochBy (.policer (d.bankOf .policer 0)) ag
  else d.writePlain a half v

/-- The control bits of a thread, in ascending order (Table 6.13). -/
def Dev.writeThread (d : Dev) (ag : Agent) (t : Nat) (half : Fin 3) (v : Nat) : Dev :=
  let s := shoalOf t
  let d := d.writePlain (shlOff s (threadOff t)) half v
  let d := d.when (halfBit half v 3) fun d => d.askThread ag t none (.start t)
  let d := d.when (halfBit half v 4) fun d => d.askThread ag t (some (Reg.SHL_FAULT_RESET_REFUSED s)) (.reset t)
  let d := d.when (halfBit half v 5) fun d => d.askThread ag t (some (Reg.SHL_FAULT_HALT_REFUSED s)) (.halt t)
  let d := d.when (halfBit half v 6) fun d => d.askThread ag t none (.resume t)
  d.when (halfBit half v 7) fun d => d.askThread ag t (some (Reg.SHL_FAULT_HALT_REFUSED s)) (.step t)

/-- Shoals; while the BIST of a shoal runs, a write that would clear its DRAIN is discarded and logged (R471). -/
def Dev.writeShl (d : Dev) (ag : Agent) (a : Nat) (half : Fin 3) (v : Nat) : Dev :=
  let s := (a - 0x100000) / 0x10000
  let r := a % 0x10000
  if r == 8 && d.mon.bist == some s && d.bit (Reg.SHL_CTRL_DRAIN s) && d.wr (Reg.SHL_CTRL_DRAIN s) half v == 0 then d.discarded ag a
  else if r == 8 then (d.writePlain a half v).when (halfBit half v 1) fun d => d.askShoalReset ag s
  else if r == 0x70 then d.debugWrite ag s half v
  else if 0x400 ≤ r && r < 0x500 && r % 0x20 == 8 then
    let c := (r - 0x400) / 0x20
    let d := d.storeBits (Reg.SHL_CORE_START_MASK s c) half v
    if lowHalf half then d.askCore ag (s * 8 + c) (halfBit half v 8) else d
  else if 0x800 ≤ r && r < 0x1000 && r % 0x20 == 0 then d.writeThread ag (s * 64 + (r - 0x800) / 0x20) half v
  else if 0x2000 ≤ r && r < 0x4000 && r % 0x10 == 0 then d.configChannel ag (s * 512 + (r - 0x2000) / 0x10) half v
  else d.writePlain a half v

/-- Ports: a flush, and the next timestamp. -/
def Dev.writeMac (d : Dev) (a : Nat) (half : Fin 3) (v : Nat) : Dev :=
  let p := (a - 0x200000) / 0x4000
  let r := (a - 0x200000) % 0x4000
  if d.deadPort a then d
  else if p < 16 && r == 0x28 then d.each ((List.range 16).filter (fun q => halfBit half v q)) fun d q => d.flushQueue p q
  else if p < 16 && r == 0x60 then
    if halfBit half v 0 then { d with net := { d.net with stamps := Tab.upd [] d.net.stamps p (·.drop 1) } } else d
  else d.writePlain a half v

/-- Reef: GO with the fields of its register is a command; the steward's block alone (R300). -/
def Dev.writeReef (d : Dev) (ag : Agent) (a : Nat) (half : Fin 3) (v : Nat) : Dev :=
  if a == 0x400100 && halfBit half v 63 then
    d.stewardCmd ag (d.wr Reg.REEF_CMD_OP half v) (d.wr Reg.REEF_CMD_STATIC half v == 1) (d.wr Reg.REEF_CMD_TABLE half v)
      (d.wr Reg.REEF_CMD_KEY_LEN half v) (d.wr Reg.REEF_CMD_PREFIX_LEN half v)
      ((mergeHalf 0 half.val v).testBit 58 || mergeHalf 0 half.val v % 2 ^ 40 != 0)
  else d.writePlain a half v

/-- Swash: a connection's settings only while it is CLOSED (R305), its commands, and a window's commands. -/
def Dev.writeSwh (d : Dev) (ag : Agent) (a : Nat) (half : Fin 3) (v : Nat) : Dev :=
  if 0x500018 ≤ a && a ≤ 0x500040 then
    if d.connState (d.bankOf .conn 0) == 0 then d.writePlain a half v else d.swAlert Reg.SWH_ALERT_CFG_REFUSED
  else if a == 0x500048 then
    let d := d.when (halfBit half v 0) fun d => d.openWrite ag
    d.when (halfBit half v 1) fun d => d.closeWrite ag
  else if a == 0x500120 then
    let d := d.when (halfBit half v 0) fun d => d.rewriteWin ag
    d.when (halfBit half v 1) fun d => d.revokeWin (d.bankOf .window 0) 2
  else if a == 0x500138 then d.writeFrozen ag a (d.bankOf .swhTid 0) half v
  else d.writePlain a half v

/-- Storage: NVME_EN and namespaces of a frozen function are kept; AVAILABLE of a backend acts at its tick (R355). -/
def Dev.writeStg (d : Dev) (ag : Agent) (a : Nat) (half : Fin 3) (v : Nat) : Dev :=
  if a == 0x600018 then d.writeFrozen ag a (d.bankOf .stgTid 0) half v
  else if a == 0x600030 || a == 0x600038 then d.writeFrozen ag a (d.inF Reg.STG_NS_SELECT_TID) half v
  else d.writePlain a half v

/-- The command of a sealed channel (Table 14.5); other values of CMD do nothing, and end at once with result 5 (the
table names no other). -/
def Dev.chanDo (d : Dev) (c cmd k w : Nat) : Dev :=
  match cmd with
  | 1 => d.generate c k
  | 2 => d.load c k
  | 3 => d.unwrap c k w
  | 4 => d.wrapStart c k w
  | 5 => d.zeroSlot c k
  | _ => d.chanResult c 5

/-- Ciphers: slots take settings only while EMPTY; channels take their owner's writes alone (R373). -/
def Dev.writeCry (d : Dev) (ag : Agent) (a : Nat) (half : Fin 3) (v : Nat) : Dev :=
  let k := d.bankOf .keySlot 0
  if a == 0x700018 then
    let t := d.bankOf .cryTid 0
    let was := d.rd (Reg.CRY_TENANT_RX_OPEN t)
    let d := d.writePlain a half v
    if d.rd (Reg.CRY_TENANT_RX_OPEN t) != was then d.askEpochBy (.rxOpen t) ag else d
  else if a == 0x700028 || a == 0x700030 || a == 0x700038 then
    if d.slotState k != 0 then d.raise Reg.CRY_STATUS_SLOT_CFG_REFUSED
    else if d.inF (Reg.CRY_SLOT_OWNER_KIND k) == 0 then d.writeFrozen ag a (d.inF (Reg.CRY_SLOT_OWNER k)) half v
    else d.writePlain a half v
  else if a == 0x700048 then (if halfBit half v 0 then d.drainSlot ag else d)
  else if 0x700100 ≤ a && a < 0x700300 then
    let c := (a - 0x700100) / 0x80
    let r := (a - 0x700100) % 0x80
    if r == 0 then (if lowHalf half then d.lockChannel ag c (halfBit half v 1) (halfBit half v 0) else d)
    else if r == 8 then
      let cmd := d.wr (Reg.CRY_CHAN_CMD_CMD c) half v
      let slot := d.wr (Reg.CRY_CHAN_CMD_SLOT c) half v
      let record := d.wr (Reg.CRY_CHAN_CMD_RECORD c) half v
      if halfBit half v 63 then d.chanCommand ag c cmd slot record fun d => d.chanDo c cmd slot record
      else if d.ownsChannel ag c then d.writePlain a half v
      else d.discarded ag a
    else if 0x40 ≤ r then
      if !d.ownsChannel ag c then d.discarded ag a
      else if half.val == 2 then { d with cry := { d.cry with data := Tab.set 0 d.cry.data (8 * c + (r - 0x40) / 8) v } }
      else d
    else d
  else d.writePlain a half v

/-- Host: configuration cycles, quotas and bases of a tenant. -/
def Dev.writeHst (d : Dev) (ag : Agent) (a : Nat) (half : Fin 3) (v : Nat) : Dev :=
  if a == 0x800048 then
    if halfBit half v 63 then
      d.pcfg ag (d.wr Reg.HST_PCFG_WRITE half v == 1) (d.wr Reg.HST_PCFG_BUS half v) (d.wr Reg.HST_PCFG_DEV half v)
        (d.wr Reg.HST_PCFG_FN half v) (d.wr Reg.HST_PCFG_REG half v)
    else d.writePlain a half v
  else if a == 0x800030 || a == 0x800038 then d.writeFrozen ag a (d.bankOf .hstTid 0) half v
  else if 0x840000 ≤ a && a < 0x8C0000 then
    d.slotWindow ag ((a - 0x840000) / 0x10000) (a % 0x10000 + (if half.val == 1 then 4 else 0)) (some v)
  else d.writePlain a half v

/-- Memory: training, the firewall's set, which is checked at the epoch boundary, and DONE of a source. -/
def Dev.writeMem (d : Dev) (ag : Agent) (a : Nat) (half : Fin 3) (v : Nat) : Dev :=
  if a == 0x900008 then (if halfBit half v 63 then d.trainGo ag else d)
  else if 0x900108 ≤ a && a ≤ 0x900118 then (d.writePlain a half v).askEpochBy .fwCheck ag
  else if 0x901000 ≤ a && a < 0x901400 then (if halfBit half v 3 then d.sourceDone ag ((a - 0x901000) / 8) else d)
  else d.writePlain a half v

/-- A write that one agent alone may make (R460). -/
def Dev.onlyBy (d : Dev) (ag who : Agent) (a : Nat) (f : Dev → Dev) : Dev := if ag == who then f d else d.discarded ag a

/-- The error log: RING_BASE is stored only while ENABLE is 0. -/
def Dev.writeErr (d : Dev) (a : Nat) (half : Fin 3) (v : Nat) : Dev :=
  if a == 0xD00008 && d.bit Reg.ERR_CTRL_ENABLE then d else d.writePlain a half v

/-- Monitors: a snapshot, a binding, a self-test, and a pin's ENABLE, which only the steward writes (R479). -/
def Dev.writeMon (d : Dev) (ag : Agent) (a : Nat) (half : Fin 3) (v : Nat) : Dev :=
  if a == 0xC00008 then d.snap ag (halfBit half v 63) (halfBit half v 62) (bits (mergeHalf 0 half.val v) 1 0)
  else if a == 0xC00068 then
    let m := d.bankOf .qmon 0
    d.bindMonitor ag m (d.wr (Reg.MON_QMON_ENABLE m) half v == 1) (d.wr (Reg.MON_QMON_QTYPE m) half v) (d.wr (Reg.MON_QMON_QINDEX m) half v)
  else if a == 0xC00080 then
    let target := d.wr Reg.MON_BIST_TARGET half v
    let d := d.writePlain a half v
    if halfBit half v 63 then d.bistStart ag target else d
  else if 0xC00100 ≤ a && a < 0xC003A0 && ag != .steward then
    let i := (a - 0xC00100) / 8
    let d := d.writeField (Reg.MON_PIN_SEEN i) half v
    if d.wr (Reg.MON_PIN_ENABLE i) half v != d.rd (Reg.MON_PIN_ENABLE i) then d.discarded ag a else d
  else d.writePlain a half v

end Sys2Proof.Machine
end

