-- ==== Sys2Proof/Machine/Boot.lean ====
section
/-! DEFINITION. The start after CONFIGURE, zeroisation, power failure, updates, shoal reloads, and the fatal response
(chapters 16, 17 and 19). -/

namespace Sys2Proof.Machine

open Sys2Proof

/-! Release of Breakwater (R445, R450) -/

/-- Headland adds 1 to TRIES of the booted slot before it releases Breakwater; a host boot has no slot (R450). TRIES stays at 255. -/
def Dev.addTry (d : Dev) : Dev :=
  let a := d.rd Reg.HDL_STATUS_ACTIVE_SLOT
  let w := d.strandRead a
  let n := min 255 (w % 256 + 1)
  if a < 2 then (d.headlandStrand a (w / 256 * 256 + n)).put Reg.HDL_BOOT_TRIES n else d

/-- Whether the Breakwater BIST of both units has ended. -/
def Dev.bistEnded (d : Dev) : Bool := d.boot.bistA.isSome && d.boot.bistB.isSome

/-- Whether Headland still waits for RELEASE_GO (R443). -/
def Dev.waitsForGo (d : Dev) : Bool := d.bit Reg.HDL_STATUS_WAIT_STEWARD && !d.boot.releaseGo

/-- A write of BWK_RELEASE (R445): only Headland's. KEY_LOCK must be in force, so that one written in this tick does not count. -/
def Dev.bwkRelease (d : Dev) (ag : Agent) : Dev :=
  if ag != .headland || !d.on Reg.HDL_CONTROL_KEY_LOCK || !d.bit Reg.MEM_TRAIN_DONE || !d.bistEnded then d.discarded ag 0xA00008
  else if d.bit Reg.HDL_CONTROL_BWK_RELEASE || d.waitsForGo then d
  else (d.addTry.store Reg.HDL_CONTROL_BWK_RELEASE 1).ask .bwk

/-- BWK_RELEASE. -/
def execBwkRelease (ag : Agent) (s : State) : Host.Outcome State Fault Refusal := s.run fun d => d.bwkRelease ag

/-- The RESET-class registers that Breakwater's release takes: those of the ports, and the first ones of Reef and Swash. -/
def releaseTakes (a : Nat) : Bool := (0x200000 ≤ a && a < 0x240000) || a == 0x400000 || a == 0x500000

/-- What happens at the boundary of the release (R129, R233, R445, R473). -/
def Dev.releaseNow (d : Dev) : Dev :=
  let d := (d.commitReset releaseTakes).put Reg.MAC_LANE_MODE_MODE_IN_FORCE (d.rd Reg.MAC_LANE_MODE_LANE_MODE)
  let d := { d with clk := { d.clk with slotSeq := 0 }, reef := { d.reef with seed := d.inF Reg.REEF_CTRL_HASH_SEED } }
  let d := (d.releasePair.prsRelease).put Reg.HDL_STATUS_STAGE 8
  if d.boot.holdLow then d.pinResult 5 2 else d

/-! Zeroisation and self-test failures (R435, R436) -/

/-- ZEROISE (R436): everything that a tamper alarm erases, and the SPDM identity key. -/
def Dev.zeroise (d : Dev) (ag : Agent) : Dev :=
  if ag != .steward then d.discarded ag 0xA00008
  else
    let d := d.eraseKeys 2
    let d := { d with boot := { d.boot with identityKey := false } }
    (d.report { source := 0x050, kind := 0x37, sev := 2 }).mgmt .cry

/-- ZEROISE. -/
def execZeroise (ag : Agent) (s : State) : Host.Outcome State Fault Refusal := s.run fun d => d.zeroise ag

/-- Every slot is zeroised as ZERO does, and the wrapping key is cleared. -/
def Dev.zeroAll (d : Dev) : Dev :=
  let d := d.endSlotOps (fun _ => true) 3 false
  let waits := d.cry.wraps
  let d := { d with cry := { d.cry with wraps := [], wrapKey := none } }.put Reg.CRY_STATUS_WRAP_KEY_VALID 0
  let d := d.each waits fun d w => d.chanResult w.2.1 1
  d.each (d.listed (Reg.CRY_SLOT_STATE 0)) fun d k => d.emptySlot k

/-- SELFTEST_FAIL (R435): at power-up the start stops at stage ERROR; later every key goes, and the sealed channels answer with
result 4. The algorithm is its number in the order of R435, from 1. -/
def Dev.selftestFail (d : Dev) (algorithm : Nat) : Dev :=
  let early := d.rd Reg.HDL_STATUS_STAGE == 1
  let d := d.put Reg.HDL_STATUS_SELFTEST_FAIL 1
  if early then
    (d.put Reg.HDL_STATUS_STAGE 0x0F).report { source := 0x050, kind := 0x31, sev := 3, detail := algorithm }
  else
    let d := d.zeroAll
    let d := { d with cry := { d.cry with disabled := true } }.put Reg.HDL_STATUS_APPROVED 0
    (d.report { source := 0x050, kind := 0x31, sev := 2, detail := algorithm }).report { source := 0x050, kind := 0x37, sev := 2, detail := 1 }

/-- SELFTEST_FAIL. -/
def execSelftestFail (algorithm : BitVec 16) (s : State) : Host.Outcome State Fault Refusal :=
  s.run fun d => d.selftestFail algorithm.toNat

/-! The power-fail summary (R428, R455 to R458) -/

/-- The registers that words 0x011 to 0x01A take, with the unit that each is read for. -/
def summaryRegs : List (Nat × Nat) :=
  [(0xA00000, 0), (0xA00030, 0), (0xA00020, 0), (0x38, 0), (0x10010, 0), (0x10000, 0), (0x10008, 0), (0x20200, 0), (0x30200, 1), (0xD00018, 0)]

/-- A record's four words from strand word w on; a record not held is zero. -/
def summaryRec (w : Nat) (r : Option ErrRec) : List (Nat × Nat) := (List.range 4).map fun i => (w + i, recWord r i)

/-- The 64 records of the summary. -/
def Dev.summaryRecs (d : Dev) : List (Option ErrRec) :=
  [d.log.first, d.log.last] ++ (List.range 62).map fun i => d.log.recent[i]?

/-- The power-fail engine's words, in its order (R455, R456): before is the device at the end of the previous tick. -/
def Dev.summary (before d : Dev) (reason gen : Nat) : List (Nat × Nat) :=
  let now := { d with regs := { d.regs with cleared := [] } }
  let recs := d.summaryRecs
  [(0x010, reason * 2 ^ 56 + gen * 2 ^ 40 + d.short)] ++
  (summaryRegs.zipIdx.map fun r => (0x011 + r.2, Dev.regValue before now r.1.1 r.1.2)) ++
  (recs.zipIdx.flatMap fun r => summaryRec (0x100 + 4 * r.2) r.1) ++
  [(0x01F, gen * 2 ^ 40 + (recs.filterMap id).length)]

/-- GEN of the next summary. -/
def Dev.nextGen (d : Dev) : Nat := (bits (d.strandRead 0x010) 55 40 + 1) % 65536

/-- The power-fail engine starts. -/
def Dev.startSummary (before d : Dev) (reason : Nat) : Dev :=
  { d with boot := { d.boot with pfTodo := Dev.summary before d reason d.nextGen } }

/-- A fall of HOLDUP_WARN_N that is armed (R455); one that is not armed is noted (R473). -/
def Dev.holdupFall (before d : Dev) : Dev :=
  if !d.boot.holdArmed then { d with boot := { d.boot with holdLow := true } }
  else (Dev.startSummary before (d.put Reg.HDL_STATUS_HOLDUP_STOP 1) 1).report
    { source := 0x050, kind := 0x35, sev := 0, detail := d.nextGen }

/-- HOLDUP_WARN_N_FALL. -/
def execHoldupWarnNFall (s : State) : Host.Outcome State Fault Refusal := s.run fun d => Dev.holdupFall s.prev d

/-- The device-fatal response (R428, level 3): breakwater lost, FATAL, and the summary with REASON 2, unless one is being written. -/
def Dev.fatalResponse (before d : Dev) : Dev :=
  let d := (d.fatal before.adm).put Reg.ERR_STATUS_FATAL 1
  if d.pfRunning then d else Dev.startSummary before d 2

/-- The thermal trip (R494): THERMTRIP_N, the fatal response, no core or engine works on, and every port's transmitter is idle. -/
def Dev.thermalTrip (before d : Dev) : Dev :=
  if d.boot.thermTrip then d
  else
    let d := Dev.fatalResponse before { d with boot := { d.boot with thermTrip := true } }
    d.each ((List.range 16).filter d.portUp) fun d p => d.linkDown p none

/-! Updates (R449) -/

/-- The status of a Firmware Commit whose update ends with a result (PRESUMED NVM Express: Invalid Firmware Image, Internal Error). -/
def Dev.commitDone (d : Dev) (tid cid r : Nat) : Dev :=
  if r == 0 then d.adminDone tid cid 0 0 0 else if r == 2 then d.adminDone tid cid 1 7 0 else d.adminDone tid cid 0 6 0

/-- The end of an update by where it came from. An activation whose image fails ends with its Commit. -/
def Dev.updateEnds (d : Dev) (u : Update) (r : Nat) : Dev :=
  match u.src with
  | .xfer => d
  | .commit tid cid => d.commitDone tid cid r
  | .activate tid cid =>
    if r == 0 then d
    else ({ d with host := { d.host with act := none } }.put Reg.STG_STATUS_ACT_HOLD 0).commitDone tid cid r

/-- UPDATE_DONE (R449): the first update in order ends; flashOk says that the slot read back as written. -/
def execUpdateDone (flashOk : Bool) (s : State) : Host.Outcome State Fault Refusal :=
  s.run fun d => match d.boot.updates with
    | [] => d
    | u :: rest =>
      let (d, r) := { d with boot := { d.boot with updates := rest } }.runUpdate u flashOk
      (d.updateResult u r).updateEnds u r

/-! Components of the running bundle (R437, R443, R446) -/

/-- A field of entry i of a bundle: its TYPE, DEST and ARG. -/
def entryType (b : List Byte) (i : Nat) : Nat := leAt b (64 + 96 * i) 4
def entryDest (b : List Byte) (i : Nat) : Nat := leAt b (64 + 96 * i + 8) 8
def entryArg (b : List Byte) (i : Nat) : Nat := leAt b (64 + 96 * i + 24) 8

/-- Headland copies a component to its DEST, as the firewall grants it. -/
def Dev.copyComponent (d : Dev) (i : Nat) : Dev :=
  let l := component d.boot.running i
  let a := entryDest d.boot.running i
  if l.isEmpty then d
  else match d.firewall .headland a l.length .write with
    | .granted => d.memWrite a l none none
    | ans => d.reportFw ans 0x050 0 .write a none none

/-- A shoal's vectors and START_MASKs: 8 words, then 8 bytes. -/
def Dev.loadVectors (d : Dev) (s : Nat) (l : List Byte) : Dev :=
  d.each (List.range 8) fun d c =>
    (d.store (Reg.SHL_CORE_VECTOR s c) (leAt l (8 * c) 8 / 4)).store (Reg.SHL_CORE_START_MASK s c) (leAt l (64 + c) 1)

/-- The components of one shoal are loaded again: those of type 2 whose DEST lies in its SRAM, and its vectors. -/
def Dev.reloadShoal (d : Dev) (s : Nat) : Dev :=
  let b := d.boot.running
  d.each (List.range (components b)) fun d i =>
    if entryType b i == 2 && d.place (entryDest b i) == .sram s then d.copyComponent i
    else if entryType b i == 3 && entryArg b i == s then d.loadVectors s (component b i)
    else d

/-- Whether a shoal's BIST runs, or its last one failed (R471). -/
def Dev.shoalUnfit (d : Dev) (s : Nat) : Bool :=
  d.mon.bist == some s || ((d.rd Reg.MON_BIST_TESTED).testBit s && !(d.rd Reg.MON_BIST_PASS).testBit s)

/-- Headland serves a request for a shoal (R446), unless its BIST forbids it for now (R471). -/
def Dev.serveReq (d : Dev) (s : Nat) : Dev :=
  if !(d.rd Reg.HDL_SHOALS_PENDING).testBit s || d.shoalUnfit s then d
  else (d.reloadShoal s).shoalReleaseWrite .headland s

/-- HDL_SHOAL.REQ (R446): only the steward's; a shoal that is not held in reset has nothing to be loaded. -/
def Dev.shoalReq (d : Dev) (ag : Agent) (s : Nat) : Dev :=
  if ag != .steward then d.discarded ag 0xA00010
  else if !d.bit (Reg.SHL_STATUS_IN_RESET s) then d
  else (d.put Reg.HDL_SHOALS_PENDING (d.rd Reg.HDL_SHOALS_PENDING ||| 2 ^ s)).serveReq s

/-- SHOAL_REQ. -/
def execShoalReq (ag : Agent) (shoal : BitVec 4) (s : State) : Host.Outcome State Fault Refusal := s.run fun d => d.shoalReq ag shoal.toNat

/-! PORST_N (R487, R488, R498) -/

/-- The fall of PORST_N: everything volatile is lost. Of the strand's accepted writes, which complete in order, some first ones
complete; how many is free (R451): those older than 25 ticks are persistent already. A commit or an update that runs is cut short (R447, R449). -/
def Dev.powerOff (d : Dev) : Dev :=
  let d := d.blowCut.updateCut
  let (n, d) := d.draw d.strandAccepted.length
  let d := d.each (d.boot.strandQ.take n) Dev.strandPersist
  let b : Boot :=
    { inReset := true, hdlCount := d.boot.hdlCount, shlCount := d.boot.shlCount, revoked := d.boot.revoked, flashA := d.boot.flashA,
      flashB := d.boot.flashB, strand := d.boot.strand, wear := d.boot.wear }
  { Dev.reset with free := d.free, boot := b, cry := { derived := d.cry.derived } }

/-- PORST_N_FALL (R488): the device stays in reset while the pin is low. -/
def execPorstNFall (s : State) : Host.Outcome State Fault Refusal :=
  .next (if s.dev.boot.inReset then s else { s with dev := s.dev.powerOff, prev := s.dev.powerOff })

/-- PORST_N_RISE (R487): the straps are sampled, and the start begins at stage SELFTEST. -/
def execPorstNRise (bootSrc testMode : Bool) (oobAddr : BitVec 2) (s : State) : Host.Outcome State Fault Refusal :=
  let up (d : Dev) : Dev :=
    { d with boot := { d.boot with inReset := false, bootSrc := bootSrc, testMode := testMode, oobAddr := oobAddr.toNat } }
  .next (if s.dev.boot.inReset then { s with dev := up s.dev, prev := (up s.dev).seen } else s)

end Sys2Proof.Machine
end

