-- ==== Sys2Proof/Machine/Access.lean ====
section
/-! DEFINITION. Accesses to control space and tenant pages by every agent (chapters 00, 17 and 18). -/

namespace Sys2Proof.Machine

open Sys2Proof

/-! Headland's registers (R460) -/

/-- HDL_FUSE_COMMIT: with GO a commit, else the steward's fields are stored. -/
def Dev.writeFuse (d : Dev) (ag : Agent) (half : Fin 3) (v : Nat) : Dev :=
  let which := d.wr Reg.HDL_FUSE_CTL_WHICH half v
  if halfBit half v 63 then d.fuseGo ag which (d.wr Reg.HDL_FUSE_CTL_KEY_SET half v)
  else d.onlyBy ag .steward 0xA00028 fun d => d.writePlain 0xA00028 half v

/-- HDL_XFER_CTL: with GO a transfer, else the steward's fields are stored. A GO with OP 0 stores the fields alone: the transfer is
XFER_HOST_BOOT, which brings what the host returned. OP 3 is refused. -/
def Dev.writeXfer (d : Dev) (ag : Agent) (half : Fin 3) (v : Nat) : Dev :=
  let op := d.wr Reg.HDL_XFER_CTL_OP half v
  let len := d.wr Reg.HDL_XFER_CTL_LENGTH half v
  if halfBit half v 63 && op != 0 then d.xferUpdate ag op len
  else d.onlyBy ag .steward 0xA00048 fun d => d.writePlain 0xA00048 half v

/-- A write of an HDL_ register; several commands of one write act in ascending bit order. -/
def Dev.writeHdl (d : Dev) (ag : Agent) (a : Nat) (half : Fin 3) (v : Nat) : Dev :=
  if a == 0xA00008 then
    let d := d.when (halfBit half v 0) fun d => d.keyLock ag
    let d := d.when (halfBit half v 1) fun d => d.bwkRelease ag
    d.when (halfBit half v 2) fun d => d.zeroise ag
  else if a == 0xA00010 then
    let d := d.each ((List.range 16).filter fun s => halfBit half v s) fun d s => d.shoalReleaseWrite ag s
    d.each ((List.range 16).filter fun s => halfBit half v (16 + s)) fun d s => d.shoalReq ag s
  else if a == 0xA00028 then d.writeFuse ag half v
  else if a == 0xA00038 then
    let d := d.when (halfBit half v 0) fun d => d.confirm ag
    let d := d.when (halfBit half v 1) fun d => d.releaseGo ag
    d.when (halfBit half v 2) fun d => d.pfAck ag
  else if a == 0xA00048 then d.writeXfer ag half v
  else if a == 0xA00050 then d.writePlain a half v
  else d.onlyBy ag .steward a fun d => d.writePlain a half v

/-- Parser and classification: commits. -/
def Dev.writePrs (d : Dev) (ag : Agent) (a : Nat) (half : Fin 3) (v : Nat) : Dev :=
  if a == 0x300000 then d.progCommit ag half v
  else if a == 0x300038 then d.patCommit ag half v
  else d.writePlain a half v

/-! Any write to control space (R3, R4, R7, R30, R31, R63) -/

/-- A write to a register by its block. -/
def Dev.writeBlock (d : Dev) (ag : Agent) (b : Nat) (half : Fin 3) (v : Nat) : Dev :=
  match blockOf b with
  | 1 => d.writeTide ag b half v
  | 2 => d.writeBwk ag b half v
  | 3 => d.writeCal ag b half v
  | 4 => d.writeShl ag b half v
  | 5 => d.writeMac b half v
  | 6 => d.writePrs ag b half v
  | 7 => d.writeReef ag b half v
  | 8 => d.writeSwh ag b half v
  | 9 => d.writeStg ag b half v
  | 10 => d.writeCry ag b half v
  | 11 => d.writeHst ag b half v
  | 12 => d.writeMem ag b half v
  | 13 => d.writeHdl ag b half v
  | 15 => d.writeMon ag b half v
  | 16 => d.writeErr b half v
  | _ => d.writePlain b half v

/-- A write of control space by an agent: size and alignment, mapping, right, then the block. -/
def Dev.ctlWrite (d : Dev) (ag : Agent) (off size v : Nat) : Dev :=
  match accessHalf off size with
  | none => d.reportCtl ag 0x12 off size
  | some half =>
    let b := off / 8 * 8
    if 0xE00000 ≤ off then d.reportCtl ag 0x13 off 1
    else if 0xB00000 ≤ b && b < 0xB08000 then
      let w := (b - 0xB00000) / 8
      d.strandWrite ag w (mergeHalf (d.strandRead w) half.val v)
    else if d.reservedAt b then d
    else d.byRight ag b fun d => d.writeBlock ag b half v

/-- A write that an agent makes: the firewall has its say first over a thread's (R31). -/
def Dev.agentWrite (d : Dev) (ag : Agent) (off size v : Nat) : Dev :=
  if d.fwRefuses ag off then d.fwDenied ag off true else d.ctlWrite ag off size v

/-- REGISTER_WRITE (R63). -/
def execRegisterWrite (ag : Agent) (offset : BitVec 28) (size : BitVec 4) (value : BitVec 64) (s : State) :
    Host.Outcome State Fault Refusal :=
  s.run fun d => d.agentWrite ag offset.toNat size.toNat value.toNat

/-! Reads -/

/-- What an offset of a tenant page reads as, and whether it is a register of the tables, with its canonical address. -/
def Dev.pageAddr (d : Dev) (t off : Nat) : Option Nat :=
  let c := d.pageC t
  let k := d.pageK t
  if c ≤ off && off < c + 0x400 then some (0x10000000000 + 0x4000 * t + (off - c))
  else if k ≤ off && off < k + 0x400 then some (0x10000001000 + 0x4000 * t + (off - k))
  else none

/-- The value of a register of a tenant page. -/
def Dev.pageValue (p d : Dev) (t off : Nat) : Nat :=
  if d.nvmeOn t && off < 0x40 then Dev.nvRead p d t off
  else if 0x2000 ≤ off && off < 0x2400 then Tab.get 0 d.host.bells (t * 256 + (off - 0x2000) / 8)
  else match d.pageAddr t off with
    | some a => Dev.regValue p d a 0
    | none => 0

/-- The value of 8 bytes of a function's MSI-X table, or of its pending bits as they stood at the end of the previous tick (R500). -/
def Dev.msixValue (p d : Dev) (t off : Nat) : Nat :=
  if off < 0x1000 then
    Tab.get 0 d.host.msixTable (t * 1024 + off / 4) +
      (if off % 16 == 8 then bitNat (Tab.get true d.host.msixMask (t * 256 + off / 16)) else Tab.get 0 d.host.msixTable (t * 1024 + off / 4 + 1)) * 2 ^ 32
  else if 0x8000 ≤ off && off < 0x8020 then
    ((List.range 64).map fun i => bitNat (Tab.get false p.host.msixPending (t * 256 + (off - 0x8000) * 8 + i)) * 2 ^ i).sum
  else 0

/-- A host's read of a tenant page, or with bar2 of the MSI-X table (R388). -/
def Dev.pageRead (p d : Dev) (t : Nat) (bar2 : Bool) (off size : Nat) : Nat × Dev :=
  match accessHalf off size with
  | none => (0, if bar2 then d else d.pageBad t off size)
  | some half =>
    let b := off / 8 * 8
    if bar2 then (halfOf half (Dev.msixValue p d t b), d)
    else (halfOf half (Dev.pageValue p d t b), match d.pageAddr t b with
      | some a => if d.nvmeOn t && b < 0x40 then d else d.clearRead a half
      | none => d)

/-- RC_READ (R8, R9, R500): a read of a register by an agent, or of a tenant page by its host; fields of code RC are cleared. A thread
reads control space with a load, as its grants let it. -/
def execRcRead (ag : Agent) (page : Option (BitVec 9 × Bool)) (offset : BitVec 28) (size : BitVec 4) (tee : Bool) (s : State) :
    Host.Outcome State Fault Refusal :=
  s.run fun d =>
    let off := offset.toNat
    match page with
    | some (t, bar2) => d.barReq t.toNat tee (fun d => d) fun d =>
      let (v, d) := Dev.pageRead s.prev d t.toNat bar2 off size.toNat
      d.emit (.readBack off v)
    | none => d.byRead ag off fun d =>
      let (v, d) := Dev.ctlRead s.prev d ag off size.toNat
      d.emit (.readBack off v)

/-! Out-of-band access (R475, R476) and JTAG (R478) -/

/-- Whether an out-of-band request names a register: 8-byte aligned, and mapped. -/
def oobOffset (off : Nat) : Bool := off % 8 == 0 && off < 0xE00000

/-- Whether an out-of-band agent may write an offset. -/
def Dev.oobMay (d : Dev) (ag : Agent) (off : Nat) : Bool :=
  if 0xB00000 ≤ off && off < 0xB08000 then d.strandRegion ag ((off - 0xB00000) / 8) else d.mayWrite ag off

/-- A 64-bit write of an out-of-band agent: its answer code, and the device. One of a bad size or offset is logged as any other
agent's is (R3, R30). -/
def Dev.oobWrite (d : Dev) (ag : Agent) (off v : Nat) : Nat × Dev :=
  (if !oobOffset off then 2 else if d.oobMay ag off then 0 else 1, d.ctlWrite ag off 8 v)

/-- OOB_REGISTER_READ (R476): the endpoint answers from the end of stage SELFTEST. -/
def execOobRegisterRead (offset : BitVec 32) (s : State) : Host.Outcome State Fault Refusal :=
  s.run fun d => d.when (d.rd Reg.HDL_STATUS_STAGE != 1) fun d =>
    let (v, d) := Dev.ctlRead s.prev d .oob offset.toNat 8
    d.emit (if oobOffset offset.toNat then .oob 0 v else .oob 2 0)

/-- OOB_REGISTER_WRITE (R476). -/
def execOobRegisterWrite (offset : BitVec 32) (value : BitVec 64) (s : State) : Host.Outcome State Fault Refusal :=
  s.run fun d => d.when (d.rd Reg.HDL_STATUS_STAGE != 1) fun d =>
    let (c, d) := d.oobWrite .oob offset.toNat value.toNat
    d.emit (.oob c 0)

/-- CTLACC (R478): the access is made at Update-DR while DEBUG_EN is in force, and the next Capture-DR shows what became of it; an
access without DEBUG_EN is refused. -/
def execCtlacc (write : Bool) (offset : BitVec 28) (data : BitVec 64) (s : State) : Host.Outcome State Fault Refusal :=
  s.run fun d =>
    let d := d.tapLoad .ctlacc false
    let show_ (c v : Nat) (d : Dev) : Dev := { d with mon := { d.mon with tap := { d.mon.tap with ctlStatus := c, ctlData := v } } }
    if !d.on Reg.MON_DEBUG_EN then show_ 1 0 d
    else
      let d := d.raise Reg.MON_TAP_ACCESS_SEEN
      if write then
        let (c, d) := d.oobWrite .jtag offset.toNat data.toNat
        show_ (if c == 0 then 0 else 1) data.toNat d
      else
        let (v, d) := Dev.ctlRead s.prev d .jtag offset.toNat 8
        if oobOffset offset.toNat then show_ 0 v d else show_ 1 0 d

end Sys2Proof.Machine
end

