-- ==== Sys2Proof/Machine/Alu.lean ====
section
/-! DEFINITION. What Limoon's operations on registers and predicates compute (R177 to R181, R185, R210), and which encodings are
illegal by their fields (R176, R179, R181, R183, R190, R207). -/

namespace Sys2Proof.Machine

open Sys2Proof

/-! Integer operations -/

/-- The low 32 bits, as a word. -/
def low32 (x : Word) : BitVec 32 := x.setWidth 32
/-- A 32-bit result, sign-extended (R177). -/
def sext32 (x : BitVec 32) : Word := x.signExtend 64

/-- The number of 1 bits below bit n. -/
def onesBelow (x : Word) : Nat → Nat
  | 0 => 0
  | n + 1 => (if x.getLsbD n then 1 else 0) + onesBelow x n

/-- Leading zeros of a word: those above its highest 1 below bit n. -/
def leadingZeros (x : Word) : Nat → Nat
  | 0 => 64
  | n + 1 => if x.getLsbD n then 63 - n else leadingZeros x n

/-- Trailing zeros from bit 64 − n on. -/
def trailingZeros (x : Word) : Nat → Nat
  | 0 => 64
  | n + 1 => if x.getLsbD (63 - n) then 63 - n else trailingZeros x n

/-- The 8 bytes in reverse order. -/
def byteSwap (x : Word) : Word :=
  x.extractLsb' 0 8 ++ x.extractLsb' 8 8 ++ x.extractLsb' 16 8 ++ x.extractLsb' 24 8 ++
    x.extractLsb' 32 8 ++ x.extractLsb' 40 8 ++ x.extractLsb' 48 8 ++ x.extractLsb' 56 8

/-- The ALU (Table 7.3): w selects the W form, which legal encodings have for five operations. -/
def aluValue (op : AluOp) (w : Bool) (a b : Word) : Word :=
  let n := b.toNat % 64
  let m := b.toNat % 32
  match op, w with
  | .add, false => a + b
  | .add, true => sext32 (low32 a + low32 b)
  | .sub, false => a - b
  | .sub, true => sext32 (low32 a - low32 b)
  | .and, _ => a &&& b
  | .or, _ => a ||| b
  | .xor, _ => a ^^^ b
  | .andn, _ => a &&& ~~~b
  | .sll, false => a <<< n
  | .sll, true => sext32 (low32 a <<< m)
  | .srl, false => a >>> n
  | .srl, true => sext32 (low32 a >>> m)
  | .sra, false => a.sshiftRight n
  | .sra, true => sext32 ((low32 a).sshiftRight m)
  | .ror, _ => a.rotateRight n
  | .min, _ => if a.slt b then a else b
  | .max, _ => if a.slt b then b else a
  | .minu, _ => if a.ult b then a else b
  | .maxu, _ => if a.ult b then b else a
  | .clz, _ => BitVec.ofNat 64 (leadingZeros a 64)
  | .ctz, _ => BitVec.ofNat 64 (trailingZeros a 64)
  | .popc, _ => BitVec.ofNat 64 (onesBelow a 64)
  | .bswap, _ => byteSwap a

/-- Signed division at a width (R178): by zero all ones; the overflow case gives A. -/
def sdivAt {n : Nat} (a b : BitVec n) : BitVec n := if b = 0 then BitVec.allOnes n else a.sdiv b
/-- Unsigned division at a width. -/
def udivAt {n : Nat} (a b : BitVec n) : BitVec n := if b = 0 then BitVec.allOnes n else a / b
/-- Signed remainder at a width: by zero A, with the sign of A. -/
def sremAt {n : Nat} (a b : BitVec n) : BitVec n := if b = 0 then a else a.srem b
/-- Unsigned remainder at a width. -/
def uremAt {n : Nat} (a b : BitVec n) : BitVec n := if b = 0 then a else a % b

/-- Multiply and divide (Table 7.4). -/
def mulValue (op : MulOp) (w : Bool) (a b : Word) : Word :=
  match op, w with
  | .mul, false => a * b
  | .mul, true => sext32 (low32 a * low32 b)
  | .mulhs, _ => (a.signExtend 128 * b.signExtend 128).extractLsb' 64 64
  | .mulhu, _ => (a.setWidth 128 * b.setWidth 128).extractLsb' 64 64
  | .div, false => sdivAt a b
  | .div, true => sext32 (sdivAt (low32 a) (low32 b))
  | .divu, false => udivAt a b
  | .divu, true => sext32 (udivAt (low32 a) (low32 b))
  | .rem, false => sremAt a b
  | .rem, true => sext32 (sremAt (low32 a) (low32 b))
  | .remu, false => uremAt a b
  | .remu, true => sext32 (uremAt (low32 a) (low32 b))

/-- The immediate operations (R179). -/
def immValue (op : ImmOp) (a : Word) (imm : BitVec 12) : Word :=
  let x := imm.signExtend 64
  match op with
  | .add => a + x
  | .and => a &&& x
  | .or => a ||| x
  | .xor => a ^^^ x

/-- The ALU operation of an immediate shift. -/
def shfAlu (op : ShfOp) : AluOp :=
  match op with
  | .sll => .sll | .srl => .srl | .sra => .sra | .ror => .ror

/-- SHFI (R179). -/
def shfValue (op : ShfOp) (w : Bool) (a : Word) (amount : BitVec 6) : Word := aluValue (shfAlu op) w a (amount.setWidth 64)

/-- LIM and SHI (R179). -/
def limValue (imm : BitVec 17) : Word := imm.signExtend 64
/-- SHI: D shifted left by 16, with the immediate below. -/
def shiValue (old : Word) (imm : BitVec 16) : Word := (old <<< 16) ||| imm.setWidth 64

/-- A compare condition (Table 7.5). -/
def cmpValue (cc : CmpCond) (a b : Word) : Bool :=
  match cc with
  | .eq => a = b
  | .ne => !(a = b : Bool)
  | .lt => a.slt b
  | .ge => !a.slt b
  | .ltu => a.ult b
  | .geu => !a.ult b
  | .any => !(a &&& b = 0 : Bool)
  | .none => a &&& b = 0

/-- PLOG (R181). -/
def plogValue (op : PlogOp) (a b : Bool) : Bool :=
  match op with
  | .and => a && b
  | .or => a || b
  | .xor => a != b
  | .andn => a && !b
  | .orn => a || !b
  | .mov => a

/-! Memory operands -/

/-- The bytes of an access size. -/
def sizeBytes (z : MemSize) : Nat :=
  match z with
  | .b => 1 | .h => 2 | .w => 4 | .d => 8

/-- A loaded value in its register (R182). -/
def extend (n : Nat) (sext : Bool) (v : Nat) : Word :=
  if sext then
    if n == 1 then (BitVec.ofNat 8 v).signExtend 64
    else if n == 2 then (BitVec.ofNat 16 v).signExtend 64
    else if n == 4 then (BitVec.ofNat 32 v).signExtend 64
    else BitVec.ofNat 64 v
  else BitVec.ofNat 64 (v % 256 ^ n)

/-- The new memory value of an atomic of n bits (Table 7.6): the old value, B and D. -/
def atomValue {n : Nat} (op : AtomOp) (old b d : BitVec n) : BitVec n :=
  match op with
  | .swp => b
  | .add => old + b
  | .and => old &&& b
  | .or => old ||| b
  | .xor => old ^^^ b
  | .smax => if old.slt b then b else old
  | .umax => if old.ult b then b else old
  | .cas => if old = d then b else old

/-- The new memory value of a 32-bit or 64-bit atomic. -/
def atomNew (op : AtomOp) (wide : Bool) (old : Nat) (b d : Word) : Nat :=
  if wide then (atomValue op (BitVec.ofNat 64 old) b d).toNat else (atomValue op (BitVec.ofNat 32 old) (low32 b) (low32 d)).toNat

/-! Legal encodings -/

/-- Who may read or write a special register (Tables 7.8, 8.2). -/
inductive Level where | any | priv | never
deriving DecidableEq, Repr

/-- The special registers: read and write levels; none for a number that is not listed. -/
def srAccess (n : Nat) : Option (Level × Level) :=
  if n < 4 then some (.any, .never)
  else if n == 8 || n == 9 || n == 0xD || n == 0xE then some (.priv, .priv)
  else if n == 0xA || n == 0xB || n == 0xC then some (.priv, .never)
  else if 0x10 ≤ n && n < 0x14 then some (.priv, .priv)
  else if 0x18 ≤ n && n < 0x1C then some (.priv, .priv)
  else if n == 0x100 || n == 0x102 || n == 0x103 || n == 0x104 then some (.any, .never)
  else if n == 0x108 then some (.any, .any)
  else if 0x110 ≤ n && n < 0x114 then some (.any, .never)
  else if n == 0x118 then some (.any, .priv)
  else none

/-- Whether an ALU operation has a W form. -/
def aluHasW (op : AluOp) : Bool :=
  match op with
  | .add | .sub | .sll | .srl | .sra => true
  | .and | .or | .xor | .andn | .ror | .min | .max | .minu | .maxu | .clz | .ctz | .popc | .bswap => false

/-- Whether a multiply or divide has a W form. -/
def mulHasW (op : MulOp) : Bool :=
  match op with
  | .mul | .div | .divu | .rem | .remu => true
  | .mulhs | .mulhu => false

/-- Whether an instruction's fields are legal. -/
def limLegal (op : LimOp) : Bool :=
  match op with
  | .alu o w _ _ _ => !w || aluHasW o
  | .mul o w _ _ _ => !w || mulHasW o
  | .shfi o w _ _ amount => !w || (amount.toNat < 32 && o != .ror)
  | .plog o _ _ pb => o != .mov || pb == 0
  | .load z sext _ _ _ => !sext || z != .d
  | .ldx z sext _ _ _ _ => !sext || z != .d
  | .mfs _ sr => (srAccess sr.toNat).isSome
  | .mts _ sr => match srAccess sr.toNat with
    | some (_, w) => w != .never
    | none => false
  | .chGet _ _ _ n => 1 ≤ n.toNat && n.toNat ≤ 8
  | .imm _ _ _ _ | .lim _ _ | .shi _ _ | .cmp _ _ _ _ | .cmpi _ _ _ _ | .store _ _ _ _ | .stx _ _ _ _ _ | .atom _ _ _ _ _ _ => true
  | .br _ | .call _ | .jmpr _ | .callr _ | .fence _ | .dcinv _ | .dcinvall | .icinv | .trap _ | .brk | .xret | .stop => true
  | .chPut _ _ | .chSeal _ _ | .chTry _ _ | .dlchk _ _ _ | .dlleft _ _ | .pwOpen _ _ _ | .pwClose _ | .pwFree _ | .eng _ _ _ _ => true

/-- The registers that an instruction reads. -/
def limSources (op : LimOp) : List (BitVec 5) :=
  match op with
  | .alu _ _ _ a b | .mul _ _ _ a b | .cmp _ _ a b | .ldx _ _ _ _ a b | .chPut a b | .dlchk _ a b | .eng _ _ a b => [a, b]
  | .imm _ _ a _ | .shfi _ _ _ a _ | .cmpi _ _ a _ | .load _ _ _ a _ | .jmpr a | .callr a | .dcinv a | .mts a _ | .chSeal _ a | .chTry _ a
  | .chGet _ _ a _ | .dlleft _ a | .pwOpen _ _ a | .pwFree a => [a]
  | .shi d _ => [d]
  | .store _ d a _ => [d, a]
  | .stx _ _ d a b => [d, a, b]
  | .atom o _ _ d a b => if o == .cas then [d, a, b] else [a, b]
  | .lim _ _ | .plog _ _ _ _ | .br _ | .call _ | .fence _ | .dcinvall | .icinv | .trap _ | .brk | .xret | .stop | .mfs _ _ | .pwClose _ => []

/-- Whether an instruction reads memory, and whether it writes memory. -/
def limReads (op : LimOp) : Bool :=
  match op with
  | .load _ _ _ _ _ | .ldx _ _ _ _ _ _ | .atom _ _ _ _ _ _ => true
  | _ => false
/-- Whether an instruction writes memory. -/
def limWrites (op : LimOp) : Bool :=
  match op with
  | .store _ _ _ _ | .stx _ _ _ _ _ | .atom _ _ _ _ _ _ => true
  | _ => false

end Sys2Proof.Machine
end

