-- ==== Sys2Proof/Machine/Exceptions.lean ====
section
/-! DEFINITION. A thread's registers, waiting, exceptions, the return of its outstanding accesses, and what a tick boundary does to
threads (chapters 06 and 07). -/

namespace Sys2Proof.Machine

open Sys2Proof

/-! Registers (R172) -/

/-- A general register; g0 reads as zero. -/
def Thread.reg (x : Thread) (r : BitVec 5) : Word := if r = 0 then 0 else Tab.get 0 x.regs r.toNat

/-- A write to a general register: one to g0 is discarded, and a load still to come to the register no longer reaches it (R174). -/
def Thread.setReg (x : Thread) (r : BitVec 5) (v : Word) : Thread :=
  if r = 0 then x
  else { x with
    regs := Tab.set 0 x.regs r.toNat v
    loads := x.loads.map fun (a : MemAcc) => if a.reg == r.toNat then { a with reg := 0 } else a }

/-- A predicate; p0 reads as 1. -/
def Thread.pred (x : Thread) (p : BitVec 3) : Bool := p = 0 || x.preds.testBit p.toNat

/-- A write to a predicate; one to p0 is discarded. -/
def Thread.setPred (x : Thread) (p : BitVec 3) (b : Bool) : Thread :=
  if p = 0 then x
  else { x with preds := if b then x.preds ||| 2 ^ p.toNat else x.preds &&& (255 - 2 ^ p.toNat) }

/-- PC of the next instruction in order. -/
def Thread.nextPc (x : Thread) : Nat := (x.pc + 4) % 2 ^ 48

/-- The thread goes on to the next instruction. -/
def Thread.step1 (x : Thread) : Thread := { x with pc := x.nextPc }

/-! Waiting (R161) -/

/-- A thread began or ended waiting in this tick. -/
def Dev.stir (d : Dev) (t : Nat) : Dev := { d with shl := { d.shl with stirred := t :: d.shl.stirred } }

/-- A thread stops waiting. -/
def Dev.endWait (d : Dev) (t : Nat) : Dev :=
  if (d.thr t).waiting then (d.updThr t fun x => { x with waiting := false, waits := [], overrun := false }).stir t else d

/-- A channel instruction of a thread fails: it waits, and its wait set takes the channel and direction; a fifth one sets OVERFLOW. -/
def Dev.beginWait (d : Dev) (t ch : Nat) (send : Bool) : Dev :=
  let d := if (d.thr t).waiting then d else d.stir t
  d.updThr t fun x =>
    if x.waits.contains (ch, send) then { x with waiting := true }
    else if 4 ≤ x.waits.length then { x with waiting := true, overrun := true }
    else { x with waiting := true, waits := x.waits ++ [(ch, send)] }

/-! Exceptions (R194 to R198) -/

/-- An exception: number, detail, the addresses that EFPC, EPC and EADDR take, STORE and DELAYED. -/
structure Exc where
  num : Nat
  detail : Nat := 0
  efpc : Nat
  epc : Nat
  eaddr : Nat := 0
  store : Bool := false
  delayed : Bool := false
deriving DecidableEq, Repr

/-- ECAUSE at exception entry (Table 7.9), with MORE 0. -/
def Exc.cause (e : Exc) : Nat := bitNat e.store * 2 ^ 17 + bitNat e.delayed * 2 ^ 16 + e.detail % 256 * 256 + e.num

/-- Exception entry (R196); it ends waiting (R161). A thread without a handler, or inside one, is FAULTED, and the record's ADDRESS
is EADDR. -/
def Dev.takeExc (d : Dev) (t : Nat) (e : Exc) : Dev :=
  let d := d.endWait t
  let x := d.thr t
  if x.xbase == 0 || x.exl then
    (d.setThr t { x with st := 4, pc := e.efpc }).report
      { source := 0x020 + t / 64, subsrc := t / 64, kind := 0x18, sev := 1, addr := e.eaddr, thread := some t, detail := e.cause % 65536 }
  else
    d.setThr t { x with
      estate := x.priv
      efpc := e.efpc
      epc := e.epc
      eaddr := e.eaddr
      ecause := e.cause
      priv := true
      exl := true
      pc := (x.xbase + 64 * e.num) % 2 ^ 48 }

/-- A precise exception of the next instruction (R195): TRAP's EPC is the address after it. -/
def Dev.takePrecise (d : Dev) (t num detail eaddr : Nat) : Dev :=
  let x := d.thr t
  d.takeExc t { num := num, detail := detail, efpc := x.pc, epc := if num == 8 then x.nextPc else x.pc, eaddr := eaddr }

/-- A delayed fault is taken, where the thread may take it (R189, R197, R198, R200): a halted thread keeps it, a stopping one has it
in the log alone, and inside a handler a fault of an access from before it sets MORE. Whether an exception was taken. -/
def Dev.takeDelayed (d : Dev) (t : Nat) (a : MemAcc) (num detail : Nat) : Dev × Bool :=
  let x := d.thr t
  if x.st == 2 then (d.setThr t { x with parked := x.parked ++ [a] }, false)
  else if x.st != 1 || x.stopping then (d, false)
  else if x.exl && !a.inHandler then (d.setThr t { x with ecause := x.ecause ||| 2 ^ 18 }, false)
  else (d.takeExc t { num := num, detail := detail, efpc := a.pc, epc := x.pc, eaddr := a.addr, store := a.store || a.atomic,
                      delayed := true }, true)

/-! Outstanding accesses (R145, R197) -/

/-- Whether an access has its answer. -/
def MemAcc.answered (a : MemAcc) : Bool := a.fault.isSome || a.back.isSome

/-- A thread that has executed STOP enters STOPPED once nothing is outstanding (R189). -/
def Dev.finishStop (d : Dev) (t : Nat) : Dev :=
  let x := d.thr t
  if x.stopping && x.loads.isEmpty then d.setThr t { x with st := 3, stopping := false } else d

/-- An answered access returns: its register is written, or its fault is taken. Whether an exception was taken. -/
def Dev.returnAcc (d : Dev) (t : Nat) (a : MemAcc) : Dev × Bool :=
  let d := d.updThr t fun x => { x with loads := x.loads.filter (fun b => b.id != a.id) }
  match a.fault, a.back with
  | some (n, k), _ => let (d, b) := d.takeDelayed t a n k; (d.finishStop t, b)
  | none, some v =>
    ((if a.store || a.reg == 0 then d
      else d.updThr t fun x => { x with regs := Tab.set 0 x.regs a.reg (extend a.size a.sext v) }).finishStop t, false)
  | none, none => (d, false)

/-- LOAD_RETURN (R197): an outstanding access returns; one that has no answer yet does not. -/
def execLoadReturn (thread : BitVec 10) (access : Nat) (s : State) : Host.Outcome State Fault Refusal :=
  s.run fun d => match (d.thr thread.toNat).loads.find? (fun a => a.id == access) with
    | some a => if a.answered then (d.returnAcc thread.toNat a).1 else d
    | none => d

/-- Whether an outstanding access keeps an instruction from issuing: it loads a source register, or as many loads or stores are
outstanding as there may be. -/
def Thread.blockedBy (x : Thread) (op : LimOp) (a : MemAcc) : Bool :=
  (!a.store && a.reg != 0 && (limSources op).any (fun r => r.toNat == a.reg)) ||
  (limReads op && !a.store && 4 ≤ (x.loads.filter (fun b => !b.store)).length) ||
  (limWrites op && a.store && 8 ≤ (x.loads.filter (fun b => b.store)).length)

/-- The answered accesses that keep an instruction from issuing return, in order, until one raises an exception. -/
def Dev.settleAcc (d : Dev) (t : Nat) (op : LimOp) : List MemAcc → Dev × Bool
  | [] => (d, false)
  | a :: r =>
    if (d.thr t).blockedBy op a && a.answered then
      match d.returnAcc t a with
      | (d, true) => (d, true)
      | (d, false) => d.settleAcc t op r
    else d.settleAcc t op r

/-- The accesses of a thread that have not been performed: those without an answer. -/
def Thread.unperformed (x : Thread) : List Nat := (x.loads.filter (fun a => !a.answered)).map (·.id)

/-- Fences whose accesses have been performed are satisfied; one with INV then invalidates the core's data cache (R203). -/
def Dev.passFences (d : Dev) (t : Nat) : Dev :=
  let open_ := (d.thr t).unperformed
  let done (f : List Nat × Nat) : Bool := !f.1.any open_.contains
  let inv := (d.thr t).fences.any (fun f => done f && f.2.testBit 4)
  let d := if (d.thr t).fences.any done then d.updThr t fun x => { x with fences := x.fences.filter (fun f => !done f) } else d
  if inv then d.dropDcache (coreOf t) else d

/-- Whether a fence that is not satisfied holds an instruction back. -/
def Thread.fenced (x : Thread) (op : LimOp) : Bool :=
  x.fences.any fun f => (limReads op && (f.2.testBit 1 || f.2.testBit 4)) || (limWrites op && f.2.testBit 0)

/-! What a boundary does (R165 to R169) -/

/-- The faults that returned while a thread was HALTED are taken as it goes on (R189). Whether an exception was taken. -/
def Dev.takeParked (d : Dev) (t : Nat) : Dev × Bool :=
  let l := (d.thr t).parked
  let d := d.updThr t fun x => { x with parked := [] }
  l.foldl (fun (p : Dev × Bool) (a : MemAcc) => match a.fault with
    | some (n, k) => let (d, b) := p.1.takeDelayed t a n k; (d, p.2 || b)
    | none => p) (d, false)

/-- RESUME at its boundary (R169). -/
def Dev.resumeThread (d : Dev) (t : Nat) : Dev :=
  if (d.thr t).st == 2 then ((d.updThr t fun x => { x with st := 1 }).takeParked t).1 else d

/-- START at its boundary: an OFF or STOPPED thread whose core is free. -/
def Dev.startAt (d : Dev) (t : Nat) : Dev :=
  if ((d.thr t).st == 0 || (d.thr t).st == 3) && d.coreFree t then d.startThread t else d

end Sys2Proof.Machine
end

