-- ==== Sys2Proof/Machine/LoadStore.lean ====
section
/-! DEFINITION. Loads, stores, atomics, fences, caches and instruction fetch of threads (R182 to R188, R191 to R193, R201 to R203,
R215). -/

namespace Sys2Proof.Machine

open Sys2Proof

/-- What an instruction does: the device after it, or its precise exception as number, detail and EADDR. -/
abbrev Did := Except (Nat × Nat × Nat) Dev

/-! Checks at issue (R184, R192, R215) -/

/-- Whether n bytes from a lie wholly within a user range. -/
def Thread.userRange (x : Thread) (a n : Nat) : Bool :=
  let within (k : Nat) : Bool :=
    let lo := Tab.get 0 x.ranges (2 * k)
    let hi := Tab.get 0 x.ranges (2 * k + 1)
    lo < hi && lo ≤ a && a + n ≤ hi
  within 0 || within 1

/-- Whether n bytes from a lie wholly within the run of an open packet window (R215). -/
def Thread.inWindow (x : Thread) (a n : Nat) : Bool :=
  x.windows.any fun p =>
    let lo := packetBase + p.2 % 2 ^ 21 * 64
    lo ≤ a && a + n ≤ lo + 128 + ceilDiv (bits p.2 34 21) 64 * 64

/-- Whether an address lies in the control space, and in the packet buffer. -/
def Place.isControl (p : Place) : Bool := match p with | .control _ => true | _ => false
/-- Whether a place is the packet buffer. -/
def Place.isPacket (p : Place) : Bool := match p with | .packet => true | _ => false

/-- ACCESS details 3 and 4 of an access of n bytes at a, if it raises one. -/
def Dev.userFault (d : Dev) (t a n : Nat) : Option Nat :=
  let x := d.thr t
  if x.priv then none
  else if (d.place a).isControl then some 3
  else if (d.place a).isPacket then (if x.inWindow a n then none else some 4)
  else if x.userRange a n then none
  else some 4

/-- The checks of a load or store of n bytes: alignment, then the user ranges. -/
def Dev.checkAccess (d : Dev) (t a n : Nat) : Option (Nat × Nat × Nat) :=
  if a % n != 0 then some (3, 0, a)
  else match d.userFault t a n with
    | some k => some (4, k, a)
    | none => none

/-- The firewall's answer to a thread (R193, R421): control space by the blocks granted to its shoal, the rest by its regions. Offsets from
0x0E0_0000 on lie in no block, so no grant names them: R30 and R31 both speak of such an access, and the firewall's refusal comes first here
(DEDUCED, log entry 176). -/
def Dev.threadGrant (d : Dev) (t a n : Nat) (k : AccessKind) : FwAnswer :=
  match d.place a with
  | .control off => if d.ctlGrant (t / 64) (blockOf off) then .granted else .denied
  | .ddr | .hbm | .sram _ | .packet | .host _ _ | .hole => d.firewall (.shoal (t / 64)) a n k

/-- A refusal is logged, with the detail of its ACCESS exception. -/
def Dev.refuseAccess (d : Dev) (t a : Nat) (k : AccessKind) (ans : FwAnswer) : Nat × Dev :=
  (if ans == .hole then 1 else 2, d.reportFw ans (0x020 + t / 64) 0 k a none (some t))

/-! Caches (R144, R201) -/

/-- The key of a 64-byte line in a core's cache. -/
def lineKey (core a : Nat) : Nat := core * 2 ^ 42 + a / 64

/-- The line of an address that a core's data cache holds, unless it has been evicted: when that happens is free. -/
def Dev.cachedLine (d : Dev) (core a : Nat) : Option (List Byte) × Dev :=
  match d.shl.dcache.find? (fun p => p.1 == lineKey core a) with
  | none => (none, d)
  | some p =>
    let (v, d) := d.draw 1
    if v == 0 then (some p.2, d)
    else (none, { d with shl := { d.shl with dcache := d.shl.dcache.filter (fun q => q.1 != lineKey core a) } })

/-- A line enters a core's data cache. -/
def Dev.fillLine (d : Dev) (core a : Nat) (l : List Byte) : Dev :=
  { d with shl := { d.shl with dcache := Tab.set [] d.shl.dcache (lineKey core a) l } }

/-- A line leaves a core's data cache. -/
def Dev.dropLine (d : Dev) (core a : Nat) : Dev :=
  { d with shl := { d.shl with dcache := d.shl.dcache.filter (fun q => q.1 != lineKey core a) } }

/-- A store updates the line that the core holds; it allocates none. -/
def Dev.storeLine (d : Dev) (core a : Nat) (l : List Byte) : Dev :=
  match d.shl.dcache.find? (fun p => p.1 == lineKey core a) with
  | some p => d.fillLine core a (putData p.2 (a % 64) l)
  | none => d

/-! Accesses -/

/-- A thread's access becomes outstanding, with what is known of its return. -/
def Dev.outstanding (d : Dev) (t : Nat) (reg : BitVec 5) (z : Nat) (sext store : Bool) (a : Nat) (fault : Option (Nat × Nat))
    (back : Option Nat) (atomic : Bool := false) (undo : Option (List Byte × List Byte) := none) : Dev :=
  let x := d.thr t
  let acc : MemAcc := { id := x.nextLoad, pc := x.pc, reg := reg.toNat, size := z, sext := sext, store := store, addr := a,
                        fault := fault, back := back, inHandler := x.exl, atomic := atomic, undo := undo }
  let hide (b : MemAcc) : MemAcc := if !store && fault.isNone && b.reg == reg.toNat then { b with reg := 0 } else b
  d.setThr t { x with nextLoad := x.nextLoad + 1, loads := x.loads.map hide ++ [acc] }

/-- The bytes of a read from memory: poison fails it (R417, R420). -/
def Dev.memRead (d : Dev) (t a n : Nat) : Option (List Byte) × Dev :=
  if d.anyPoison a n then (none, d.reportMem 0x04 1 0 (a / 32 * 32) none (some t)) else (some (d.bytes a n), d)

/-- A read of DDR or HBM through the core's data cache. A line of which a part is poisoned is not kept. -/
def Dev.cachedRead (d : Dev) (t a n : Nat) : Option (List Byte) × Dev :=
  match d.cachedLine (coreOf t) a with
  | (some l, d) => (some (slice l (a % 64) n), d)
  | (none, d) =>
    match d.memRead t a n with
    | (none, d) => (none, d)
    | (some l, d) =>
      let line := a / 64 * 64
      (some l, if d.anyPoison line 64 then d else d.fillLine (coreOf t) a (d.bytes line 64))

/-- Something that a thread issues and a unit samples in the next tick (R60). -/
def Dev.addLater (d : Dev) (c : Later) : Dev := { d with shl := { d.shl with later := d.shl.later ++ [(d.clk.tick, c)] } }

/-- A load of n bytes at a into a register (R182): performed where the memory is the device's own; its register is written when it
returns. A load of a host window waits for its host, one of control space for the next tick, in which its block samples it. -/
def Dev.loadAt (d : Dev) (t : Nat) (reg : BitVec 5) (n : Nat) (sext : Bool) (a : Nat) : Did :=
  match d.checkAccess t a n with
  | some e => .error e
  | none =>
    match d.threadGrant t a n .read with
    | .granted =>
      let done (p : Option (List Byte) × Dev) : Dev := match p with
        | (some l, d) => d.outstanding t reg n sext false a none (some (leNat l))
        | (none, d) => d.outstanding t reg n sext false a (some (5, 1)) none
      .ok <| match d.place a with
        | .ddr | .hbm => done (d.cachedRead t a n)
        | .sram _ | .packet => done (d.memRead t a n)
        | .control off =>
          (d.outstanding t reg n sext false a none none).addLater (.ctl t (d.thr t).nextLoad off n none)
        | .host tid off =>
          let id := (d.thr t).nextLoad
          (d.outstanding t reg n sext false a none none).issueRead
            { link := linkOf tid, tag := 0, tid := tid, addr := d.inF (Reg.HST_TEN_IOVA_BASE tid) * 4096 + off, len := n,
              use := .thread t id, time := 0, booked := false }
        | .hole => d
    | ans =>
      let (k, d) := d.refuseAccess t a .read ans
      .ok (d.outstanding t reg n sext false a (some (4, k)) none)

/-- A store of n bytes of a value at a (R182); one to control space is sampled by its block in the next tick and outstanding until it is
performed, and one that is refused returns its fault later. -/
def Dev.storeAt (d : Dev) (t n a : Nat) (v : Word) : Did :=
  match d.checkAccess t a n with
  | some e => .error e
  | none =>
    match d.threadGrant t a n .write with
    | .granted =>
      let l := natLe n v.toNat
      .ok <| match d.place a with
        | .ddr | .hbm => (d.storeLine (coreOf t) a l).memWrite a l none (some t)
        | .sram _ | .packet => d.memWrite a l none (some t)
        | .control off =>
          (d.outstanding t 0 n false true a none none).addLater (.ctl t (d.thr t).nextLoad off n (some (leNat l)))
        | .host tid off =>
          if d.mayIssue tid then d.emit (.hostWrite tid (d.inF (Reg.HST_TEN_IOVA_BASE tid) * 4096 + off) l) else d
        | .hole => d
    | ans =>
      let (k, d) := d.refuseAccess t a .write ans
      .ok (d.outstanding t 0 n false true a (some (4, k)) none)

/-- Whether a memory takes atomics (R186). -/
def Place.atomic (p : Place) : Bool :=
  match p with
  | .ddr | .hbm | .sram _ | .hole => true
  | .packet | .control _ | .host _ _ => false

/-- The checks of an atomic: those of a store, then that its memory takes atomics. -/
def Dev.checkAtomic (d : Dev) (t a n : Nat) : Option (Nat × Nat × Nat) :=
  match d.checkAccess t a n with
  | some e => some e
  | none => if (d.place a).atomic then none else some (4, 6, a)

/-- The firewall's answer to a read and write. -/
def Dev.atomicGrant (d : Dev) (t a n : Nat) : FwAnswer :=
  match d.threadGrant t a n .read with
  | .granted => d.threadGrant t a n .write
  | ans => ans

/-- An atomic (R185, R186): performed at the memory; the core's line of the address is invalidated, and with acquire ordering its
whole data cache. -/
def Dev.atomicAt (d : Dev) (t : Nat) (op : AtomOp) (wide acquire : Bool) (reg : BitVec 5) (a : Nat) (b dv : Word) : Did :=
  let n := if wide then 8 else 4
  match d.checkAtomic t a n with
  | some e => .error e
  | none =>
    match d.atomicGrant t a n with
    | .granted =>
      .ok <| match d.memRead t a n with
        | (none, d) => d.outstanding t reg n false false a (some (5, 1)) none true
        | (some l, d) =>
          let new := natLe n (atomNew op wide (leNat l) b dv)
          let d := (d.memPut a new).dropLine (coreOf t) a
          (if acquire then d.dropDcache (coreOf t) else d).outstanding t reg n false false a none (some (leNat l)) true (some (l, new))
    | ans =>
      let (k, d) := d.refuseAccess t a .write ans
      .ok (d.outstanding t reg n false false a (some (4, k)) none true)

/-- FENCE (R203): accesses of the kinds given wait for those before them; with none to wait for, INV acts at once. -/
def Dev.fence (d : Dev) (t kind : Nat) : Dev :=
  let wait := if kind.testBit 3 then (d.thr t).unperformed else []
  if wait.isEmpty then (if kind.testBit 4 then d.dropDcache (coreOf t) else d)
  else d.updThr t fun x => { x with fences := x.fences ++ [(wait, kind)] }

/-! Instruction fetch (R188, R192) -/

/-- The ACCESS detail of a fetch at a thread's PC, if it raises one: 4 user level, 5 memory that holds no instructions, 2 no firewall grant
(R188, R192, R421). -/
def Dev.fetchFault (d : Dev) (t : Nat) : Option Nat :=
  let a := (d.thr t).pc
  match d.userFault t a 4 with
  | some k => some k
  | none =>
    match d.place a with
    | .ddr | .hbm | .sram _ => if d.firewall (.shoal (t / 64)) a 4 .fetch == .granted then none else some 2
    | .packet | .control _ | .host _ _ | .hole => some 5

/-- The exception of a fetch. One that the firewall refuses is logged and is a delayed fault, whose access is the fetch itself (R193,
R197, R421); a fetch from a hole is logged as well, and its exception is that of memory that holds no instructions (R33, R188). -/
def Dev.takeFetch (d : Dev) (t k : Nat) : Dev :=
  let x := d.thr t
  let log (ans : FwAnswer) : Dev := d.reportFw ans (0x020 + t / 64) 0 .fetch x.pc none (some t)
  if k == 2 then (log .denied).takeExc t { num := 4, detail := 2, efpc := x.pc, epc := x.pc, eaddr := x.pc, delayed := true }
  else (if k == 5 && d.place x.pc == .hole then log .hole else d).takePrecise t 4 k 0

/-- The word that a thread fetches at its PC: from the line that its core's instruction cache holds, unless it has been evicted, else
from memory, whose line the cache takes. None for poisoned memory. -/
def Dev.fetchWord (d : Dev) (t : Nat) : Option Nat × Dev :=
  let a := (d.thr t).pc
  let k := lineKey (coreOf t) a
  let word (l : List Byte) : Nat := leNat (slice l (a % 64) 4)
  let miss (d : Dev) : Option Nat × Dev := match d.memRead t a 4 with
    | (none, d) => (none, d)
    | (some l, d) =>
      (some (leNat l), { d with shl := { d.shl with icache := Tab.set [] d.shl.icache k (d.bytes (a / 64 * 64) 64) } })
  match d.shl.icache.find? (fun p => p.1 == k) with
  | none => miss d
  | some p =>
    let (v, d) := d.draw 1
    if v == 0 then (some (word p.2), d) else miss d

end Sys2Proof.Machine
end

