-- ==== Sys2Proof/Machine/Datapath.lean ====
section
/-! DEFINITION. Channel instructions, special registers, packet windows and engine commands of threads, and the replies of the
pattern engine and the data mover (chapters 06 to 08). -/

namespace Sys2Proof.Machine

open Sys2Proof

/-! Channel instructions (R155 to R157, R207) -/

/-- The channel number in a register. -/
def chanNo (v : Word) : Nat := v.toNat % 8192

/-- The lowest cause of Table 6.5 among those that hold. -/
def lowestCause (l : List (Nat × Bool)) : Option Nat := (l.find? (·.2)).map (·.1)

/-- A CHANNEL exception, which also sets CH_MISUSE of the home shoal. The mark stands in the device that the exception is taken in. -/
def Dev.misuse (d : Dev) (ch : Nat) : Dev := d.raise (Reg.SHL_FAULT_CH_MISUSE (ch / 512))

/-- The cause for which a CH.PUT is refused. -/
def Dev.putCause (d : Dev) (t ch : Nat) : Option Nat :=
  let x := d.thr t
  lowestCause [(1, d.chanProducer ch != t), (2, !d.chanOn ch), (3, 8 ≤ x.staged.length),
    (4, match x.bound with | some b => b != ch | none => false)]

/-- The cause for which a CH.SEAL is refused. -/
def Dev.sealCause (d : Dev) (t ch : Nat) : Option Nat :=
  let x := d.thr t
  lowestCause [(1, d.chanProducer ch != t), (2, !d.chanOn ch), (5, x.staged.isEmpty || x.bound != some ch)]

/-- The cause for which a CH.TRY is refused. -/
def Dev.tryCause (d : Dev) (t ch : Nat) : Option Nat := lowestCause [(1, d.chanConsumer ch != t), (2, !d.chanOn ch)]

/-- The cause for which a CH.GET of n words to a register is refused. -/
def Dev.getCause (d : Dev) (t ch dst n : Nat) : Option Nat :=
  lowestCause [(1, d.chanConsumer ch != t), (2, !d.chanOn ch), (6, 32 < dst + n)]

/-- CH.PUT: a word joins the staging, which is bound to the channel. -/
def Dev.chPut (d : Dev) (t ch : Nat) (v : Word) : Dev :=
  (d.updThr t fun x => { x with staged := x.staged ++ [v.toNat], bound := some ch }).endWait t

/-- CH.SEAL: the staged words become one message, unless the channel is full. -/
def Dev.chSeal (d : Dev) (t ch : Nat) (pd : BitVec 3) : Dev :=
  let c := d.chan ch
  if 16 ≤ c.msgs.length then (d.updThr t fun x => x.setPred pd false).beginWait t ch true
  else
    let d := d.setChan ch { c with msgs := c.msgs ++ [(d.thr t).staged] }
    (d.updThr t fun x => { x with staged := [], bound := none }.setPred pd true).endWait t

/-- CH.TRY: whether a message is held, and its length. -/
def Dev.chTry (d : Dev) (t ch : Nat) (pd : BitVec 3) : Dev :=
  match (d.chan ch).msgs with
  | [] => (d.updThr t fun x => x.setPred pd false).beginWait t ch false
  | m :: _ => (d.updThr t fun x => { x with chLen := m.length }.setPred pd true).endWait t

/-- Words into consecutive registers. -/
def Thread.setRegs (x : Thread) (r : Nat) : List Nat → Thread
  | [] => x
  | v :: l => (x.setReg (BitVec.ofNat 5 r) (BitVec.ofNat 64 v)).setRegs (r + 1) l

/-- CH.GET: the head message leaves the channel; its first n words are written. -/
def Dev.chGet (d : Dev) (t ch dst n : Nat) (pd : BitVec 3) : Dev :=
  let c := d.chan ch
  match c.msgs with
  | [] => (d.updThr t fun x => x.setPred pd false).beginWait t ch false
  | m :: r =>
    let d := d.setChan ch { c with msgs := r }
    (d.updThr t fun x => ({ x with chLen := m.length }.setRegs dst (m.take n)).setPred pd true).endWait t

/-! Special registers (R190, R206, R209) -/

/-- CYCLES: 16 core clocks in a tick since the shoal's release; which clock of its tick an instruction issues in is free. -/
def Dev.cycles (d : Dev) (t : Nat) : Nat × Dev :=
  let (v, d) := d.draw 15
  ((d.clk.tick - Tab.get 0 d.shl.released (t / 64)) * 16 + v, d)

/-- What a special register reads as; prev is the device at the end of the previous tick. -/
def Dev.srRead (prev d : Dev) (t n : Nat) : Nat × Dev :=
  let x := d.thr t
  match n with
  | 0x000 => (t, d)
  | 0x001 => (bitNat x.priv + 2 * bitNat x.exl, d)
  | 0x002 => d.cycles t
  | 0x003 => (x.instret, d)
  | 0x008 => (x.xbase, d)
  | 0x009 => (x.epc, d)
  | 0x00A => (x.efpc, d)
  | 0x00B => (x.ecause, d)
  | 0x00C => (x.eaddr, d)
  | 0x00D => (bitNat x.estate, d)
  | 0x00E => (bitNat x.brkHalt, d)
  | 0x100 => (x.chLen, d)
  | 0x102 => (Tab.get 0 x.windows 0, d)
  | 0x103 => (Tab.get 0 x.windows 1, d)
  | 0x104 => (x.tokenNext * 65536 + Tab.get 0 d.engOut t, d)
  | 0x108 => (x.dlArm, d)
  | 0x110 => (d.clk.tide % 2 ^ 64, d)
  | 0x111 => (d.short, d)
  | 0x112 => (d.clk.slotSeq, d)
  | 0x113 => (prev.rd Reg.TIDE_STATUS_STATE + 4 * prev.rd Reg.TIDE_STATUS_ADMIT_HOLD + 8 * prev.rd Reg.TIDE_STATUS_STEP_PENDING, d)
  | 0x118 => (x.bookTid, d)
  | n => if n < 0x18 then (Tab.get 0 x.scratch (n - 0x10), d) else (Tab.get 0 x.ranges (n - 0x18), d)

/-- A write of a special register. -/
def Thread.srWrite (x : Thread) (n v : Nat) : Thread :=
  match n with
  | 0x008 => { x with xbase := v % 2 ^ 48 / 1024 * 1024 }
  | 0x009 => { x with epc := v / 4 * 4 }
  | 0x00D => { x with estate := v.testBit 0 }
  | 0x00E => { x with brkHalt := v.testBit 0 }
  | 0x108 => { x with dlArm := v % 2 ^ 33 }
  | 0x118 => { x with bookTid := v % 512 + (if v.testBit 15 then 2 ^ 15 else 0) }
  | n =>
    if 0x10 ≤ n && n < 0x14 then { x with scratch := Tab.set 0 x.scratch (n - 0x10) v }
    else if 0x18 ≤ n && n < 0x1C then { x with ranges := Tab.set 0 x.ranges (n - 0x18) v }
    else x

/-- Whether an instruction needs the privileged level (R191, Table 8.7). -/
def limPrivileged (op : LimOp) : Bool :=
  match op with
  | .xret => true
  | .mfs _ sr => match srAccess sr.toNat with | some (r, _) => r == .priv | none => false
  | .mts _ sr => match srAccess sr.toNat with | some (_, w) => w == .priv | none => false
  | .eng .reefIns _ _ _ | .eng .reefDel _ _ _ => true
  | _ => false

/-! Packet windows (R212 to R216) -/

/-- The run held now that a handle names, for a thread's shoal. -/
def Dev.runOf (d : Dev) (t h : Nat) : Option Run :=
  if bits h 47 44 != t / 64 then none
  else d.net.runs.find? (fun r => r.shoal == t / 64 && r.cell == h % 2 ^ 21 && r.gen % 256 == bits h 55 48)

/-- The ENGINE detail for which a PW.OPEN is refused. -/
def Dev.openCause (d : Dev) (t w h : Nat) : Option Nat :=
  lowestCause [(1, (d.runOf t h).isNone), (2, Tab.get 0 (d.thr t).windows w != 0)]

/-- PW.OPEN: the window opens, and D receives the address of the frame's byte 0. -/
def Dev.pwOpen (d : Dev) (t w h : Nat) (reg : BitVec 5) : Dev :=
  d.updThr t fun x =>
    { x with windows := Tab.set 0 x.windows w (h % 2 ^ 63 + 2 ^ 63) }.setReg reg (BitVec.ofNat 64 (packetBase + h % 2 ^ 21 * 64 + 128))

/-- PW.FREE: the run is released at the boundary that follows; a second one does nothing. -/
def Dev.pwFree (d : Dev) (h : Nat) : Dev :=
  if d.shl.freed.any (fun f => f.1 == h % 2 ^ 21) then d
  else { d with shl := { d.shl with freed := d.shl.freed ++ [(h % 2 ^ 21, d.clk.tick)] } }

/-- A run is released (R216): the windows on it close, its generation advances, and its cells return. -/
def Dev.releaseRun (d : Dev) (s cell : Nat) : Dev :=
  let on (x : Thread) : Thread := { x with windows := x.windows.filter (fun p => p.2 % 2 ^ 21 != cell) }
  let d := d.each (List.range 64) fun d k => if (d.thr (64 * s + k)).windows.isEmpty then d else d.updThr (64 * s + k) on
  { d with
    net := { d.net with
      runs := d.net.runs.filter (fun r => r.cell != cell)
      handoffs := d.net.handoffs.filter (fun h => h.run.cell != cell)
      gens := Tab.upd 0 d.net.gens cell (fun g => (g + 1) % 256) }
    shl := { d.shl with freed := d.shl.freed.filter (fun f => f.1 != cell) } }

/-- RUN_RELEASE (R216): a run that PW.FREE named in an earlier tick is released. -/
def execRunRelease (shoal : BitVec 4) (cell : BitVec 21) (s : State) : Host.Outcome State Fault Refusal :=
  s.run fun d =>
    if d.shl.freed.any (fun f => f.1 == cell.toNat && f.2 < d.clk.tick) &&
      d.net.runs.any (fun r => r.shoal == shoal.toNat && r.cell == cell.toNat) then d.releaseRun shoal.toNat cell.toNat
    else d

/-! Engine commands (R218 to R224, R226, R229 to R231) -/

/-- The endpoint code of the engine that an engine command names. -/
def engEnd (op : EngOp) (s : Nat) : Nat :=
  match op with
  | .book => unitEnd 0x030
  | .reefLook | .reefIns | .reefDel => unitEnd 0x032
  | .cySub0 => shoalEnd s 4
  | .cySub1 => shoalEnd s 5
  | .patSub => shoalEnd s 2
  | .movSub => shoalEnd s 3

/-- The ENGINE detail for which an engine command is refused (Table 8.9). -/
def Dev.engCause (d : Dev) (t : Nat) (op : EngOp) (a ch : Nat) : Option Nat :=
  let s := t / 64
  lowestCause
    [(3, a % 64 != 0 || !(sramBase s ≤ a && a + 64 ≤ sramBase (s + 1))),
     (4, !d.chanOn ch || d.chanConsumer ch != t || d.chanProducer ch != engEnd op s),
     (5, 16 ≤ Tab.get 0 d.engOut t),
     (6, op == .book && !(d.thr t).bookTid.testBit 15),
     (7, (op == .cySub0 || op == .cySub1) && !d.bit Reg.DEV_CAPS_LOOKASIDE_CIPHER)]


/-- A word of a 64-byte block. -/
def blockWord (l : List Byte) (n : Nat) : Nat := leAt l (8 * n) 8

/-- The Reef command in a block (Table 8.10): op 1 LOOK, 2 INS, 3 DEL. -/
def reefOf (by_ : ReefBy) (op : Nat) (l : List Byte) : RCmd :=
  let w := blockWord l 0
  let key := slice l 8 40
  let keyLen := bits w 55 48
  { by_ := by_, op := op, table := bits w 63 62, key := key.take keyLen, plen := bits w 47 40, act0 := blockWord l 6, act1 := blockWord l 7
    bad := !reefFieldsOk op (bits w 63 62) keyLen (bits w 47 40) key (blockWord l 6) (blockWord l 7)
      (bits w 61 56 != 0 || bits w 39 0 != 0) }

/-- The look-aside request in a block (Table 14.9) joins its engine's queue; it is claim-5 work. -/
def Dev.subRequest (d : Dev) (t ch token e : Nat) (l : List Byte) : Dev :=
  let w := blockWord l
  let x : Desc :=
    { bad := w 0 % 2 ^ 46 != 0 || w 4 / 2 ^ 32 != 0 || w 5 != 0 || w 6 != 0 || w 7 != 0, devMem := true
      length := BitVec.ofNat 32 (w 4), addr0 := BitVec.ofNat 64 (w 1), addr1 := BitVec.ofNat 64 (w 2), addr2 := BitVec.ofNat 64 (w 3)
      keySlot := BitVec.ofNat 14 (bits (w 0) 63 50) }
  let q : Req := { id := d.nextOp, kind := 7, code := bits (w 0) 49 46, cls := 3, tid := 0, src := 0x020 + t / 64, org := .sub t ch token,
                   desc := x, tick := d.clk.tick, time := d.clk.tide }
  let o : Op := { req := q, admitted := d.clk.tide, promise := 0, slack := true, aux := e, plan := [⟨2, [⟨laRes e, w 4 % 2 ^ 32⟩], 0⟩] }
  { d with nextOp := d.nextOp + 1, ops := d.ops ++ [o] }

/-- The contract kind and operation code of a descriptor's KIND. -/
def kindOf (kind : Nat) (x : Desc) : Nat × Nat :=
  match kind with
  | 1 => (1, 0)
  | 3 => (3, 0)
  | 4 => (5, 0)
  | 5 => (6, x.target.toNat / 2 ^ 24)
  | 6 => (7, x.target.toNat % 16)
  | k => (16 + k, 0)

/-- A storage or cipher operation code that Table 3.7 lists. -/
def codeKnown (kind code : Nat) : Bool :=
  match kind with
  | 6 => code == 0 || code == 1 || code == 2 || code == 8 || code == 9
  | 7 => code < 4
  | _ => true

/-- A booking request is sampled at Breakwater (R223): its TID is BOOK_TID; RX_POST and reserved kinds are malformed. -/
def Dev.bookRequest (d : Dev) (t ch token tid : Nat) (l : List Byte) : Dev :=
  let (k, x) := descOf l
  let (kind, code) := kindOf k x
  d.submit kind code x.cls.toNat tid (0x020 + t / 64) (.book t ch token)
    { x with bad := x.bad || !codeKnown kind code }

/-- A thread's access of control space is sampled by its block, with the privilege that it was issued with; a store of a strand word that
the strand has still to hold persistently is performed then (R451), and any other at once. -/
def Dev.sampleCtl (prev d : Dev) (t id off n : Nat) (v : Option Nat) : Dev :=
  let ag : Agent := .thread (BitVec.ofNat 10 t)
  let was := (d.thr t).priv
  let back (d : Dev) : Dev := d.updThr t fun x => { x with priv := was }
  let d := d.updThr t fun x => { x with priv := true }
  match v with
  | none =>
    let (v, d) := Dev.ctlRead prev d ag off n
    (back d).threadBack t id none v
  | some v =>
    let e := back (d.ctlWrite ag off n v)
    if e.boot.strandQ.length == d.boot.strandQ.length then e.threadBack t id none 0 else e.strandBy t id

/-- What a thread issued is sampled (R60). -/
def Dev.sampleLater (prev d : Dev) (c : Later) : Dev :=
  match c with
  | .book t ch token tid l => d.bookRequest t ch token tid l
  | .reef c => d.reefCmd c
  | .ctl t id off n v => Dev.sampleCtl prev d t id off n v

/-- The thread that issued something. -/
def Later.thread (c : Later) : Nat :=
  match c with
  | .book t _ _ _ _ | .ctl t _ _ _ _ => t
  | .reef c => match c.by_ with
    | .thread t _ _ => t
    | .steward _ => 0

/-- Whether a unit takes what a thread issued: an engine whose holding of replies is full takes no command of the shoal (R222). -/
def Dev.takesLater (d : Dev) (c : Later) : Bool :=
  match c with
  | .book t _ _ _ _ => !d.engFull (unitEnd 0x030) (t / 64)
  | .reef _ => !d.engFull (unitEnd 0x032) (c.thread / 64)
  | .ctl _ _ _ _ _ => true

/-- What threads issued in earlier ticks is sampled in the order of their global numbers (R62, R228), a thread's own in its order, and with it
the Reef commands of threads that wait for bursts (R283); what no unit takes waits on, with what its thread issued after it. -/
def Dev.sampleAllLater (prev d : Dev) : Dev :=
  let one (p : Dev × List Nat) (x : Nat × Later) : Dev × List Nat :=
    if !p.2.contains x.2.thread && p.1.takesLater x.2 then (Dev.sampleLater prev p.1 x.2, p.2)
    else ({ p.1 with shl := { p.1.shl with later := p.1.shl.later ++ [x] } }, x.2.thread :: p.2)
  let due (p : Nat × Later) : Bool := p.1 < d.clk.tick
  let byThread (c : RCmd) : Bool := match c.by_ with | .thread _ _ _ => true | .steward _ => false
  let l := sortIn (fun (a b : Nat × Later) => a.2.thread ≤ b.2.thread)
    ((d.reef.cmds.filter byThread).map (fun c => (0, .reef c)) ++ d.shl.later.filter due)
  (l.foldl one ({ d with shl := { d.shl with later := d.shl.later.filter (fun p => !due p) }
                         reef := { d.reef with cmds := d.reef.cmds.filter (fun c => !byThread c) } }, [])).1

/-- The engine reads the block and acts. -/
def Dev.engAct (d : Dev) (t ch token : Nat) (op : EngOp) (l : List Byte) : Dev :=
  let s := t / 64
  let job : EngJob := { shoal := s, thread := t, channel := ch, token := token, words := (List.range 8).map (blockWord l) }
  match op with
  | .book => d.addLater (.book t ch token ((d.thr t).bookTid % 512) l)
  | .reefLook => d.addLater (.reef (reefOf (.thread t ch token) 1 l))
  | .reefIns => d.addLater (.reef (reefOf (.thread t ch token) 2 l))
  | .reefDel => d.addLater (.reef (reefOf (.thread t ch token) 3 l))
  | .cySub0 => d.subRequest t ch token (2 * s) l
  | .cySub1 => d.subRequest t ch token (2 * s + 1) l
  | .patSub => { d with shl := { d.shl with scans := d.shl.scans ++ [job] } }
  | .movSub => { d with shl := { d.shl with movers := d.shl.movers ++ [job] } }

/-- An engine command (R219): the token goes to D, and one command more is outstanding. -/
def Dev.engIssue (d : Dev) (t : Nat) (op : EngOp) (reg : BitVec 5) (a ch : Nat) : Dev :=
  let token := (d.thr t).tokenNext
  let l := d.bytes a 64
  let d := (d.endWait t).updThr t fun x => { x with tokenNext := (token + 1) % 65536 }.setReg reg (BitVec.ofNat 64 token)
  { d with engOut := Tab.upd 0 d.engOut t (· + 1) }.engAct t ch token op l

/-- A range that the firewall does not grant to a shoal's engine is logged (R33, R421). -/
def Dev.logRange (d : Dev) (s th a n : Nat) (k : AccessKind) : Dev :=
  d.reportFw (d.firewall (.shoal s) a n k) (0x020 + s) 0 k a none (some th)

/-! Replies of the pattern engine (R230) -/

/-- Words 32 bits wide in pairs, the first in the low half. -/
def pairHalves : List Nat → List Nat
  | [] => []
  | [a] => [a]
  | a :: b :: r => (a + b * 2 ^ 32) :: pairHalves r

/-- Whether a pattern command is served: its fields in range, its range in the packet buffer or the shoal's own SRAM and granted. -/
def Dev.scanOk (d : Dev) (j : EngJob) : Bool :=
  let w (n : Nat) : Nat := j.words.getD n 0
  let n := w 2 % 2 ^ 32
  1 ≤ bits (w 0) 55 52 && bits (w 0) 55 52 ≤ 14 && w 0 % 2 ^ 52 == 0 && w 2 / 2 ^ 32 == 0 && 1 ≤ n && n ≤ 16384 &&
    (List.range 5).all (fun i => w (3 + i) == 0) &&
    (match d.place (w 1) with | .packet => true | .sram s => s == j.shoal | _ => false) &&
    d.firewall (.shoal j.shoal) (w 1) n .read == .granted

/-- The reply of a pattern command. -/
def Dev.scanReply (d : Dev) (j : EngJob) : List Nat :=
  let w (n : Nat) : Nat := j.words.getD n 0
  if !d.scanOk j then [replyHeader j.token 3 0 4 0]
  else
    let n := w 2 % 2 ^ 32
    let clean := min (d.cleanBytes (w 1) n) (match j.bad with | some (_, o) => o | none => n)
    let m := scanSet d.net.pats (bits (w 0) 63 56) (d.bytes (w 1) clean)
    replyHeader j.token (if clean < n then 0x61 else 0) (min 255 m.length) 4 clean :: pairHalves (matchWords m (bits (w 0) 55 52))

/-- PAT_REPLY (R230): the oldest command of a shoal's pattern engine is done, and its reply posted. -/
def execPatReply (shoal : BitVec 4) (s : State) : Host.Outcome State Fault Refusal :=
  s.run fun d => match d.shl.scans.find? (fun j => j.shoal == shoal.toNat) with
    | none => d
    | some j =>
      let d := if d.scanOk j && d.anyPoison (j.words.getD 1 0) (j.words.getD 2 0 % 2 ^ 32) then
          d.reportMem 0x04 1 0 (j.words.getD 1 0 / 32 * 32) none (some j.thread) else d
      ({ d with shl := { d.shl with scans := d.shl.scans.erase j } }).unitPost (shoalEnd j.shoal 2) j.channel (d.scanReply j) (some j.thread)

/-! The data mover (R231) -/

/-- Why a copy is refused: 1 source, 2 destination, 3 overlap. Control space is beyond a mover's reach (R31). -/
def Dev.moveRefusal (d : Dev) (j : EngJob) : Nat :=
  let src := j.words.getD 0 0
  let dst := j.words.getD 1 0
  let n := j.words.getD 2 0 % 2 ^ 28
  if (d.place src).isControl || d.firewall (.shoal j.shoal) src n .read != .granted then 1
  else if (d.place dst).isControl || d.firewall (.shoal j.shoal) dst n .write != .granted then 2
  else if src < dst + n && dst < src + n then 3
  else 0

/-- Whether a copy's block breaks its layout: a length out of range or a reserved field. -/
def moveBad (j : EngJob) : Bool :=
  let n := j.words.getD 2 0
  n == 0 || 16777216 < n || (List.range 5).any (fun i => j.words.getD (3 + i) 0 != 0)

/-- A mover's reply leaves its queue. -/
def Dev.moveDone (d : Dev) (j : EngJob) (status result arg : Nat) : Dev :=
  { d with shl := { d.shl with movers := d.shl.movers.erase j } }.unitPost (shoalEnd j.shoal 3) j.channel
    [replyHeader j.token status result 5 arg] (some j.thread)

/-- A range cut at the bounds of the tenants' windows (R34): address, length and offset of each piece. A copy is shorter than a window, so
it has at most two. -/
def windowPieces (a n : Nat) : List (Nat × Nat × Nat) :=
  let cut := (a / 2 ^ 38 + 1) * 2 ^ 38
  if a + n ≤ cut then [(a, n, 0)] else [(a, cut - a, 0), (cut, a + n - cut, cut - a)]

/-- The bytes of a copy go to hosts, each piece as a request of the function whose window it lies in; a function that may issue none ends
the copy with HOST_ABORT after the bytes before. -/
def Dev.moveToHost (d : Dev) (dst : Nat) (l : List Byte) : Dev × Option (Nat × Nat) :=
  (windowPieces dst l.length).foldl (fun (p : Dev × Option (Nat × Nat)) (x : Nat × Nat × Nat) => match p.2, p.1.place x.1 with
    | none, .host t off =>
      if p.1.mayIssue t then
        (p.1.emit (.hostWrite t (p.1.inF (Reg.HST_TEN_IOVA_BASE t) * 4096 + off) ((l.drop x.2.2).take x.2.1)), none)
      else (p.1, some (0x21, x.2.2))
    | _, _ => p) (d, none)

/-- The bytes of a copy are written in ascending order: in device memory, up to a poisoned line of which they cover a part (R420), or to
hosts. Where the writing fails: status and the bytes written before. -/
def Dev.moveWrite (d : Dev) (j : EngJob) (l : List Byte) : Dev × Option (Nat × Nat) :=
  let dst := j.words.getD 1 0
  if l.isEmpty then (d, none)
  else match d.place dst with
    | .host _ _ => d.moveToHost dst l
    | .ddr | .hbm | .sram _ | .packet =>
      match d.partialPoison dst l.length with
      | none => (d.memPut dst l, none)
      | some k =>
        let n := 32 * k - dst
        ((d.memPut dst (l.take n)).reportMem 0x04 1 1 (32 * k) none (some j.thread), some (0x61, n))
    | .control _ | .hole => (d, none)

/-- A mover begins a copy whose source is in host windows: its reads are issued, each for the function whose window it lies in. -/
def Dev.moveReads (d : Dev) (j : EngJob) : Dev :=
  let n := j.words.getD 2 0 % 2 ^ 28
  let reads (x : Nat × Nat × Nat) : List (Nat × Nat × Nat × Nat) := match d.place x.1 with
    | .host t off =>
      let a := d.inF (Reg.HST_TEN_IOVA_BASE t) * 4096 + off
      (splitRead a (d.readSize t) (x.2.1 + 1) 0 x.2.1).map fun p => (t, a + p.1, p.2, x.2.2 + p.1)
    | _ => []
  let ps := (windowPieces (j.words.getD 0 0) n).flatMap reads
  let k : EngJob := { j with begun := true, reads := ps.length, data := List.replicate n 0 }
  { d with shl := { d.shl with movers := d.shl.movers.map (fun (x : EngJob) => if x = j then k else x) } }.each ps fun d p => d.issueRead
    { link := linkOf p.1, tag := 0, tid := p.1, addr := p.2.1, len := p.2.2.1, use := .mover j.shoal p.2.2.2, time := 0, booked := false }

/-- The end of a copy: what has been read is written, and the reply says how it ended, with the bytes written. -/
def Dev.moveEnd (d : Dev) (j : EngJob) (l : List Byte) (bad : Option (Nat × Nat)) : Dev :=
  let k := (bad.map (·.2)).getD l.length
  match d.moveWrite j (l.take k), bad with
  | (d, some (st, n)), _ => d.moveDone j st 0 n
  | (d, none), some (st, off) => d.moveDone j st 0 off
  | (d, none), none => d.moveDone j 0 0 l.length

/-- The next step of a shoal's mover on its oldest command. -/
def Dev.moveStep (d : Dev) (j : EngJob) : Dev :=
  let src := j.words.getD 0 0
  let n := j.words.getD 2 0 % 2 ^ 28
  if moveBad j then d.moveDone j 3 0 0
  else if !j.begun && d.moveRefusal j != 0 then
    let r := d.moveRefusal j
    let d := if r == 1 then d.logRange j.shoal j.thread src n .read
      else if r == 2 then d.logRange j.shoal j.thread (j.words.getD 1 0) n .write else d
    d.moveDone j 3 r 0
  else match d.place src with
    | .host _ _ =>
      if !j.begun then d.moveReads j
      else if j.reads != 0 then d
      else d.moveEnd j j.data j.bad
    | .ddr | .hbm | .sram _ | .packet | .control _ | .hole =>
      let clean := d.cleanBytes src n
      let d := if clean < n then d.reportMem 0x04 1 0 ((src + clean) / 32 * 32) none (some j.thread) else d
      d.moveEnd j (d.bytes src clean) (match j.bad with
        | some (st, o) => some (st, min o clean)
        | none => if clean < n then some (0x61, clean) else none)

/-- MOV_REPLY (R231): a shoal's mover serves its oldest command; a copy from a host window first reads, and ends once it has read. -/
def execMovReply (shoal : BitVec 4) (s : State) : Host.Outcome State Fault Refusal :=
  s.run fun d => match d.shl.movers.find? (fun j => j.shoal == shoal.toNat) with
    | some j => d.moveStep j
    | none => d

/-! BOOK_DECISION (R225) -/

/-- The decisions of bookings by threads become visible. -/
def Dev.showBooks (d : Dev) : Dev :=
  let mine (x : Decision) : Bool := match x.req.org with
    | .book _ _ _ => true
    | .ring _ _ | .nvme _ _ | .sub _ _ _ | .wire _ => false
  let t := d.clk.tide + tickNs
  { d with pair := { d.pair with decisions := d.pair.decisions.filter (fun x => !mine x) } }.each (d.pair.decisions.filter mine)
    fun d x => d.show t x

/-- BOOK_DECISION: at the boundary that ends the tick, as DECISION_TAKE_EFFECT. -/
def execBookDecision (s : State) : Host.Outcome State Fault Refusal :=
  s.run fun d => d.when (s.pending.isEmpty && d.mayShow) Dev.showBooks

end Sys2Proof.Machine
end

