-- ==== Sys2Proof/Decode.lean ====
section
/-! DEFINITION. The Limoon decoder and encoder (Tables 7.1 to 7.7, 8.1 to 8.7), and the command of a table word: spec/opcode_table.json gives no
row any bits, so no word spells a command. -/

namespace Sys2Proof

/-! Fields of a word -/

/-- Bits [lo + n − 1:lo] of a word. -/
def wordField (w lo n : Nat) : Nat := w / 2 ^ lo % 2 ^ n

/-- The register fields D, A and B of format X. -/
def fieldD (w : Nat) : BitVec 5 := BitVec.ofNat 5 (wordField w 17 5)
def fieldA (w : Nat) : BitVec 5 := BitVec.ofNat 5 (wordField w 12 5)
def fieldB (w : Nat) : BitVec 5 := BitVec.ofNat 5 (wordField w 7 5)

/-- An instruction when a condition on its zero fields holds. -/
def onlyIf (b : Bool) (op : LimOp) : Option LimOp := if b then some op else none

/-! Operations by FN or CC -/

/-- The ALU operation of FN [5:0]. -/
def aluOf (n : Nat) : Option AluOp :=
  match n with
  | 0x00 => some .add | 0x01 => some .sub | 0x02 => some .and | 0x03 => some .or | 0x04 => some .xor | 0x05 => some .andn
  | 0x06 => some .sll | 0x07 => some .srl | 0x08 => some .sra | 0x09 => some .ror | 0x0A => some .min | 0x0B => some .max
  | 0x0C => some .minu | 0x0D => some .maxu | 0x0E => some .clz | 0x0F => some .ctz | 0x10 => some .popc | 0x11 => some .bswap
  | _ => none

/-- The multiply or divide operation of FN [5:0]. -/
def mulOf (n : Nat) : Option MulOp :=
  match n with
  | 0x00 => some .mul | 0x01 => some .mulhs | 0x02 => some .mulhu | 0x04 => some .div | 0x05 => some .divu | 0x06 => some .rem
  | 0x07 => some .remu | _ => none

/-- The compare condition of CC. -/
def condOf (n : Nat) : CmpCond :=
  match n with
  | 0 => .eq | 1 => .ne | 2 => .lt | 3 => .ge | 4 => .ltu | 5 => .geu | 6 => .any | _ => .none

/-- The predicate operation of FN. -/
def plogOf (n : Nat) : Option PlogOp :=
  match n with
  | 0 => some .and | 1 => some .or | 2 => some .xor | 3 => some .andn | 4 => some .orn | 5 => some .mov | _ => none

/-- The access size of two bits. -/
def sizeOf (n : Nat) : MemSize :=
  match n with
  | 0 => .b | 1 => .h | 2 => .w | _ => .d

/-- The atomic operation of FN [6:4]. -/
def atomOf (n : Nat) : AtomOp :=
  match n with
  | 0 => .swp | 1 => .add | 2 => .and | 3 => .or | 4 => .xor | 5 => .smax | 6 => .umax | _ => .cas

/-- The immediate shift of IMM [7:6]. -/
def shfOf (n : Nat) : ShfOp :=
  match n with
  | 0 => .sll | 1 => .srl | 2 => .sra | _ => .ror

/-- Whether an ALU operation needs B to be g0. -/
def aluOne (op : AluOp) : Bool :=
  match op with
  | .clz | .ctz | .popc | .bswap => true
  | .add | .sub | .and | .or | .xor | .andn | .sll | .srl | .sra | .ror | .min | .max | .minu | .maxu => false

/-! By major opcode -/

/-- Format X instructions of the base set: opcode, fields and FN. -/
def decodeX (op w : Nat) : Option LimOp :=
  let d := fieldD w
  let a := fieldA w
  let b := fieldB w
  let fn := wordField w 0 7
  match op with
  | 0x01 => match aluOf (fn % 64) with
    | some o => onlyIf (!aluOne o || b == 0) (.alu o (fn / 64 == 1) d a b)
    | none => none
  | 0x07 => match mulOf (fn % 64) with
    | some o => some (.mul o (fn / 64 == 1) d a b)
    | none => none
  | 0x1C => onlyIf (fn % 2 == 0 && fn < 64) (.ldx (sizeOf (fn / 16)) (fn / 8 % 2 == 1) (BitVec.ofNat 2 (fn / 2)) d a b)
  | 0x1D => onlyIf (fn % 2 == 0 && fn < 64 && fn / 8 % 2 == 0) (.stx (sizeOf (fn / 16)) (BitVec.ofNat 2 (fn / 2)) d a b)
  | 0x1E => onlyIf (fn % 2 == 0) (.atom (atomOf (fn / 16)) (fn / 8 % 2 == 1) (BitVec.ofNat 2 (fn / 2)) d a b)
  | 0x22 => if fn == 0 then onlyIf (d == 0 && b == 0) (.jmpr a) else if fn == 1 then onlyIf (d == 0 && b == 0) (.callr a) else none
  | _ => none

/-- SYS (Table 7.7). -/
def decodeSys (w : Nat) : Option LimOp :=
  let d := fieldD w
  let a := fieldA w
  let b := fieldB w
  match wordField w 0 7 with
  | 0x00 => onlyIf (d == 0 && a == 0) (.fence b)
  | 0x01 => onlyIf (d == 0 && b == 0) (.dcinv a)
  | 0x02 => onlyIf (d == 0 && a == 0 && b == 0) .dcinvall
  | 0x03 => onlyIf (d == 0 && a == 0 && b == 0) .icinv
  | 0x04 => onlyIf (d == 0 && a == 0) (.trap b)
  | 0x05 => onlyIf (d == 0 && a == 0 && b == 0) .brk
  | 0x06 => onlyIf (d == 0 && a == 0 && b == 0) .xret
  | 0x07 => onlyIf (d == 0 && a == 0 && b == 0) .stop
  | _ => none

/-- Immediate, load and store instructions (formats I and M), and the special registers (format S). -/
def decodeI (op w : Nat) : Option LimOp :=
  let d := fieldD w
  let a := fieldA w
  let m := wordField w 0 12
  let imm := BitVec.ofNat 12 m
  match op with
  | 0x02 => some (.imm .add d a imm)
  | 0x03 => some (.imm .and d a imm)
  | 0x04 => some (.imm .or d a imm)
  | 0x05 => some (.imm .xor d a imm)
  | 0x06 => onlyIf (m < 512) (.shfi (shfOf (m / 64 % 4)) (m / 256 == 1) d a (BitVec.ofNat 6 m))
  | 0x10 => some (.load .b false d a imm)
  | 0x11 => some (.load .h false d a imm)
  | 0x12 => some (.load .w false d a imm)
  | 0x13 => some (.load .d false d a imm)
  | 0x14 => some (.load .b true d a imm)
  | 0x15 => some (.load .h true d a imm)
  | 0x16 => some (.load .w true d a imm)
  | 0x18 => some (.store .b d a imm)
  | 0x19 => some (.store .h d a imm)
  | 0x1A => some (.store .w d a imm)
  | 0x1B => some (.store .d d a imm)
  | 0x24 => onlyIf (a == 0) (.mfs d imm)
  | 0x25 => onlyIf (d == 0) (.mts a imm)
  | _ => none

/-- Constants, compares, predicates and branches (formats U, C, P and B). -/
def decodeC (op w : Nat) : Option LimOp :=
  let d := fieldD w
  let pd := BitVec.ofNat 3 (wordField w 19 3)
  let a := BitVec.ofNat 5 (wordField w 11 5)
  match op with
  | 0x08 => some (.lim d (BitVec.ofNat 17 w))
  | 0x09 => onlyIf (wordField w 16 1 == 0) (.shi d (BitVec.ofNat 16 w))
  | 0x0A => onlyIf (wordField w 0 6 == 0) (.cmp (condOf (wordField w 16 3)) pd a (BitVec.ofNat 5 (wordField w 6 5)))
  | 0x0B => some (.cmpi (condOf (wordField w 16 3)) pd a (BitVec.ofNat 11 w))
  | 0x0C => match plogOf (wordField w 0 3) with
    | some o => onlyIf (wordField w 3 10 == 0)
        (.plog o pd (BitVec.ofNat 3 (wordField w 16 3)) (BitVec.ofNat 3 (wordField w 13 3)))
    | none => none
  | 0x20 => some (.br (BitVec.ofNat 22 w))
  | 0x21 => some (.call (BitVec.ofNat 22 w))
  | _ => none

/-- Channel instructions (Table 8.3). -/
def decodeChan (w : Nat) : Option LimOp :=
  let d := fieldD w
  let a := fieldA w
  let b := fieldB w
  let pd := BitVec.ofNat 3 (wordField w 4 3)
  match wordField w 0 4 with
  | 0 => onlyIf (d == 0 && pd == 0) (.chPut a b)
  | 1 => onlyIf (d == 0 && b == 0) (.chSeal pd a)
  | 2 => onlyIf (d == 0 && b == 0) (.chTry pd a)
  | 3 => some (.chGet pd d a b)
  | _ => none

/-- Time instructions (Table 8.4). -/
def decodeTime (w : Nat) : Option LimOp :=
  let d := fieldD w
  let b := fieldB w
  match wordField w 0 4 with
  | 0 => onlyIf (d == 0) (.dlchk (BitVec.ofNat 3 (wordField w 4 3)) (fieldA w) b)
  | 1 => onlyIf (b == 0 && wordField w 4 3 == 0) (.dlleft d (fieldA w))
  | _ => none

/-- Window instructions (Table 8.6). -/
def decodeWin (w : Nat) : Option LimOp :=
  let d := fieldD w
  let a := fieldA w
  let b := fieldB w
  let win := wordField w 3 1 == 1
  if wordField w 4 3 != 0 then none
  else match wordField w 0 3 with
    | 0 => onlyIf (b == 0) (.pwOpen win d a)
    | 1 => onlyIf (d == 0 && a == 0 && b == 0) (.pwClose win)
    | 2 => onlyIf (!win && d == 0 && b == 0) (.pwFree a)
    | _ => none

/-- The engine command of FN [3:0] (Table 8.7). -/
def engOf (n : Nat) : Option EngOp :=
  match n with
  | 0 => some .book | 1 => some .reefLook | 2 => some .reefIns | 3 => some .reefDel | 4 => some .cySub0 | 5 => some .cySub1
  | 6 => some .patSub | 7 => some .movSub | _ => none

/-- Engine commands. -/
def decodeEng (w : Nat) : Option LimOp :=
  match engOf (wordField w 0 4) with
  | some o => onlyIf (wordField w 4 3 == 0) (.eng o (fieldD w) (fieldA w) (fieldB w))
  | none => none

/-- The operation of a word by its major opcode (Tables 7.2 and 8.1). -/
def decodeOp (w : Nat) : Option LimOp :=
  let op := wordField w 22 6
  if op == 0x1F then decodeSys w
  else if op == 0x30 then decodeChan w
  else if op == 0x31 then decodeTime w
  else if op == 0x32 then decodeWin w
  else if op == 0x33 then decodeEng w
  else match decodeX op w with
    | some o => some o
    | none => match decodeI op w with
      | some o => some o
      | none => decodeC op w

/-- The Limoon decoder: guard N and P with the operation; none for a word that names no operation of its opcode, or has a field that
must be zero and is not. What else makes an encoding illegal, limLegal says where the instruction issues. -/
def limoonDecode (w : Nat) : Option (Bool × BitVec 3 × LimOp) :=
  match decodeOp w with
  | some o => some (wordField w 31 1 == 1, BitVec.ofNat 3 (wordField w 28 3), o)
  | none => none

/-! The encoder -/

/-- FN [5:0] of an ALU operation (Table 7.3). -/
def aluNum (op : AluOp) : Nat :=
  match op with
  | .add => 0x00 | .sub => 0x01 | .and => 0x02 | .or => 0x03 | .xor => 0x04 | .andn => 0x05 | .sll => 0x06 | .srl => 0x07
  | .sra => 0x08 | .ror => 0x09 | .min => 0x0A | .max => 0x0B | .minu => 0x0C | .maxu => 0x0D | .clz => 0x0E | .ctz => 0x0F
  | .popc => 0x10 | .bswap => 0x11

/-- FN [5:0] of a multiply or divide operation (Table 7.4). -/
def mulNum (op : MulOp) : Nat :=
  match op with
  | .mul => 0x00 | .mulhs => 0x01 | .mulhu => 0x02 | .div => 0x04 | .divu => 0x05 | .rem => 0x06 | .remu => 0x07

/-- CC of a condition (Table 7.5). -/
def condNum (cc : CmpCond) : Nat :=
  match cc with
  | .eq => 0 | .ne => 1 | .lt => 2 | .ge => 3 | .ltu => 4 | .geu => 5 | .any => 6 | .none => 7

/-- FN of a predicate operation (R181). -/
def plogNum (op : PlogOp) : Nat :=
  match op with
  | .and => 0 | .or => 1 | .xor => 2 | .andn => 3 | .orn => 4 | .mov => 5

/-- The size bits of an access (R183). -/
def sizeNum (z : MemSize) : Nat :=
  match z with
  | .b => 0 | .h => 1 | .w => 2 | .d => 3

/-- FN [6:4] of an atomic (Table 7.6). -/
def atomNum (op : AtomOp) : Nat :=
  match op with
  | .swp => 0 | .add => 1 | .and => 2 | .or => 3 | .xor => 4 | .smax => 5 | .umax => 6 | .cas => 7

/-- IMM [7:6] of an immediate shift (R179). -/
def shfNum (op : ShfOp) : Nat :=
  match op with
  | .sll => 0 | .srl => 1 | .sra => 2 | .ror => 3

/-- FN [3:0] of an engine command (Table 8.7). -/
def engNum (op : EngOp) : Nat :=
  match op with
  | .book => 0 | .reefLook => 1 | .reefIns => 2 | .reefDel => 3 | .cySub0 => 4 | .cySub1 => 5 | .patSub => 6 | .movSub => 7

/-- 1 where a bit of an encoding is set. -/
def flagNum (b : Bool) : Nat := if b then 1 else 0

/-- The fields of format X, and those of formats I, M and S. -/
def packX (d a b : BitVec 5) (fn : Nat) : Nat := d.toNat * 2 ^ 17 + a.toNat * 2 ^ 12 + b.toNat * 2 ^ 7 + fn
def packI (d a : BitVec 5) (imm : Nat) : Nat := d.toNat * 2 ^ 17 + a.toNat * 2 ^ 12 + imm

/-- The major opcode and the fields of an operation (Tables 7.1 to 7.7, 8.1 to 8.7). -/
def encodeOp (op : LimOp) : Nat × Nat :=
  match op with
  | .alu o w d a b => (0x01, packX d a b (flagNum w * 64 + aluNum o))
  | .mul o w d a b => (0x07, packX d a b (flagNum w * 64 + mulNum o))
  | .imm .add d a imm => (0x02, packI d a imm.toNat)
  | .imm .and d a imm => (0x03, packI d a imm.toNat)
  | .imm .or d a imm => (0x04, packI d a imm.toNat)
  | .imm .xor d a imm => (0x05, packI d a imm.toNat)
  | .shfi o w d a amount => (0x06, packI d a (flagNum w * 256 + shfNum o * 64 + amount.toNat))
  | .lim d imm => (0x08, d.toNat * 2 ^ 17 + imm.toNat)
  | .shi d imm => (0x09, d.toNat * 2 ^ 17 + imm.toNat)
  | .cmp cc pd a b => (0x0A, pd.toNat * 2 ^ 19 + condNum cc * 2 ^ 16 + a.toNat * 2 ^ 11 + b.toNat * 2 ^ 6)
  | .cmpi cc pd a imm => (0x0B, pd.toNat * 2 ^ 19 + condNum cc * 2 ^ 16 + a.toNat * 2 ^ 11 + imm.toNat)
  | .plog o pd pa pb => (0x0C, pd.toNat * 2 ^ 19 + pa.toNat * 2 ^ 16 + pb.toNat * 2 ^ 13 + plogNum o)
  | .load z sext d a imm => (0x10 + flagNum sext * 4 + sizeNum z, packI d a imm.toNat)
  | .store z d a imm => (0x18 + sizeNum z, packI d a imm.toNat)
  | .ldx z sext scale d a b => (0x1C, packX d a b (sizeNum z * 16 + flagNum sext * 8 + scale.toNat * 2))
  | .stx z scale d a b => (0x1D, packX d a b (sizeNum z * 16 + scale.toNat * 2))
  | .atom o wide order d a b => (0x1E, packX d a b (atomNum o * 16 + flagNum wide * 8 + order.toNat * 2))
  | .fence kind => (0x1F, packX 0 0 kind 0x00)
  | .dcinv a => (0x1F, packX 0 a 0 0x01)
  | .dcinvall => (0x1F, packX 0 0 0 0x02)
  | .icinv => (0x1F, packX 0 0 0 0x03)
  | .trap b => (0x1F, packX 0 0 b 0x04)
  | .brk => (0x1F, packX 0 0 0 0x05)
  | .xret => (0x1F, packX 0 0 0 0x06)
  | .stop => (0x1F, packX 0 0 0 0x07)
  | .br off => (0x20, off.toNat)
  | .call off => (0x21, off.toNat)
  | .jmpr a => (0x22, packX 0 a 0 0)
  | .callr a => (0x22, packX 0 a 0 1)
  | .mfs d sr => (0x24, packI d 0 sr.toNat)
  | .mts a sr => (0x25, packI 0 a sr.toNat)
  | .chPut a b => (0x30, packX 0 a b 0)
  | .chSeal pd a => (0x30, packX 0 a 0 (pd.toNat * 16 + 1))
  | .chTry pd a => (0x30, packX 0 a 0 (pd.toNat * 16 + 2))
  | .chGet pd d a n => (0x30, packX d a n (pd.toNat * 16 + 3))
  | .dlchk pd a b => (0x31, packX 0 a b (pd.toNat * 16))
  | .dlleft d a => (0x31, packX d a 0 1)
  | .pwOpen win d a => (0x32, packX d a 0 (flagNum win * 8))
  | .pwClose win => (0x32, packX 0 0 0 (flagNum win * 8 + 1))
  | .pwFree a => (0x32, packX 0 a 0 2)
  | .eng o d a b => (0x33, packX d a b (engNum o))

/-- The Limoon encoder: the guard in bits 31 and [30:28], the major opcode in [27:22], and the fields below. -/
def limoonEncode (n : Bool) (p : BitVec 3) (op : LimOp) : Nat :=
  flagNum n * 2 ^ 31 + p.toNat * 2 ^ 28 + (encodeOp op).1 * 2 ^ 22 + (encodeOp op).2

/-- Whether an operation has an encoding: one-operand ALU operations have g0 in B, and no load extends 8 bytes. -/
def limEncodes (op : LimOp) : Bool :=
  match op with
  | .alu o _ _ _ b => !aluOne o || b == 0
  | .load z sext _ _ _ => !sext || z != .d
  | .mul .. | .imm .. | .shfi .. | .lim .. | .shi .. | .cmp .. | .cmpi .. | .plog .. | .store .. | .ldx .. | .stx .. | .atom .. => true
  | .br .. | .call .. | .jmpr .. | .callr .. | .fence .. | .dcinv .. | .dcinvall | .icinv | .trap .. | .brk | .xret | .stop => true
  | .mfs .. | .mts .. | .chPut .. | .chSeal .. | .chTry .. | .chGet .. | .dlchk .. | .dlleft .. | .pwOpen .. | .pwClose .. => true
  | .pwFree .. | .eng .. => true

/-- The command of a table word: none, since no row of spec/opcode_table.json has bits. -/
def decodeTableWord (_nbits _w : Nat) : Option Instr := none

end Sys2Proof
end

