-- ==== Sys2Proof/Machine/Limoon.lean ====
section
/-! DEFINITION. The issue of Limoon instructions: what each does, its precise exceptions in their order, and one meaning for each row
(chapters 07 and 08). -/

namespace Sys2Proof.Machine

open Sys2Proof

/-! What an instruction does once it issues -/

/-- An instruction that writes one register. -/
def Dev.put1 (d : Dev) (t : Nat) (r : BitVec 5) (v : Word) : Dev := d.updThr t fun x => (x.setReg r v).step1

/-- An instruction that writes one predicate. -/
def Dev.putP (d : Dev) (t : Nat) (p : BitVec 3) (b : Bool) : Dev := d.updThr t fun x => (x.setPred p b).step1

/-- The thread goes on. -/
def Dev.onward (d : Dev) (t : Nat) : Dev := d.updThr t Thread.step1

/-- A taken branch. -/
def Dev.jump (d : Dev) (t pc : Nat) : Dev := d.updThr t fun x => { x with pc := pc % 2 ^ 48 }

/-- The thread goes on after an access, or its exception stands. -/
def Did.onward (r : Did) (t : Nat) : Did :=
  match r with
  | .ok d => .ok (d.onward t)
  | .error e => .error e

/-- The target of a relative branch (R187). -/
def branchTo (pc : Nat) (off : BitVec 22) : Nat := ((pc : Int) + 4 * off.toInt) % (2 ^ 48 : Nat) |>.toNat

/-- An address: base and signed offset (R182). -/
def baseOff (a : Word) (imm : BitVec 12) : Nat := (a + imm.signExtend 64).toNat
/-- An address: base and scaled index. -/
def baseIndex (a b : Word) (scale : BitVec 2) : Nat := (a + b <<< scale.toNat).toNat

/-- A jump to a register (R187), with a link where it is CALLR. -/
def Dev.jumpReg (d : Dev) (t : Nat) (a : BitVec 5) (link : Bool) : Did :=
  let x := d.thr t
  let target := (x.reg a).toNat
  if target % 4 != 0 then .error (3, 0, target)
  else
    let d := if link then d.updThr t fun x => x.setReg 31 (BitVec.ofNat 64 x.nextPc) else d
    .ok (d.jump t target)

/-- A channel instruction: its effect, or CHANNEL with its cause. -/
def Dev.chanDid (d : Dev) (t : Nat) (cause : Option Nat) (f : Dev → Dev) : Did :=
  match cause with
  | some c => .error (6, c, 0)
  | none => .ok ((f d).onward t)

/-- A datapath instruction: its effect, or ENGINE with its detail. -/
def Dev.engDid (d : Dev) (t : Nat) (cause : Option Nat) (f : Dev → Dev) : Did :=
  match cause with
  | some c => .error (7, c, 0)
  | none => .ok ((f d).onward t)

/-- The engine of an engine command has room for a reply (R222). -/
def Dev.engRoom (d : Dev) (t : Nat) (op : LimOp) : Bool :=
  match op with
  | .eng e _ _ _ => d.heldReplies (engEnd e (t / 64)) (t / 64) < 16
  | _ => true

/-- XRET (R199): the handler returns, so what is outstanding is no longer an access of the handler that runs (R198, R200). -/
def Thread.leave (x : Thread) : Thread :=
  let out (a : MemAcc) : MemAcc := { a with inHandler := false }
  { x with pc := x.epc % 2 ^ 48 / 4 * 4, priv := x.estate, exl := false, loads := x.loads.map out, parked := x.parked.map out }

/-- The registers and the exceptions of an instruction that is legal, permitted and ready; prev is the device at the end of the
previous tick. -/
def Dev.perform (prev d : Dev) (t : Nat) (op : LimOp) : Did :=
  let x := d.thr t
  match op with
  | .alu o w r a b => .ok (d.put1 t r (aluValue o w (x.reg a) (x.reg b)))
  | .mul o w r a b => .ok (d.put1 t r (mulValue o w (x.reg a) (x.reg b)))
  | .imm o r a imm => .ok (d.put1 t r (immValue o (x.reg a) imm))
  | .shfi o w r a n => .ok (d.put1 t r (shfValue o w (x.reg a) n))
  | .lim r imm => .ok (d.put1 t r (limValue imm))
  | .shi r imm => .ok (d.put1 t r (shiValue (x.reg r) imm))
  | .cmp cc p a b => .ok (d.putP t p (cmpValue cc (x.reg a) (x.reg b)))
  | .cmpi cc p a imm => .ok (d.putP t p (cmpValue cc (x.reg a) (imm.signExtend 64)))
  | .plog o p a b => .ok (d.putP t p (plogValue o (x.pred a) (x.pred b)))
  | .load z sext r a imm => (d.loadAt t r (sizeBytes z) sext (baseOff (x.reg a) imm)).onward t
  | .ldx z sext sc r a b => (d.loadAt t r (sizeBytes z) sext (baseIndex (x.reg a) (x.reg b) sc)).onward t
  | .store z r a imm => (d.storeAt t (sizeBytes z) (baseOff (x.reg a) imm) (x.reg r)).onward t
  | .stx z sc r a b => (d.storeAt t (sizeBytes z) (baseIndex (x.reg a) (x.reg b) sc) (x.reg r)).onward t
  | .atom o w ord r a b => (d.atomicAt t o w (ord.getLsbD 0) r (x.reg a).toNat (x.reg b) (x.reg r)).onward t
  | .br off => .ok (d.jump t (branchTo x.pc off))
  | .call off => .ok ((d.updThr t fun x => x.setReg 31 (BitVec.ofNat 64 x.nextPc)).jump t (branchTo x.pc off))
  | .jmpr a => d.jumpReg t a false
  | .callr a => d.jumpReg t a true
  | .fence k => .ok ((d.fence t k.toNat).onward t)
  | .dcinv a => .ok ((d.dropLine (coreOf t) (x.reg a).toNat).onward t)
  | .dcinvall => .ok ((d.dropDcache (coreOf t)).onward t)
  | .icinv => .ok ((d.dropIcache (coreOf t)).onward t)
  | .trap b => .error (8, b.toNat, 0)
  | .brk => if x.brkHalt then .ok ((d.updThr t fun x => { x with breaking := true }).ask (.halt t)) else .error (9, 0, 0)
  | .xret => .ok (d.updThr t fun x => x.leave)
  | .stop => .ok ((d.updThr t fun x => { x.step1 with stopping := true }).finishStop t)
  | .mfs r sr =>
    let (v, d) := Dev.srRead prev d t sr.toNat
    .ok (d.put1 t r (BitVec.ofNat 64 v))
  | .mts a sr =>
    let d := if sr.toNat == 0x108 then d.endWait t else d
    .ok (d.updThr t fun y => (y.srWrite sr.toNat (x.reg a).toNat).step1)
  | .chPut a b => d.chanDid t (d.putCause t (chanNo (x.reg a))) fun d => d.chPut t (chanNo (x.reg a)) (x.reg b)
  | .chSeal p a => d.chanDid t (d.sealCause t (chanNo (x.reg a))) fun d => d.chSeal t (chanNo (x.reg a)) p
  | .chTry p a => d.chanDid t (d.tryCause t (chanNo (x.reg a))) fun d => d.chTry t (chanNo (x.reg a)) p
  | .chGet p r a n => d.chanDid t (d.getCause t (chanNo (x.reg a)) r.toNat n.toNat) fun d =>
      d.chGet t (chanNo (x.reg a)) r.toNat n.toNat p
  | .dlchk p a b => .ok (d.putP t p (sgn 32 (x.reg b).toNat ≤ shortDiff ((x.reg a).toNat % 2 ^ 32) d.short))
  | .dlleft r a => .ok (d.put1 t r (BitVec.ofInt 64 (shortDiff ((x.reg a).toNat % 2 ^ 32) d.short)))
  | .pwOpen w r a => d.engDid t (d.openCause t (bitNat w) (x.reg a).toNat) fun d => d.pwOpen t (bitNat w) (x.reg a).toNat r
  | .pwClose w => d.engDid t (if Tab.get 0 x.windows (bitNat w) == 0 then some 2 else none) fun d =>
      d.updThr t fun x => { x with windows := Tab.set 0 x.windows (bitNat w) 0 }
  | .pwFree a => d.engDid t (if (d.runOf t (x.reg a).toNat).isNone then some 1 else none) fun d => d.pwFree (x.reg a).toNat
  | .eng e r a b => d.engDid t (d.engCause t e (x.reg a).toNat (chanNo (x.reg b))) fun d =>
      d.engIssue t e r (x.reg a).toNat (chanNo (x.reg b))

/-- The channel that a channel instruction names. -/
def Thread.chanOf (x : Thread) (op : LimOp) : Option Nat :=
  match op with
  | .chPut a _ | .chSeal _ a | .chTry _ a | .chGet _ _ a _ => some (chanNo (x.reg a))
  | _ => none

/-! Issue (R145, R173, R176, R191, R194, R195) -/

/-- Whether a thread issues: it runs, has executed neither STOP nor a BRK that halts it, and the device has not tripped (R494). -/
def Dev.mayRun (d : Dev) (t : Nat) : Bool :=
  (d.thr t).st == 1 && !(d.thr t).stopping && !(d.thr t).breaking && !d.boot.thermTrip

/-- The address that a load or store names. -/
def Thread.target (x : Thread) (op : LimOp) : Option Nat :=
  match op with
  | .load _ _ _ a imm | .store _ _ a imm => some (baseOff (x.reg a) imm)
  | .ldx _ _ sc _ a b | .stx _ sc _ a b => some (baseIndex (x.reg a) (x.reg b) sc)
  | _ => none

/-- Whether an earlier read of the thread still waits for a tag of the host link that an access goes through, so that the access may not
be handed to the link (R202). -/
def Dev.linkWaits (d : Dev) (t : Nat) (op : LimOp) : Bool :=
  let mine (r : HostRead) : Bool := match r.use with | .thread u _ => u == t | _ => false
  match (d.thr t).target op with
  | none => false
  | some a => match d.place a with
    | .host tid _ => d.host.readQ.any (fun r => mine r && r.link == linkOf tid)
    | .ddr | .hbm | .sram _ | .packet | .control _ | .hole => false

/-- Whether an instruction is ready: no source register is awaited, its unit takes it, and no fence or ordering holds it back. -/
def Dev.ready (d : Dev) (t : Nat) (op : LimOp) : Bool :=
  let x := d.thr t
  !x.loads.any (x.blockedBy op) && !x.fenced op && d.engRoom t op && !d.linkWaits t op &&
    (match op with
     | .atom _ _ ord _ _ _ => !ord.getLsbD 1 || x.unperformed.isEmpty
     | _ => true)

/-- One more instruction issued by a thread and on its core. -/
def Dev.counted (d : Dev) (t : Nat) : Dev :=
  let d := d.updThr t fun x => { x with instret := x.instret + 1 }
  { d with shl := { d.shl with issued := Tab.upd 0 d.shl.issued (coreOf t) (· + 1) } }

/-- Whether a guard is true (R173). -/
def Thread.guard (x : Thread) (n : Bool) (p : BitVec 3) : Bool := x.pred p != n

/-- An instruction of a thread that is legal issues, once what it waits for has returned. -/
def Dev.issueLegal (prev d : Dev) (t : Nat) (n : Bool) (p : BitVec 3) (op : LimOp) : Dev :=
  match d.settleAcc t op (d.thr t).loads with
  | (d, true) => d
  | (d, false) =>
    let d := d.passFences t
    let x := d.thr t
    if !d.ready t op then d
    else if !x.guard n p then (d.counted t).onward t
    else if limPrivileged op && !x.priv then d.takePrecise t 2 0 0
    else match Dev.perform prev (d.counted t) t op with
      | .ok d => d
      | .error (num, k, a) =>
        let d := match num == 6, x.chanOf op with
          | true, some ch => d.misuse ch
          | _, _ => d
        d.takePrecise t num k a

/-- A thread issues an instruction: the fetch at its PC, the encoding, then the instruction. -/
def Dev.limoon (prev d : Dev) (i : Issue) (op : LimOp) : Dev :=
  let t := i.th.toNat
  if !d.mayRun t then d
  else match d.fetchFault t with
  | some k => d.takeFetch t k
  | none =>
    if (i.n && i.p == 0) || !limLegal op then d.takePrecise t 1 0 0
    else Dev.issueLegal prev d t i.n i.p op

/-! STEP (R169) -/

/-- STEP at its boundary: a fault that returned while the thread was HALTED is taken in place of an instruction. Whether the step was
made; one whose instruction is not ready waits. -/
def Dev.stepThread (prev d : Dev) (t : Nat) : Dev × Bool :=
  if (d.thr t).st != 2 then (d, true)
  else
    let halt (d : Dev) : Dev := d.haltThread t
    match (d.updThr t fun x => { x with st := 1 }).takeParked t with
    | (d, true) => (halt d, true)
    | (d, false) =>
      match d.fetchFault t with
      | some k => (halt (d.takeFetch t k), true)
      | none =>
        match d.fetchWord t with
        | (none, d) =>
          let x := d.thr t
          (halt (d.takeExc t { num := 5, detail := 1, efpc := x.pc, epc := x.pc, eaddr := x.pc }), true)
        | (some w, d) =>
          match limoonDecode w with
          | none => (halt (d.takePrecise t 1 0 0), true)
          | some (n, p, op) =>
            let e := Dev.limoon prev d ⟨BitVec.ofNat 10 t, n, p⟩ op
            let moved := (e.thr t).instret != (d.thr t).instret || (e.thr t).st != 1 || (e.thr t).pc != (d.thr t).pc || (e.thr t).exl != (d.thr t).exl
            (halt e, moved)

/-! The rows -/

/-- ADD (R177). -/
def execAdd (i : Issue) (w : Bool) (d a b : BitVec 5) (s : State) : Host.Outcome State Fault Refusal :=
  s.run fun dev => Dev.limoon s.prev dev i (.alu .add w d a b)

/-- SUB (R177). -/
def execSub (i : Issue) (w : Bool) (d a b : BitVec 5) (s : State) : Host.Outcome State Fault Refusal :=
  s.run fun dev => Dev.limoon s.prev dev i (.alu .sub w d a b)

/-- AND (R177). -/
def execAnd (i : Issue) (d a b : BitVec 5) (s : State) : Host.Outcome State Fault Refusal :=
  s.run fun dev => Dev.limoon s.prev dev i (.alu .and false d a b)

/-- OR (R177). -/
def execOr (i : Issue) (d a b : BitVec 5) (s : State) : Host.Outcome State Fault Refusal :=
  s.run fun dev => Dev.limoon s.prev dev i (.alu .or false d a b)

/-- XOR (R177). -/
def execXor (i : Issue) (d a b : BitVec 5) (s : State) : Host.Outcome State Fault Refusal :=
  s.run fun dev => Dev.limoon s.prev dev i (.alu .xor false d a b)

/-- ANDN (R177). -/
def execAndn (i : Issue) (d a b : BitVec 5) (s : State) : Host.Outcome State Fault Refusal :=
  s.run fun dev => Dev.limoon s.prev dev i (.alu .andn false d a b)

/-- SLL (R177). -/
def execSll (i : Issue) (w : Bool) (d a b : BitVec 5) (s : State) : Host.Outcome State Fault Refusal :=
  s.run fun dev => Dev.limoon s.prev dev i (.alu .sll w d a b)

/-- SRL (R177). -/
def execSrl (i : Issue) (w : Bool) (d a b : BitVec 5) (s : State) : Host.Outcome State Fault Refusal :=
  s.run fun dev => Dev.limoon s.prev dev i (.alu .srl w d a b)

/-- SRA (R177). -/
def execSra (i : Issue) (w : Bool) (d a b : BitVec 5) (s : State) : Host.Outcome State Fault Refusal :=
  s.run fun dev => Dev.limoon s.prev dev i (.alu .sra w d a b)

/-- ROR (R177). -/
def execRor (i : Issue) (d a b : BitVec 5) (s : State) : Host.Outcome State Fault Refusal :=
  s.run fun dev => Dev.limoon s.prev dev i (.alu .ror false d a b)

/-- MIN (R177). -/
def execMin (i : Issue) (d a b : BitVec 5) (s : State) : Host.Outcome State Fault Refusal :=
  s.run fun dev => Dev.limoon s.prev dev i (.alu .min false d a b)

/-- MAX (R177). -/
def execMax (i : Issue) (d a b : BitVec 5) (s : State) : Host.Outcome State Fault Refusal :=
  s.run fun dev => Dev.limoon s.prev dev i (.alu .max false d a b)

/-- MINU (R177). -/
def execMinu (i : Issue) (d a b : BitVec 5) (s : State) : Host.Outcome State Fault Refusal :=
  s.run fun dev => Dev.limoon s.prev dev i (.alu .minu false d a b)

/-- MAXU (R177). -/
def execMaxu (i : Issue) (d a b : BitVec 5) (s : State) : Host.Outcome State Fault Refusal :=
  s.run fun dev => Dev.limoon s.prev dev i (.alu .maxu false d a b)

/-- CLZ (R177). -/
def execClz (i : Issue) (d a : BitVec 5) (s : State) : Host.Outcome State Fault Refusal :=
  s.run fun dev => Dev.limoon s.prev dev i (.alu .clz false d a 0)

/-- CTZ (R177). -/
def execCtz (i : Issue) (d a : BitVec 5) (s : State) : Host.Outcome State Fault Refusal :=
  s.run fun dev => Dev.limoon s.prev dev i (.alu .ctz false d a 0)

/-- POPC (R177). -/
def execPopc (i : Issue) (d a : BitVec 5) (s : State) : Host.Outcome State Fault Refusal :=
  s.run fun dev => Dev.limoon s.prev dev i (.alu .popc false d a 0)

/-- BSWAP (R177). -/
def execBswap (i : Issue) (d a : BitVec 5) (s : State) : Host.Outcome State Fault Refusal :=
  s.run fun dev => Dev.limoon s.prev dev i (.alu .bswap false d a 0)

/-- MUL (R177). -/
def execMul (i : Issue) (w : Bool) (d a b : BitVec 5) (s : State) : Host.Outcome State Fault Refusal :=
  s.run fun dev => Dev.limoon s.prev dev i (.mul .mul w d a b)

/-- MULHS (R177). -/
def execMulhs (i : Issue) (d a b : BitVec 5) (s : State) : Host.Outcome State Fault Refusal :=
  s.run fun dev => Dev.limoon s.prev dev i (.mul .mulhs false d a b)

/-- MULHU (R177). -/
def execMulhu (i : Issue) (d a b : BitVec 5) (s : State) : Host.Outcome State Fault Refusal :=
  s.run fun dev => Dev.limoon s.prev dev i (.mul .mulhu false d a b)

/-- DIV (R178). -/
def execDiv (i : Issue) (w : Bool) (d a b : BitVec 5) (s : State) : Host.Outcome State Fault Refusal :=
  s.run fun dev => Dev.limoon s.prev dev i (.mul .div w d a b)

/-- DIVU (R178). -/
def execDivu (i : Issue) (w : Bool) (d a b : BitVec 5) (s : State) : Host.Outcome State Fault Refusal :=
  s.run fun dev => Dev.limoon s.prev dev i (.mul .divu w d a b)

/-- REM (R178). -/
def execRem (i : Issue) (w : Bool) (d a b : BitVec 5) (s : State) : Host.Outcome State Fault Refusal :=
  s.run fun dev => Dev.limoon s.prev dev i (.mul .rem w d a b)

/-- REMU (R178). -/
def execRemu (i : Issue) (w : Bool) (d a b : BitVec 5) (s : State) : Host.Outcome State Fault Refusal :=
  s.run fun dev => Dev.limoon s.prev dev i (.mul .remu w d a b)

/-- ADDI (R179). -/
def execAddi (i : Issue) (d a : BitVec 5) (imm : BitVec 12) (s : State) : Host.Outcome State Fault Refusal :=
  s.run fun dev => Dev.limoon s.prev dev i (.imm .add d a imm)

/-- ANDI (R179). -/
def execAndi (i : Issue) (d a : BitVec 5) (imm : BitVec 12) (s : State) : Host.Outcome State Fault Refusal :=
  s.run fun dev => Dev.limoon s.prev dev i (.imm .and d a imm)

/-- ORI (R179). -/
def execOri (i : Issue) (d a : BitVec 5) (imm : BitVec 12) (s : State) : Host.Outcome State Fault Refusal :=
  s.run fun dev => Dev.limoon s.prev dev i (.imm .or d a imm)

/-- XORI (R179). -/
def execXori (i : Issue) (d a : BitVec 5) (imm : BitVec 12) (s : State) : Host.Outcome State Fault Refusal :=
  s.run fun dev => Dev.limoon s.prev dev i (.imm .xor d a imm)

/-- SHFI (R179). -/
def execShfi (i : Issue) (op : ShfOp) (w : Bool) (d a : BitVec 5) (amount : BitVec 6) (s : State) : Host.Outcome State Fault Refusal :=
  s.run fun dev => Dev.limoon s.prev dev i (.shfi op w d a amount)

/-- LIM (R179). -/
def execLim (i : Issue) (d : BitVec 5) (imm : BitVec 17) (s : State) : Host.Outcome State Fault Refusal :=
  s.run fun dev => Dev.limoon s.prev dev i (.lim d imm)

/-- SHI (R179). -/
def execShi (i : Issue) (d : BitVec 5) (imm : BitVec 16) (s : State) : Host.Outcome State Fault Refusal :=
  s.run fun dev => Dev.limoon s.prev dev i (.shi d imm)

/-- CMP (R180). -/
def execCmp (i : Issue) (cc : CmpCond) (pd : BitVec 3) (a b : BitVec 5) (s : State) : Host.Outcome State Fault Refusal :=
  s.run fun dev => Dev.limoon s.prev dev i (.cmp cc pd a b)

/-- CMPI (R180). -/
def execCmpi (i : Issue) (cc : CmpCond) (pd : BitVec 3) (a : BitVec 5) (imm : BitVec 11) (s : State) : Host.Outcome State Fault Refusal :=
  s.run fun dev => Dev.limoon s.prev dev i (.cmpi cc pd a imm)

/-- PLOG_AND (R181). -/
def execPlogAnd (i : Issue) (pd pa pb : BitVec 3) (s : State) : Host.Outcome State Fault Refusal :=
  s.run fun dev => Dev.limoon s.prev dev i (.plog .and pd pa pb)

/-- PLOG_OR (R181). -/
def execPlogOr (i : Issue) (pd pa pb : BitVec 3) (s : State) : Host.Outcome State Fault Refusal :=
  s.run fun dev => Dev.limoon s.prev dev i (.plog .or pd pa pb)

/-- PLOG_XOR (R181). -/
def execPlogXor (i : Issue) (pd pa pb : BitVec 3) (s : State) : Host.Outcome State Fault Refusal :=
  s.run fun dev => Dev.limoon s.prev dev i (.plog .xor pd pa pb)

/-- PLOG_ANDN (R181). -/
def execPlogAndn (i : Issue) (pd pa pb : BitVec 3) (s : State) : Host.Outcome State Fault Refusal :=
  s.run fun dev => Dev.limoon s.prev dev i (.plog .andn pd pa pb)

/-- PLOG_ORN (R181). -/
def execPlogOrn (i : Issue) (pd pa pb : BitVec 3) (s : State) : Host.Outcome State Fault Refusal :=
  s.run fun dev => Dev.limoon s.prev dev i (.plog .orn pd pa pb)

/-- PLOG_MOV (R181). -/
def execPlogMov (i : Issue) (pd pa : BitVec 3) (s : State) : Host.Outcome State Fault Refusal :=
  s.run fun dev => Dev.limoon s.prev dev i (.plog .mov pd pa 0)

/-- LDB (R182). -/
def execLdb (i : Issue) (d a : BitVec 5) (imm : BitVec 12) (s : State) : Host.Outcome State Fault Refusal :=
  s.run fun dev => Dev.limoon s.prev dev i (.load .b false d a imm)

/-- LDH (R182). -/
def execLdh (i : Issue) (d a : BitVec 5) (imm : BitVec 12) (s : State) : Host.Outcome State Fault Refusal :=
  s.run fun dev => Dev.limoon s.prev dev i (.load .h false d a imm)

/-- LDW (R182). -/
def execLdw (i : Issue) (d a : BitVec 5) (imm : BitVec 12) (s : State) : Host.Outcome State Fault Refusal :=
  s.run fun dev => Dev.limoon s.prev dev i (.load .w false d a imm)

/-- LDD (R182). -/
def execLdd (i : Issue) (d a : BitVec 5) (imm : BitVec 12) (s : State) : Host.Outcome State Fault Refusal :=
  s.run fun dev => Dev.limoon s.prev dev i (.load .d false d a imm)

/-- LDBS (R182). -/
def execLdbs (i : Issue) (d a : BitVec 5) (imm : BitVec 12) (s : State) : Host.Outcome State Fault Refusal :=
  s.run fun dev => Dev.limoon s.prev dev i (.load .b true d a imm)

/-- LDHS (R182). -/
def execLdhs (i : Issue) (d a : BitVec 5) (imm : BitVec 12) (s : State) : Host.Outcome State Fault Refusal :=
  s.run fun dev => Dev.limoon s.prev dev i (.load .h true d a imm)

/-- LDWS (R182). -/
def execLdws (i : Issue) (d a : BitVec 5) (imm : BitVec 12) (s : State) : Host.Outcome State Fault Refusal :=
  s.run fun dev => Dev.limoon s.prev dev i (.load .w true d a imm)

/-- STB (R182). -/
def execStb (i : Issue) (d a : BitVec 5) (imm : BitVec 12) (s : State) : Host.Outcome State Fault Refusal :=
  s.run fun dev => Dev.limoon s.prev dev i (.store .b d a imm)

/-- STH (R182). -/
def execSth (i : Issue) (d a : BitVec 5) (imm : BitVec 12) (s : State) : Host.Outcome State Fault Refusal :=
  s.run fun dev => Dev.limoon s.prev dev i (.store .h d a imm)

/-- STW (R182). -/
def execStw (i : Issue) (d a : BitVec 5) (imm : BitVec 12) (s : State) : Host.Outcome State Fault Refusal :=
  s.run fun dev => Dev.limoon s.prev dev i (.store .w d a imm)

/-- STD (R182). -/
def execStd (i : Issue) (d a : BitVec 5) (imm : BitVec 12) (s : State) : Host.Outcome State Fault Refusal :=
  s.run fun dev => Dev.limoon s.prev dev i (.store .d d a imm)

/-- LDX (R183). -/
def execLdx (i : Issue) (size : MemSize) (sext : Bool) (scale : BitVec 2) (d a b : BitVec 5) (s : State) : Host.Outcome State Fault Refusal :=
  s.run fun dev => Dev.limoon s.prev dev i (.ldx size sext scale d a b)

/-- STX (R183). -/
def execStx (i : Issue) (size : MemSize) (scale : BitVec 2) (d a b : BitVec 5) (s : State) : Host.Outcome State Fault Refusal :=
  s.run fun dev => Dev.limoon s.prev dev i (.stx size scale d a b)

/-- ATOM_SWP (R185). -/
def execAtomSwp (i : Issue) (wide : Bool) (order : BitVec 2) (d a b : BitVec 5) (s : State) : Host.Outcome State Fault Refusal :=
  s.run fun dev => Dev.limoon s.prev dev i (.atom .swp wide order d a b)

/-- ATOM_ADD (R185). -/
def execAtomAdd (i : Issue) (wide : Bool) (order : BitVec 2) (d a b : BitVec 5) (s : State) : Host.Outcome State Fault Refusal :=
  s.run fun dev => Dev.limoon s.prev dev i (.atom .add wide order d a b)

/-- ATOM_AND (R185). -/
def execAtomAnd (i : Issue) (wide : Bool) (order : BitVec 2) (d a b : BitVec 5) (s : State) : Host.Outcome State Fault Refusal :=
  s.run fun dev => Dev.limoon s.prev dev i (.atom .and wide order d a b)

/-- ATOM_OR (R185). -/
def execAtomOr (i : Issue) (wide : Bool) (order : BitVec 2) (d a b : BitVec 5) (s : State) : Host.Outcome State Fault Refusal :=
  s.run fun dev => Dev.limoon s.prev dev i (.atom .or wide order d a b)

/-- ATOM_XOR (R185). -/
def execAtomXor (i : Issue) (wide : Bool) (order : BitVec 2) (d a b : BitVec 5) (s : State) : Host.Outcome State Fault Refusal :=
  s.run fun dev => Dev.limoon s.prev dev i (.atom .xor wide order d a b)

/-- ATOM_SMAX (R185). -/
def execAtomSmax (i : Issue) (wide : Bool) (order : BitVec 2) (d a b : BitVec 5) (s : State) : Host.Outcome State Fault Refusal :=
  s.run fun dev => Dev.limoon s.prev dev i (.atom .smax wide order d a b)

/-- ATOM_UMAX (R185). -/
def execAtomUmax (i : Issue) (wide : Bool) (order : BitVec 2) (d a b : BitVec 5) (s : State) : Host.Outcome State Fault Refusal :=
  s.run fun dev => Dev.limoon s.prev dev i (.atom .umax wide order d a b)

/-- ATOM_CAS (R185). -/
def execAtomCas (i : Issue) (wide : Bool) (order : BitVec 2) (d a b : BitVec 5) (s : State) : Host.Outcome State Fault Refusal :=
  s.run fun dev => Dev.limoon s.prev dev i (.atom .cas wide order d a b)

/-- BR (R187). -/
def execBr (i : Issue) (off : BitVec 22) (s : State) : Host.Outcome State Fault Refusal :=
  s.run fun dev => Dev.limoon s.prev dev i (.br off)

/-- CALL (R187). -/
def execCall (i : Issue) (off : BitVec 22) (s : State) : Host.Outcome State Fault Refusal :=
  s.run fun dev => Dev.limoon s.prev dev i (.call off)

/-- JMPR (R187). -/
def execJmpr (i : Issue) (a : BitVec 5) (s : State) : Host.Outcome State Fault Refusal :=
  s.run fun dev => Dev.limoon s.prev dev i (.jmpr a)

/-- CALLR (R187). -/
def execCallr (i : Issue) (a : BitVec 5) (s : State) : Host.Outcome State Fault Refusal :=
  s.run fun dev => Dev.limoon s.prev dev i (.callr a)

/-- FENCE (R203). -/
def execFence (i : Issue) (kind : BitVec 5) (s : State) : Host.Outcome State Fault Refusal :=
  s.run fun dev => Dev.limoon s.prev dev i (.fence kind)

/-- DCINV (R189). -/
def execDcinv (i : Issue) (a : BitVec 5) (s : State) : Host.Outcome State Fault Refusal :=
  s.run fun dev => Dev.limoon s.prev dev i (.dcinv a)

/-- TRAP (R194). -/
def execTrap (i : Issue) (b : BitVec 5) (s : State) : Host.Outcome State Fault Refusal :=
  s.run fun dev => Dev.limoon s.prev dev i (.trap b)

/-- DCINVALL (R189). -/
def execDcinvall (i : Issue) (s : State) : Host.Outcome State Fault Refusal :=
  s.run fun dev => Dev.limoon s.prev dev i (.dcinvall)

/-- ICINV (R189). -/
def execIcinv (i : Issue) (s : State) : Host.Outcome State Fault Refusal :=
  s.run fun dev => Dev.limoon s.prev dev i (.icinv)

/-- BRK (R189). -/
def execBrk (i : Issue) (s : State) : Host.Outcome State Fault Refusal :=
  s.run fun dev => Dev.limoon s.prev dev i (.brk)

/-- XRET (R199). -/
def execXret (i : Issue) (s : State) : Host.Outcome State Fault Refusal :=
  s.run fun dev => Dev.limoon s.prev dev i (.xret)

/-- STOP (R189). -/
def execStop (i : Issue) (s : State) : Host.Outcome State Fault Refusal :=
  s.run fun dev => Dev.limoon s.prev dev i (.stop)

/-- MFS (R190). -/
def execMfs (i : Issue) (d : BitVec 5) (sr : BitVec 12) (s : State) : Host.Outcome State Fault Refusal :=
  s.run fun dev => Dev.limoon s.prev dev i (.mfs d sr)

/-- MTS (R190). -/
def execMts (i : Issue) (a : BitVec 5) (sr : BitVec 12) (s : State) : Host.Outcome State Fault Refusal :=
  s.run fun dev => Dev.limoon s.prev dev i (.mts a sr)

/-- CH_PUT (R155). -/
def execChPut (i : Issue) (a b : BitVec 5) (s : State) : Host.Outcome State Fault Refusal :=
  s.run fun dev => Dev.limoon s.prev dev i (.chPut a b)

/-- CH_SEAL (R155). -/
def execChSeal (i : Issue) (pd : BitVec 3) (a : BitVec 5) (s : State) : Host.Outcome State Fault Refusal :=
  s.run fun dev => Dev.limoon s.prev dev i (.chSeal pd a)

/-- CH_TRY (R156). -/
def execChTry (i : Issue) (pd : BitVec 3) (a : BitVec 5) (s : State) : Host.Outcome State Fault Refusal :=
  s.run fun dev => Dev.limoon s.prev dev i (.chTry pd a)

/-- CH_GET (R207). -/
def execChGet (i : Issue) (pd : BitVec 3) (d a n : BitVec 5) (s : State) : Host.Outcome State Fault Refusal :=
  s.run fun dev => Dev.limoon s.prev dev i (.chGet pd d a n)

/-- DLCHK (R210). -/
def execDlchk (i : Issue) (pd : BitVec 3) (a b : BitVec 5) (s : State) : Host.Outcome State Fault Refusal :=
  s.run fun dev => Dev.limoon s.prev dev i (.dlchk pd a b)

/-- DLLEFT (R210). -/
def execDlleft (i : Issue) (d a : BitVec 5) (s : State) : Host.Outcome State Fault Refusal :=
  s.run fun dev => Dev.limoon s.prev dev i (.dlleft d a)

/-- PW_OPEN (R214). -/
def execPwOpen (i : Issue) (w : Bool) (d a : BitVec 5) (s : State) : Host.Outcome State Fault Refusal :=
  s.run fun dev => Dev.limoon s.prev dev i (.pwOpen w d a)

/-- PW_CLOSE (R214). -/
def execPwClose (i : Issue) (w : Bool) (s : State) : Host.Outcome State Fault Refusal :=
  s.run fun dev => Dev.limoon s.prev dev i (.pwClose w)

/-- PW_FREE (R214). -/
def execPwFree (i : Issue) (a : BitVec 5) (s : State) : Host.Outcome State Fault Refusal :=
  s.run fun dev => Dev.limoon s.prev dev i (.pwFree a)

/-- BOOK (R223). -/
def execBook (i : Issue) (d a b : BitVec 5) (s : State) : Host.Outcome State Fault Refusal :=
  s.run fun dev => Dev.limoon s.prev dev i (.eng .book d a b)

/-- REEF_LOOK (R228). -/
def execReefLook (i : Issue) (d a b : BitVec 5) (s : State) : Host.Outcome State Fault Refusal :=
  s.run fun dev => Dev.limoon s.prev dev i (.eng .reefLook d a b)

/-- REEF_INS (R285). -/
def execReefIns (i : Issue) (d a b : BitVec 5) (s : State) : Host.Outcome State Fault Refusal :=
  s.run fun dev => Dev.limoon s.prev dev i (.eng .reefIns d a b)

/-- REEF_DEL (R298). -/
def execReefDel (i : Issue) (d a b : BitVec 5) (s : State) : Host.Outcome State Fault Refusal :=
  s.run fun dev => Dev.limoon s.prev dev i (.eng .reefDel d a b)

/-- CY_SUB0 (R379). -/
def execCySub0 (i : Issue) (d a b : BitVec 5) (s : State) : Host.Outcome State Fault Refusal :=
  s.run fun dev => Dev.limoon s.prev dev i (.eng .cySub0 d a b)

/-- CY_SUB1 (R379). -/
def execCySub1 (i : Issue) (d a b : BitVec 5) (s : State) : Host.Outcome State Fault Refusal :=
  s.run fun dev => Dev.limoon s.prev dev i (.eng .cySub1 d a b)

/-- PAT_SUB (R230). -/
def execPatSub (i : Issue) (d a b : BitVec 5) (s : State) : Host.Outcome State Fault Refusal :=
  s.run fun dev => Dev.limoon s.prev dev i (.eng .patSub d a b)

/-- MOV_SUB (R231). -/
def execMovSub (i : Issue) (d a b : BitVec 5) (s : State) : Host.Outcome State Fault Refusal :=
  s.run fun dev => Dev.limoon s.prev dev i (.eng .movSub d a b)

end Sys2Proof.Machine
end

