-- ==== Sys2Proof/Machine/System.lean ====
section
/-! DEFINITION. Errors that memory reads show, the CONFIGURE stage of the start, the end of a self-test, and the sensors and bias
tests of the pins (chapters 16 to 18). -/

namespace Sys2Proof.Machine

open Sys2Proof

/-! Memory errors (R416 to R420, R427, R428) -/

/-- The memory source of a read: the table cache for tag lines and prefix entries, a unit's own tables, else by address. -/
def Dev.readSource (d : Dev) (a : Nat) (who : ReadBy) : Option Nat :=
  match who with
  | .reefTag _ | .reefPrefix _ => some 0x71
  | .unit u => some (0x72 + u.toNat)
  | .thread _ _ | .op _ | .mover _ | .scan _ | .resp _ _ | .patrol | .reefEntry _ => d.memSource a

/-- The tenant of a read, where it is an operation's, or a connection's. -/
def Dev.readTid (d : Dev) (who : ReadBy) : Option Nat :=
  match who with
  | .op id => (d.op? id).bind Op.tid?
  | .resp c _ => some (d.inF (Reg.SWH_C_TID c.toNat))
  | .thread _ _ | .mover _ | .scan _ | .patrol | .reefTag _ | .reefEntry _ | .reefPrefix _ | .unit _ => none

/-- The thread of a read. -/
def readThread (who : ReadBy) : Option Nat :=
  match who with
  | .thread t _ => some t.toNat
  | .op _ | .resp _ _ | .mover _ | .scan _ | .patrol | .reefTag _ | .reefEntry _ | .reefPrefix _ | .unit _ => none

/-- The level of a fault at a source that is CLEAR (R427): 2 for a shoal's own work, 1 for a tenant's. A read that is neither, of
the patrol scrub or of Reef, is charged with level 1. -/
def Dev.firstLevel (d : Dev) (who : ReadBy) : Nat :=
  match who with
  | .thread _ _ | .mover _ | .scan _ => 2
  | .op id => match d.op? id with
    | some o => match o.req.org with
      | .sub _ _ _ => 2
      | .ring _ _ | .nvme _ _ | .book _ _ _ | .wire _ => 1
    | none => 1
  | .resp _ _ | .patrol | .reefTag _ | .reefEntry _ | .reefPrefix _ | .unit _ => 1

/-- Where a line lies in the range that the oldest command of a shoal's mover or pattern engine reads, whose address is word k. -/
def jobOffset (l : List EngJob) (shoal k a : Nat) : Nat :=
  match l.find? (fun j => j.shoal == shoal) with
  | some j => a - j.words.getD k 0
  | none => 0

/-- The oldest pattern command of a shoal fails at an offset of its range, or where it failed before. -/
def scanBack (l : List EngJob) (shoal off : Nat) : List EngJob :=
  match l.span (fun j => j.shoal != shoal) with
  | (h, j :: r) => h ++ { j with bad := some (0x61, match j.bad with | some (_, o) => min o off | none => off) } :: r
  | (h, []) => h

/-- A faulting atomic changes no memory (R197): where what it wrote still stands, the bytes before it come back. -/
def Dev.undoAtomic (d : Dev) (t id : Nat) : Dev :=
  match (d.thr t).loads.find? (fun a => a.id == id) with
  | some { addr := a, undo := some (old, new), .. } =>
    if d.bytes a new.length == new then
      { d with mem := { d.mem with mem := poke d.mem.mem a old, touched := d.mem.touched.filter (· != a / 32) } }
    else d
  | _ => d

/-- The reader is told that its read of the line at a failed (R417, R299): detail is 1 for poison, 2 for an error found now, 6 for a
misdirected read, which leaves the place itself as it is. Reef's read of this tick fails, and has its record. -/
def Dev.readFailed (d : Dev) (a : Nat) (who : ReadBy) (detail : Nat) : Dev :=
  match who with
  | .thread t i => (d.undoAtomic t.toNat i).threadBack t.toNat i (some (5, if detail == 1 then 1 else 2)) 0
  | .op id => d.withOp id fun d _ => d.endWith id 0x61 detail
  | .mover s => d.moverBack s.toNat (jobOffset d.shl.movers s.toNat 0 a) (.error 0x61)
  | .scan s => { d with shl := { d.shl with scans := scanBack d.shl.scans s.toNat (jobOffset d.shl.scans s.toNat 1 a) } }
  | .resp c off => d.respArrive c.toNat off 1 none
  | .patrol | .unit _ => d
  | .reefTag b => { d with reef := { d.reef with
      found := tagPlace b :: d.reef.found, tagPoison := if detail == 6 then d.reef.tagPoison else Tab.set false d.reef.tagPoison b true } }
  | .reefEntry p => { d with reef := { d.reef with
      found := emPlace p :: d.reef.found, emPoison := if detail == 6 then d.reef.emPoison else Tab.set false d.reef.emPoison p true } }
  | .reefPrefix i => { d with reef := { d.reef with
      found := pfxPlace i :: d.reef.found, pfxPoison := if detail == 6 then d.reef.pfxPoison else Tab.set false d.reef.pfxPoison i true } }

/-- A record of a memory error at a source. -/
def Dev.reportSource (d : Dev) (src kind sev detail a : Nat) (who : ReadBy) : Dev :=
  d.report { source := 0x040, subsrc := src, kind := kind, sev := sev, addr := a, tid := d.readTid who, thread := readThread who,
             detail := detail }

/-- The level of a fault, which the source takes (R427). -/
def Dev.takeLevel (d : Dev) (src : Nat) (who : ReadBy) : Nat × Dev :=
  let l := if d.bit (Reg.MEM_SOURCE_HANDLING src) then min 3 (d.rd (Reg.MEM_SOURCE_LEVEL src) + 1) else d.firstLevel who
  let d := (d.put (Reg.MEM_SOURCE_HANDLING src) 1).put (Reg.MEM_SOURCE_LEVEL src) l
  (l, { d with mem := { d.mem with escalated := src :: d.mem.escalated } })

/-- The response to a level (R428): 2 drains the shoal charged, 3 is device-fatal; before is the device at the end of the previous
tick. -/
def Dev.respond (before d : Dev) (src level : Nat) : Dev :=
  if level == 2 then
    let s := if 0x60 ≤ src && src < 0x70 then src - 0x60 else d.inF Reg.ERR_CTRL_MEM_SHOAL
    (d.store (Reg.SHL_CTRL_DRAIN s) 1).raise (Reg.SHL_FAULT_MEM s)
  else if level == 3 then Dev.fatalResponse before d
  else d

/-- An uncorrectable or misdirected error: counted, logged with its level, answered and responded to. -/
def Dev.memFault (before d : Dev) (src a kind sym detail : Nat) (who : ReadBy) : Dev :=
  let (l, d) := (d.bump (Reg.MEM_SOURCE_UNCORRECTABLE src)).takeLevel src who
  Dev.respond before ((d.reportSource src kind l sym a who).readFailed a who detail) src l

/-- An error in a unit's own tables (R417): uncorrectable codewords fail the active unit's check, or lapse the other unit; of
the draining unit they are logged as its check, and it keeps draining (R139). -/
def Dev.unitMemError (d : Dev) (u src a : Nat) (x : ReadOutcome) (who : ReadBy) : Dev :=
  let bad (d : Dev) : Dev :=
    if d.activeUnit == some u then { d with pair := { d.pair with void := some 1 } }
    else if d.peerUnit == some u then d.lapse
    else if d.pair.draining == some u then (d.reportUnit u 1).mgmt .bwk
    else d
  match x with
  | .good => d
  | .corrected p _ => ((d.bump (Reg.MEM_SOURCE_CORRECTED src)).bump (Reg.BWK_UNIT_COUNTS_CORRECTED u)).reportSource src 1 0 p a who
  | .misdirected i => bad ((d.bump (Reg.MEM_SOURCE_UNCORRECTABLE src)).reportSource src 3 2 i a who)
  | .poisoned | .uncorrectable => bad ((d.bump (Reg.MEM_SOURCE_UNCORRECTABLE src)).reportSource src 2 2 0 a who)

/-- A line is rewritten at the end of the tick. -/
def Dev.rewrite (d : Dev) (line : Nat) (data : List Byte) (poison : Bool) : Dev :=
  { d with mem := { d.mem with rewrites := d.mem.rewrites ++ [⟨line, data, poison⟩] } }

/-- A read of the line at a returned stored, its 32 data bytes and 4 check bytes (R416). -/
def Dev.readError (before d : Dev) (a : Nat) (stored : List Byte) (who : ReadBy) : Dev :=
  let x := decodeLine a stored
  match d.readSource a who, who with
  | none, _ => d
  | some src, .unit u => d.unitMemError u.toNat src a x who
  | some src, _ =>
    match x with
    | .good => d
    | .corrected p v =>
      let d := d.bump (Reg.MEM_SOURCE_CORRECTED src)
      let d := if d.bit (Reg.MEM_SOURCE_HANDLING src) then d else d.reportSource src 1 0 p a who
      if src == 0x71 then d else d.rewrite a (correctedData stored p v) false
    | .misdirected i => Dev.memFault before d src a 3 i 6 who
    | .poisoned => (d.reportSource src 4 1 0 a who).readFailed a who 1
    | .uncorrectable =>
      let d := Dev.memFault before d src a 2 0 2 who
      if src == 0x71 then d else d.rewrite a (stored.take 32) true

/-- MEMORY_READ_ERROR (R416). -/
def execMemoryReadError (addr : BitVec 48) (stored : List Byte) (who : ReadBy) (s : State) : Host.Outcome State Fault Refusal :=
  s.run fun d => Dev.readError s.prev d (addr.toNat / 32 * 32) stored who

/-! CONFIGURE (R443) -/

/-- One pair of a register list: an 8-byte offset and a value. It is in force, for a class of TICK, before the next one. -/
def Dev.applyPair (d : Dev) (l : List Byte) (i : Nat) : Dev :=
  (d.ctlWrite .headland (leAt l (16 * i) 8 % 2 ^ 28) 8 (leAt l (16 * i + 8) 8)).commit .tick

/-- A register list, applied in order. -/
def Dev.applyList (d : Dev) (l : List Byte) : Dev := d.each (List.range (l.length / 16)) fun d i => d.applyPair l i

/-- Whether a register list writes an offset. -/
def listWrites (l : List Byte) (off : Nat) : Bool := (List.range (l.length / 16)).any fun i => leAt l (16 * i) 8 == off

/-- The entries of a bundle of some types, in order. -/
def entriesOf (b : List Byte) (ts : List Nat) : List Nat := (List.range (components b)).filter fun i => ts.contains (entryType b i)

/-- The work of CONFIGURE: images, register lists, vectors, a fresh HASH_SEED unless a list has written it, BIST of both Breakwater
units, the wrapping key and the identity key. -/
def Dev.configure (d : Dev) : Dev :=
  let b := d.boot.running
  let d := d.each (entriesOf b [2, 5]) fun d i => d.copyComponent i
  let d := d.each (entriesOf b [4]) fun d i => d.applyList (component b i)
  let d := d.each (entriesOf b [3]) fun d i => if entryArg b i < 16 then d.loadVectors (entryArg b i) (component b i) else d
  let d := if (entriesOf b [4]).any fun i => listWrites (component b i) 0x400000 then d
    else let (v, d) := d.draw (2 ^ 32 - 1); d.store Reg.REEF_CTRL_HASH_SEED v
  let d := ((d.setUnit 0 1).setUnit 1 1).deriveWrapKey
  let d := d.putBit Reg.HDL_STATUS_APPROVED (leAt b 17 1 % 2 == 1)
  let d := d.putBit Reg.HDL_STATUS_PF_SUMMARY_VALID d.pfValid
  { d with boot := { d.boot with identityKey := true } }

/-- CONFIGURE, once, at its stage. -/
def execConfigure (s : State) : Host.Outcome State Fault Refusal :=
  s.run fun d => d.when (d.rd Reg.HDL_STATUS_STAGE == 6 && !d.boot.identityKey) Dev.configure

/-! The end of a BIST (R470, R471) -/

/-- A shoal's SRAM holds zeros under good codewords. -/
def Dev.clearSram (d : Dev) (s : Nat) : Dev :=
  let inside (a : Nat) : Bool := sramBase s ≤ a && a < sramBase (s + 1)
  { d with mem := { d.mem with
      mem := d.mem.mem.filter (fun (p : Host.Cell) => !inside p.1)
      poisoned := d.mem.poisoned.filter (fun p => !inside (32 * p.1)) } }

/-- What the BIST of a shoal leaves. -/
def Dev.bistShoal (d : Dev) (s : Nat) : Dev :=
  let d := d.clearSram s
  let d := d.each (List.range 8) fun d c => (d.dropDcache (8 * s + c)).dropIcache (8 * s + c)
  let d := d.each ((Tab.keys d.chans).filter (fun ch => ch / 512 == s)) fun d ch => d.setChan ch { d.chan ch with msgs := [] }
  d.each (List.range 64) fun d k => d.updThr (64 * s + k) fun x => { x with st := 0 }

/-- BIST_DONE: the signatures of the target, or of every target in turn. -/
def Dev.bistDone (d : Dev) (sigs : List (BitVec 128)) : Dev :=
  match d.mon.bist with
  | none => d
  | some t =>
    let ts := if t == 0x1F then List.range 24 else [t]
    let d := d.each ts.zipIdx fun d p => d.bistRecord p.1 (sigs.getD p.2 0)
    let d := d.each (ts.filter (· < 16)) Dev.bistShoal
    let d := ({ d with mon := { d.mon with bist := none } }.put Reg.MON_BIST_BUSY 0).put Reg.MON_BIST_RUNNING_TARGET (ts.getLastD t)
    let d := (d.raise Reg.MON_BIST_DONE).mgmt .mon
    d.each (ts.filter (· < 16)) Dev.serveReq

/-- BIST_DONE. -/
def execBistDone (sigs : List (BitVec 128)) (s : State) : Host.Outcome State Fault Refusal := s.run fun d => d.bistDone sigs

/-! Pins and sensors (R472 to R474, R494) -/

/-- PIN_BIAS_TEST (R472): the result of the test; HOLDUP_WARN_N still low at its end is a fall (R473). -/
def execPinBiasTest (pin : BitVec 7) (staysLow staysHigh : Bool) (s : State) : Host.Outcome State Fault Refusal :=
  s.run fun d =>
    let k := pinKind pin.toNat
    let d := d.when (k == .toggling || k == .idleHigh || k == .present) fun d => d.pinResult pin.toNat (biasResult k staysLow staysHigh)
    d.when (pin.toNat == 5 && staysLow && d.boot.holdArmed) fun d => Dev.holdupFall s.prev d

/-- TEMP_MAX of a sensor takes a reading, as a signed value; the highest of this tick is remembered for R9. -/
def Dev.tempPeak (d : Dev) (i : Nat) (v : Int) : Dev :=
  let f := Reg.MON_TEMP_TEMP_MAX i
  let up (old : Int) : Nat := wrap 16 (max old v)
  let hot := if (Tab.keys d.regs.hot).contains f.key then sgn 16 (Tab.get 0 d.regs.hot f.key % 65536) else v
  { d with regs := { d.regs with
      cur := Tab.set f.rst d.regs.cur f.key (up (sgn 16 (d.rd f)))
      hot := Tab.set 0 d.regs.hot f.key (up hot + 65536) } }

/-- A sensor's reading in 1/4 °C; before is the device at the end of the previous tick. The fourth reading in a row at or above
115 °C trips the device. -/
def Dev.sensorRead (before d : Dev) (i : Nat) (v : Int) : Dev :=
  let n := if 460 ≤ v then min 4 (Tab.get 0 d.mon.trips i + 1) else 0
  let d := (d.put (Reg.MON_TEMP_TEMP i) (wrap 16 v)).tempPeak i v
  let top := match d.mon.tMax with | some m => max m v | none => v
  let d := { d with mon := { d.mon with tMax := some top, trips := Tab.set 0 d.mon.trips i n } }
  if n == 4 then Dev.thermalTrip before d else d

/-- SENSOR_READ (R474). -/
def execSensorRead (sensor : BitVec 5) (reading : BitVec 16) (s : State) : Host.Outcome State Fault Refusal :=
  s.run fun d => d.when (sensor.toNat < 24) fun d => Dev.sensorRead s.prev d sensor.toNat reading.toInt

end Sys2Proof.Machine
end

