-- ==== Sys2Proof/Machine/Present.lean ====
section
/-! DEFINITION. Simultaneous inputs: their ranks and sources, and their order in the queue (R60 to R63, Tables 2.3 and 2.4). -/

namespace Sys2Proof.Machine

open Sys2Proof

/-- The rank of a register write, which is that of the action it commands (R63): a measurement of Tide 3; DONE of a memory source, a flush,
and a window's REWRITE or REVOKE 5; every other 6. -/
def ctlRank (off size v : Nat) : Nat :=
  match accessHalf off size with
  | none => 6
  | some half =>
    let a := off / 8 * 8
    if a == 0x10028 then 3
    else if (0x901000 ≤ a && a < 0x901400 && halfBit half v 3) || (0x200000 ≤ a && a < 0x240000 && (a - 0x200000) % 0x4000 == 0x28) ||
      (a == 0x500120 && (halfBit half v 0 || halfBit half v 1)) then 5
    else 6

/-- The rank of a host's write to a tenant page (R63): clearing a ring's ENABLE, clearing CC.EN, and setting CC.SHN 5. -/
def Dev.pageRank (d : Dev) (t off size v : Nat) : Nat :=
  match accessHalf off size with
  | none => 6
  | some half =>
    let a := off / 8 * 8
    let (qt, n) := d.selRing t
    if d.nvmeOn t && a < 0x40 then
      let x := mergeHalf 0 half.val v / 2 ^ 32
      let old := (d.ctl t).cc
      if a == 0x10 && highHalf half && ((old.testBit 0 && !x.testBit 0) || (bits old 15 14 == 0 && bits x 15 14 != 0)) then 5 else 6
    else if a == d.pageC t + 0x20 && highHalf half && !halfBit half v 63 && d.bit (Reg.TEN_Q_ENABLE t (qKey qt n)) then 5
    else 6

/-- The rank of a configuration write (R63): Initiate FLR, a clear of Bus Master Enable, Memory Space Enable or VF Enable, and the move to
D3hot 5. -/
def Dev.cfgRank (d : Dev) (t reg be v : Nat) : Nat :=
  let old := d.cfgWord t (reg * 4)
  let new := byEnables old (v % 65536) be
  let falls (k : Nat) : Bool := old.testBit k && !new.testBit k
  let acts : Bool := match reg * 4 with
    | 0x04 => falls 1 || falls 2
    | 0x48 => new.testBit 15
    | 0x84 => new % 4 == 3
    | 0x170 => !isVf t && falls 0
    | _ => false
  if be % 4 != 0 && acts then 5 else 6

/-- The rank of an event (Table 2.3): a write has that of what it commands, and what no rule ranks otherwise is an arrival, 6. What the boundary
that ends the tick does comes last. -/
def rankOf (d : Dev) (i : Instr) : Nat :=
  match i with
  | .registerWrite _ off size v => ctlRank off.toNat size.toNat v.toNat
  | .tenantPageWrite tid bar2 off size v _ => if bar2 then 6 else d.pageRank tid.toNat off.toNat size.toNat v.toNat
  | .configSpaceWrite tid reg be v => d.cfgRank tid.toNat reg.toNat be.toNat v.toNat
  | .porstNRise .. | .porstNFall | .holdupWarnNFall | .holdupWarnArmed | .hostLinkReset .. | .perstAssert .. => 1
  | .hostReadBoundExpiry .. | .backendBoundExpiry .. | .activeCheckFail .. | .drainingUnitCheckFail .. | .swapExchange
  | .linkDown .. | .tamperAlarm .. | .memoryReadError .. | .slotSurpriseRemoval .. | .deadlock .. | .selftestFail ..
  | .sensorRead .. | .ideCheckFailed .. => 2
  | .slotBoundary | .epochBoundary | .forcedStepHold | .forcedStepApply | .gateTransition .. | .ppsInEdge .. | .tideMeas ..
  | .sourceTimeout | .ref10mLoss | .ref10mReturn | .ppsOutEdge => 3
  | .workItemFinish .. | .txFrameEnd .. | .hostReadCompletion .. | .backendResponse ..
  | .backendTimeout .. | .placementDone .. | .lookasideRequestDone .. | .loadReturn .. | .patReply .. | .movReply ..
  | .completionWrite .. | .selfTestEnd .. | .bistDone .. | .pcfgCycleEnd .. | .memTrainDone .. => 4
  | .macFlush .. | .rewrite .. | .revoke .. | .windowInstall .. | .abort .. | .ccEnClear .. | .ccShnSet ..
  | .vfEnableClear .. | .busMasterEnableClear .. | .memorySpaceEnableClear .. | .d3hotEntry .. | .initiateFlr ..
  | .flrComplete .. | .completionTimeout .. | .ringDisable .. | .atsInvalidationRequest .. | .atsInvalidationComplete .. | .memSourceDone ..
  | .deleteIoSq .. | .deleteIoCq .. | .deviceSelfTestAbort .. => 5
  | .retxTimeout .. | .reefPathStep | .pfxMove | .ageingSweepVisit | .learnCommit | .reefReply | .patrolScrub
  | .errorRingWrite => 7
  | .decisionTakeEffect | .bookDecision => 8
  | _ => 6

/-- The place of a rank 3 event among those of its rank (R61). -/
def timeOrder (d : Dev) (i : Instr) : Nat :=
  match i with
  | .slotBoundary => 0
  | .epochBoundary => 1
  | .forcedStepHold | .forcedStepApply => 2
  | .gateTransition .. => 3
  | _ => if rankOf d i == 3 then 4 else 0

/-- The source of an event (Table 2.4), and for a thread's command its global thread number; what comes from no listed unit comes from
the unit that the rules of its family name (DEDUCED), and the events of a port, link or shoal from it. -/
def sourceOf (i : Instr) : Nat × Nat :=
  match i with
  | .slotBoundary | .epochBoundary | .sourceTimeout | .forcedStepHold | .forcedStepApply | .ppsOutEdge => (0x031, 0)
  | .porstNRise .. | .porstNFall | .ppsInEdge .. | .ref10mLoss | .perstAssert .. | .attentionButtonPressed ..
  | .holdupWarnNFall | .holdupWarnArmed | .pinDriveMismatch .. | .pinBiasTest .. | .refclkPolarityCheck .. | .ref10mReturn => (0x060, 0)
  | .tx tid _ _ _ | .rxPost tid _ _ _ | .sww tid _ _ _ | .swr tid _ _ _ | .stFlush tid _ _ _ | .stWrite tid _ _ _
  | .stRead tid _ _ _ | .stWriteZeroes tid _ _ _ | .stDatasetManagement tid _ _ _ | .cyEncrypt tid _ _ _
  | .cyDecrypt tid _ _ _ | .cyMacGenerate tid _ _ _ | .cyMacVerify tid _ _ _ | .sqTailDoorbell tid _ _ _
  | .cqHeadDoorbell tid _ _ _ | .descriptorFetch tid _ | .completionWrite tid _ _ | .nvmeSqDoorbell tid _ _ _
  | .nvmeEntryFetch tid _ | .selfTestEnd tid _ | .ccEnSet tid _ _ | .ccEnClear tid _ _ | .ccShnSet tid _ _
  | .ringEnable tid _ _ _ _ _ _ | .ringDisable tid _ _ _ | .busMasterEnableClear tid | .busMasterEnableSet tid
  | .memorySpaceEnableClear tid _ | .memorySpaceEnableSet tid _ | .d3hotEntry tid | .d0Return tid | .initiateFlr tid
  | .flrComplete tid | .queuesStaleClear tid _ | .atsInvalidationRequest _ _ tid _ _ | .lockInterfaceRequest tid
  | .startInterfaceRequest tid | .stopInterfaceRequest tid | .getDeviceInterfaceReport tid | .tenantPageWrite tid _ _ _ _ _
  | .configSpaceWrite tid _ _ _ => (0x010 + tid.toNat / 256, 0)
  | .hostReadBoundExpiry link _ | .hostReadCompletion link _ _ _ | .completionTimeout link _ | .hostLinkReset link
  | .hostLinkUp link _ _ _ | .atsInvalidationComplete link _ | .ideKm link _ _ _ _ | .ideCheckFailed link _ => (0x010 + link.toNat, 0)
  | .txFrameStart port _ | .txFrameEnd port | .gateTransition port | .gateListPend port | .gateListOperational port
  | .linkTrained port _ _ | .txPolarityFlip port _ | .trainFail port | .alignTimeout port _ | .linkUp port
  | .linkDown port _ | .frameReceive port _ _ _ | .pfcSendRepeat port | .pfcFrameReceive port _ | .pfcPauseExpiry port _
  | .pipelinePass port | .reefLookup port _ | .actionSettle port | .frameHandOn port | .swashPacketTransmit port => (port.toNat, 0)
  | .shoalDrained shoal | .deadlock shoal _ | .runRelease shoal _ | .patReply shoal | .movReply shoal | .handoffPost shoal => (0x020 + shoal.toNat, 0)
  | .loadReturn thread _ => (0x020 + thread.toNat / 64, thread.toNat)
  | .reefPathStep | .pfxMove | .ageingSweepVisit | .learnCommit | .reefReply => (0x032, 0)
  | .write pkt | .readReq pkt | .readResp pkt | .ack pkt | .nak pkt => (pkt.port.toNat, 0)
  | .deleteIoSq cmd | .deleteIoCq cmd | .createIoSq cmd | .createIoCq cmd | .getLogPage cmd | .identify cmd | .abort cmd
  | .setFeatures cmd | .getFeatures cmd | .firmwareImageDownload cmd | .firmwareCommitAction0 cmd
  | .firmwareCommitAction1 cmd | .firmwareCommitAction2 cmd | .firmwareCommitAction3 cmd | .deviceSelfTestShort cmd
  | .deviceSelfTestExtended cmd | .deviceSelfTestAbort cmd | .flush cmd | .nvmeWrite cmd | .nvmeRead cmd | .writeZeroes cmd
  | .datasetManagement cmd => (0x010 + cmd.tid.toNat / 256, 0)
  | .lookasideRequestStart .. | .suspend .. | .resume .. | .lookasideRequestDone .. | .slotEmpty .. | .rxOpenCheck ..
  | .tamperAlarm .. => (0x038, 0)
  | .vfEnableSet pf | .vfEnableClear pf => (0x010 + pf.toNat / 256, 0)
  | .getVersion link | .getCapabilities link | .negotiateAlgorithms link _ | .getDigests link | .getCertificate link
  | .challenge link | .getMeasurements link | .keyExchange link _ | .finish link | .heartbeat link | .keyUpdate link
  | .endSession link => (if link.val < 2 then 0x010 + link.val else 0x050, 0)
  | .slotPowerOn slot | .slotPerstRelease slot | .slotPowerOff slot | .slotPwrenOff slot | .slotSurpriseRemoval slot _
  | .ssdInterrupt slot _ _ | .ssdDmaRequest slot _ _ _ | .presenceDetectChanged slot | .rootPortLinkUp slot _ => (0x018 + slot.toNat, 0)
  | .memTrainDone .. | .memoryReadError .. | .patrolScrub | .firewallRegionCheck | .errorRingWrite => (0x040, 0)
  | .selftestFail .. | .bootSelect .. | .configure | .fuseCommitDone .. | .updateDone .. | .strandWritePersist
  | .bistDone .. => (0x050, 0)
  | .setEndpointId .. | .entdaa .. | .rstdaa | .oobRegisterRead .. | .oobRegisterWrite .. | .extest | .samplePreload ..
  | .idcode | .clamp | .highz | .extestPulse | .extestTrain | .bypass | .ctlacc .. | .tapReset => (0x052, 0)
  | .registerWrite ag _ _ _ | .tideTimeInit ag _ | .tideMeas ag _ | .tideForceStep ag _ _ _ | .swap ag _ | .resetUnit ag _
  | .recover ag _ | .gateCommit ag _ _ | .govApply ag _ _ | .bwkCtData ag _ _ | .bwkBudgetData ag _ _
  | .channelConfig ag _ _ _ | .shoalRelease ag _ | .shoalReq ag _ | .shoalReset ag _ | .coreReset ag _
  | .coreResetRelease ag _ | .threadReset ag _ | .threadStart ag _ | .threadHalt ag _ | .threadResume ag _
  | .threadStep ag _ | .debugDataWrite ag _ _ _ | .macFlush ag _ _ _ | .txTsPop ag _ _ _ | .progCommit ag _ _
  | .patCommit ag _ _ | .reefCmdLook ag _ _ _ _ _ | .reefCmdIns ag _ _ _ _ _ | .reefCmdDel ag _ _ _ _ _ | .openConn ag
  | .closeConn ag | .connRateWrite ag _ _ | .rewrite ag | .revoke ag | .generate ag _ _ _ | .load ag _ _ _
  | .unwrap ag _ _ _ | .wrap ag _ _ _ | .zero ag _ _ _ | .channelLock ag _ _ _ | .slotDrain ag | .slotWindowAccess ag _ _ _
  | .pcfgRead ag _ _ _ _ | .pcfgWrite ag _ _ _ _ | .memTrainGo ag | .memSourceDone ag _ | .keyLock ag | .bwkRelease ag
  | .zeroise ag | .releaseGo ag | .fuseCommitHdl ag | .fuseCommitShl ag | .fuseCommitRevoke ag _ | .xferHostBoot ag _ _
  | .xferWriteSlot ag _ | .xferWriteAndMark ag _ | .confirm ag | .pfAck ag | .strandWrite ag _ _ _ | .snap ag _
  | .snapClear ag _ | .queueMonitorBind ag _ _ _ _ | .bistStart ag _ | .rcRead ag _ _ _ _ => (agentSource ag, (agentThread ag).getD 0)
  | .add i _ _ _ _ | .sub i _ _ _ _ | .and i _ _ _ | .or i _ _ _ | .xor i _ _ _ | .andn i _ _ _ | .sll i _ _ _ _
  | .srl i _ _ _ _ | .sra i _ _ _ _ | .ror i _ _ _ | .min i _ _ _ | .max i _ _ _ | .minu i _ _ _ | .maxu i _ _ _
  | .clz i _ _ | .ctz i _ _ | .popc i _ _ | .bswap i _ _ | .mul i _ _ _ _ | .mulhs i _ _ _ | .mulhu i _ _ _ | .div i _ _ _ _
  | .divu i _ _ _ _ | .rem i _ _ _ _ | .remu i _ _ _ _ | .addi i _ _ _ | .andi i _ _ _ | .ori i _ _ _ | .xori i _ _ _
  | .shfi i _ _ _ _ _ | .lim i _ _ | .shi i _ _ | .cmp i _ _ _ _ | .cmpi i _ _ _ _ | .plogAnd i _ _ _ | .plogOr i _ _ _
  | .plogXor i _ _ _ | .plogAndn i _ _ _ | .plogOrn i _ _ _ | .plogMov i _ _ | .ldb i _ _ _ | .ldh i _ _ _ | .ldw i _ _ _
  | .ldd i _ _ _ | .ldbs i _ _ _ | .ldhs i _ _ _ | .ldws i _ _ _ | .stb i _ _ _ | .sth i _ _ _ | .stw i _ _ _ | .std i _ _ _
  | .ldx i _ _ _ _ _ _ | .stx i _ _ _ _ _ | .atomSwp i _ _ _ _ _ | .atomAdd i _ _ _ _ _ | .atomAnd i _ _ _ _ _
  | .atomOr i _ _ _ _ _ | .atomXor i _ _ _ _ _ | .atomSmax i _ _ _ _ _ | .atomUmax i _ _ _ _ _ | .atomCas i _ _ _ _ _
  | .br i _ | .call i _ | .jmpr i _ | .callr i _ | .fence i _ | .dcinv i _ | .dcinvall i | .icinv i | .trap i _ | .brk i
  | .xret i | .stop i | .mfs i _ _ | .mts i _ _ | .chPut i _ _ | .chSeal i _ _ | .chTry i _ _ | .chGet i _ _ _ _
  | .dlchk i _ _ _ | .dlleft i _ _ | .pwOpen i _ _ _ | .pwClose i _ | .pwFree i _ | .book i _ _ _ | .reefLook i _ _ _
  | .reefIns i _ _ _ | .reefDel i _ _ _ | .cySub0 i _ _ _ | .cySub1 i _ _ _ | .patSub i _ _ _ | .movSub i _ _ _ => (0x020 + i.th.toNat / 64, i.th.toNat)
  | _ => (0x030, 0)

/-- The place of an event among those sampled at one boundary: rank, order within rank 3, source, thread. -/
def placeOf (d : Dev) (i : Instr) : Nat := ((rankOf d i * 8 + timeOrder d i) * 256 + (sourceOf i).1) * 1024 + (sourceOf i).2

/-- The events of one boundary in the order in which they are applied (R61, R62): those of one source keep their order. -/
def presentTick (d : Dev) (l : List Instr) : List Instr := sortIn (fun a b => decide (placeOf d a ≤ placeOf d b)) l

end Sys2Proof.Machine
end

