-- ==== Sys2Proof/Machine/Time.lean ====
section
/-! DEFINITION. Time: the slot and epoch boundaries, the end of a tick, and the events that fall due by themselves
(chapters 01, 02 and 04). -/

namespace Sys2Proof.Machine

open Sys2Proof

/-! Queue samples (R125, R389, R468) -/

/-- What a sample takes of something that waits: the key of its queue (QTYPE × 2^24 + QINDEX), bytes, and when it came. -/
structure Waits where
  key : Nat
  bytes : Nat
  time : Nat

/-- What waits for ports, once for its port queue and once for its leaf. -/
def Dev.portWaits (d : Dev) : List Waits :=
  let both (p q leaf bytes time : Nat) : List Waits := [⟨p * 16 + q, bytes, time⟩, ⟨2 ^ 24 + leaf, bytes, time⟩]
  let ofOp (o : Op) : List Waits :=
    match (o.plan.head?.map (·.needs)).bind (·.find? (fun x => x.res.kind == 5 && !x.res.rx)), d.opCand o with
    | some x, some c => if o.ended then [] else both x.res.inst c.q c.leaf ((d.opFrames o).drop o.sent).sum o.since
    | _, _ => []
  d.net.items.flatMap (fun i => both i.port i.q i.leaf i.len i.since) ++ d.ops.flatMap ofOp

/-- The exposed entries of a ring of n entries that lie between head and tail, with the doorbells that exposed them. -/
def ringWaits (key n head tail : Nat) (bells : List (Nat × Nat)) : List Waits :=
  let depth := (tail + n - head) % n
  let open_ := bells.filter (fun b => (tail + n - b.1) % n < depth)
  if depth == 0 then [] else [⟨key, depth * 64, (open_.head?.map (·.2)).getD 0⟩]

/-- Submission rings and NVMe submission queues. -/
def Dev.fetchWaits (d : Dev) : List Waits :=
  d.host.bellTimes.flatMap fun b =>
    let tid := b.1 / 1024
    let r := b.1 % 1024
    if r < 512 then
      let k := qKey 0 r
      if d.ringOn tid k then
        ringWaits (2 * 2 ^ 24 + tid * 64 + r) (d.ringSize tid k) (d.rd (Reg.TEN_Q_HEAD tid k)) (d.rd (Reg.TEN_Q_TAIL tid k)) b.2
      else []
    else
      let s := d.nvSq tid (r - 512)
      ringWaits (4 * 2 ^ 24 + tid * 65 + (r - 512)) (max 1 s.size) s.head s.tail b.2

/-- Receive queues: the buffers posted (DESIGN CHOICE: their lengths are the depth). -/
def Dev.postedWaits (d : Dev) : List Waits :=
  d.host.posted.flatMap fun p => p.2.map fun b => ⟨3 * 2 ^ 24 + p.1, b.len, b.time⟩

/-- The samples at a boundary: depth, saturating, and the delay of the oldest entry. -/
def samplesOf (now : Nat) (l : List Waits) : Tab (Nat × Nat) :=
  l.foldl (fun t x => Tab.upd (0, 0) t x.key (fun v => (min (v.1 + x.bytes) (2 ^ 32 - 1), max v.2 (now - x.time)))) []

/-- Doorbells whose entries have all been fetched are forgotten. -/
def Dev.pruneBells (d : Dev) : Dev :=
  { d with host := { d.host with bellTimes := (d.host.bellTimes.map fun b =>
      let tid := b.1 / 1024
      let r := b.1 % 1024
      let (n, h, t) := if r < 512 then (d.ringSize tid (qKey 0 r), d.rd (Reg.TEN_Q_HEAD tid (qKey 0 r)), d.rd (Reg.TEN_Q_TAIL tid (qKey 0 r)))
        else (max 1 (d.nvSq tid (r - 512)).size, (d.nvSq tid (r - 512)).head, (d.nvSq tid (r - 512)).tail)
      (b.1, b.2.filter (fun x => (t + n - x.1) % n < (t + n - h) % n))).filter (fun b => !b.2.isEmpty) } }

/-- Every queue is sampled as it stood at the end of the tick before (R125), and the enabled monitors take their samples (R468). -/
def Dev.sampleQueues (d prev : Dev) : Dev :=
  let t := samplesOf d.clk.tide (prev.portWaits ++ prev.fetchWaits ++ prev.postedWaits)
  let d := { d with cal := { d.cal with samples := t } }.pruneBells
  let d := d.each t fun d p => (d.peak (Reg.CAL_QSAMPLE_MAX_DEPTH p.1) p.2.1).peak (Reg.CAL_QSAMPLE_MAX_DELAY p.1) p.2.2
  d.each ((d.banksOf (Reg.MON_QMON_ENABLE 0)).filter (fun m => d.on (Reg.MON_QMON_ENABLE m))) fun d m =>
    let x := Tab.get (0, 0) t (d.inF (Reg.MON_QMON_QTYPE m) * 2 ^ 24 + d.inF (Reg.MON_QMON_QINDEX m))
    { d with mon := { d.mon with sets := Tab.upd {} d.mon.sets (Machine.setKey 2 m) (fun (y : LatSet) => y.sample x.1 x.2) } }

/-! The slot and epoch boundaries (R101, R11) -/

/-- A booked packet that waited behind 4,096 outstanding PSNs through its booked slot (R313), or a booked frame that a pause in full
mode held past it (R245), has lost its assumption; what was sent of it in the slot is not among what is booked still. -/
def Dev.failStalled (d : Dev) : Dev :=
  let kept (o : Op) (h : Hold) : Bool := h.res.kind == 5 && !h.res.rx && h.slot + 1 == d.clk.slotSeq && Dev.mayTx o h.res.inst &&
    (d.stalled (.op o.id) || d.pauseKeeps o h.res.inst)
  let hit (o : Op) : Bool := !o.slack && !o.ended && o.booked.any (kept o)
  d.each (d.ops.filter hit) fun d o => d.failAssumption o.id

/-- What was requested for a boundary is due in its tick. -/
def Dev.dueSlot (d : Dev) : Dev :=
  { d with clk := { d.clk with reqSlot := [], due := d.clk.due ++ d.clk.reqSlot.filter (fun x => !d.clk.due.contains x) } }
def Dev.dueEpoch (d : Dev) : Dev :=
  { d with clk := { d.clk with reqEpoch := [], due := d.clk.due ++ d.clk.reqEpoch.filter (fun x => !d.clk.due.contains x) } }

/-- The refill of a slot boundary: no bucket gains tokens before Breakwater's release (R503). -/
def Dev.refillBuckets (d : Dev) : Dev := if d.released then d.refillShapers.refillPolicers.swashSlot.prsSlot else d

/-- The slot boundary (R101): SLOT-class writes come into force, the calendars and buckets step, queues are sampled, and the claim
dispatcher hands out the slot's booked shoal work (R151), in the first slot of an epoch once that epoch's CLAIM_CH_BASE and BOOKED_THREADS
are in force. -/
def Dev.slotStep (d prev : Dev) : Dev :=
  let d := { d with clk := { d.clk with slotDue := false } }.commit .slot
  let d := (((d.failStalled.input .slotStep).refillBuckets.swashPeriod).sampleQueues prev).reefSlot
  let d := { d with cal := { d.cal with retxUsed := [] } }
  (if d.clk.epochDue then d else d.dispatchClaims).dueSlot

/-- The epoch boundary (R11, R13): EPOCH-class writes come into force, the governor and the epoch margins close, the servo takes the
reference, and every table that follows an EPOCH-class field steps. -/
def Dev.epochStep (d : Dev) : Dev :=
  let d := { d with clk := { d.clk with epochDue := false, epochs := d.clk.epochs + 1 } }.commit .epoch
  let d := (d.servoEpoch (Config.ref10mCount d.clk.epochs)).governorEpoch.closeEpochSets.governorLaws
  let d := d.capacityEpoch.shoalsEpoch.shapersEpoch.input .epochStep
  ((((d.showLapses 0).showLapses 1).portsEpoch).prsEpoch.swashEpoch).dispatchClaims.dueEpoch

/-! The end of a tick -/

/-- What waits for the boundary happens (R159, R165 to R167, R169); a thread step that finds its thread not ready stays. -/
def Dev.applyAsk (d : Dev) (a : Ask) : Dev :=
  match a with
  | .reset t => d.resetThread t
  | .start t => d.startAt t
  | .halt t => d.haltThread t
  | .resume t => d.resumeThread t
  | .coreReset c => d.resetCore c
  | .coreRelease c => d.startCore c
  | .shoalReset s => d.resetShoal s
  | .step t =>
    let (e, done) := d.stepThread d t
    if done then e else d.ask a
  | .release s => d.releaseShoal s
  | .chanOff ch => d.dropMessages ch
  | .bwk => d.releaseNow

/-- All that waits for the boundary, in the order in which it was asked. -/
def Dev.applyAsks (d : Dev) : Dev :=
  { d with shl := { d.shl with asks := [] } }.each d.shl.asks Dev.applyAsk

/-- A completion that waits is written where its ring or queue has room (R391). -/
def Dev.flushWaiting (d : Dev) : Dev :=
  let d := d.each d.host.waiting fun d w => d.writeWaiting w.tid w.ring
  d.each d.host.waitingNvme fun d w => d.writeWaitingNvme w.tid (d.nvSq w.tid w.sq).cq

/-- The instructions that a core issued in the tick, and the issue slots that it left empty, count in units of 256 (R147); a tick
has 4 slots in each of its clocks (R44). -/
def Dev.countIssue (d : Dev) : Dev :=
  let one (d : Dev) (c : Nat) : Dev :=
    let all := 4 * d.clk.clocks
    let n := min all (Tab.get 0 d.shl.issued c)
    let i := Tab.get 0 d.shl.slots (2 * c) + n
    let e := Tab.get 0 d.shl.slots (2 * c + 1) + (all - n)
    let d := { d with shl := { d.shl with slots := Tab.set 0 (Tab.set 0 d.shl.slots (2 * c) (i % 256)) (2 * c + 1) (e % 256) } }
    let d := if i < 256 then d else d.bump (Reg.SHL_CORE_ISSUED_256 (c / 8) (c % 8)) (i / 256)
    if e < 256 then d else d.bump (Reg.SHL_CORE_EMPTY_256 (c / 8) (c % 8)) (e / 256)
  d.each ((List.range 128).filter (fun c => d.bit (Reg.SHL_STATUS_RELEASED (c / 8)) && !d.on (Reg.SHL_CORE_CORE_RESET (c / 8) (c % 8)))) one

/-- A HIGH_WATER that software has cleared starts from the entries that are used (R9). -/
def Dev.clearHigh (d : Dev) : Dev :=
  let hit (u : Nat) : Bool := (Tab.keys d.regs.cleared).contains (Reg.BWK_DEADLINES_HIGH_WATER u).key
  let low (a : Adm) : Adm := { a with high := a.entries.length }
  let act := d.activeUnit.getD 0
  let d := if hit act then { d with adm := low d.adm } else d
  if hit (peerOf act) then { d with pair := { d.pair with other := low d.pair.other } } else d

/-- The management message goes out where it has not (R405). -/
def Dev.offerMgmt (d : Dev) : Dev :=
  if d.vectorOpen 0 (d.inF Reg.HST_MGMT_VECTOR) || !Tab.get false d.host.msixPending (d.inF Reg.HST_MGMT_VECTOR) then d.sendMgmt else d

/-- Ranks 4 to 7 of a tick: what the units do with what the tick's inputs have left, in the order of R61. -/
def Dev.workEnd (before d : Dev) : Dev :=
  let d := ((Dev.sampleAllLater before d.rewriteAges).retryCmds.reefEnd.finishDrains.retryReads.failDead).flushWaiting
  let d := d.serveAdmins.finishAborts.stepCtls.serveFlushes.enableVfs
  let d := d.each d.host.ats fun d w => if d.atsReady w then d.atsComplete w.link w.itag else d
  let d := ((d.each (d.host.msixPending.map (·.1 / 256)) Dev.sendPending).offerMgmt).ppsPresence
  d.ringMoves.patrolEnd.rank7.pfStep.strandAge.payOwed.landSnaps.fecTicks.syncScheds

/-- Breakwater's end of a tick (R130 to R137): what waits is decided, the standby acknowledges the journal, a void tick has no
effect, and decisions become visible. -/
def Dev.bwkEnd (before d : Dev) : Dev :=
  let d := d.decideWaiting.sendJournal
  let d := if d.peerStandby then d.applyJournal else d
  let d := d.voidTick before.adm
  (if d.mayShow then d.showDecisions else d).killDecided

/-- The next tick's length (R42, R44): in a tick of 16 clocks Tide time gains what the rate gives it in 8 ns, in units of 2^-32 ns, and once
that is half a nanosecond, and 313 ticks after the last correction tick, a tick of 15 clocks, or of 17, takes it out. DESIGN CHOICE (log 32): the
spec says that the servo chooses the correction ticks, and not how. -/
def Dev.chooseTick (d : Dev) : Dev :=
  let f := d.servo.frac + 8 * d.servo.rate
  let next (n : Nat) (f : Int) (m : Nat) : Dev :=
    { d with servo := { d.servo with frac := f }, clk := { d.clk with clocks := n, sinceFix := m } }
  if d.clk.sinceFix + 1 < 313 then next 16 f (d.clk.sinceFix + 1)
  else if 2 ^ 31 ≤ f then next 15 (f - 2 ^ 31) 0
  else if f ≤ -2 ^ 31 then next 17 (f + 2 ^ 31) 0
  else next 16 f 313

/-- Tide time goes on by a tick, and in a step tick by the step as well (R43, R52), or takes the time that was loaded; the slot and epoch boundaries at which the new
tick starts are due, and slots are counted while the device is released (was: as it was before this boundary). -/
def Dev.advanceTime (d : Dev) (was : Bool) : Dev :=
  let d := d.chooseTick
  let d := { d with clk := { d.clk with tide := d.clk.tide + tickNs, tick := d.clk.tick + 1 } }
  let d := if d.clk.stepTick then { d with clk := { d.clk with stepTick := false, stepAdd := 0 } }.stepTime (some d.servo.holdFrom) d.clk.stepAdd else d
  let d := match d.clk.load with
    | some t => { d with clk := { d.clk with load := none } }.stepTime none ((t : Int) - d.clk.tide)
    | none => d
  let slot := d.clk.tide % slotNs == 0
  { d with clk := { d.clk with slotDue := slot, epochDue := d.clk.tide % epochNs == 0
                               slotSeq := if slot && was then d.clk.slotSeq + 1 else d.clk.slotSeq } }

/-- A tick ends and the next begins: the device, and the device as R500 shows it. -/
def Dev.endTick (before d : Dev) : Dev × Dev :=
  let was := d.released
  let d := Dev.bwkEnd before (Dev.workEnd before d)
  let d := ((d.each (List.range 16) Dev.showDrained).countGroups { before.applyAsks with clk := d.clk }).countIssue.clearHigh.collectReports
  let prev := d.seen
  let next := (prev.applyAsks.advanceTime was).takeOver
  (next.replay, prev)

/-! What falls due -/

/-- The command of something that a boundary made due. -/
def dueInstr (x : Due) : Instr :=
  match x with
  | .stepHold => .forcedStepHold
  | .stepApply => .forcedStepApply
  | .fwCheck => .firewallRegionCheck
  | .gatePend p => .gateListPend (BitVec.ofNat 4 p)
  | .gateOper p => .gateListOperational (BitVec.ofNat 4 p)
  | .policer i => .policerCheck (BitVec.ofNat 12 i)
  | .govStale => .govStale
  | .swap => .swapExchange
  | .recopy u => .lapsedRecopy (BitVec.ofNat 1 u)
  | .standbyEnter u => .unitStandbyEnter (BitVec.ofNat 1 u)
  | .recover u => .recoverActivate (BitVec.ofNat 1 u)
  | .lostClear => .breakwaterLostClear
  | .progCheck => .progCheck
  | .patCheck => .patImageCheck
  | .patActivate => .patImageActivate
  | .connOpen c => .connOpenCheck (BitVec.ofNat 20 c)
  | .connClose c => .connCloseEffect (BitVec.ofNat 20 c)
  | .rxOpen tid => .rxOpenCheck (BitVec.ofNat 9 tid)

/-- Something due whose action belongs to the forced step comes before the other work of its boundary (R61). -/
def Due.first (x : Due) : Bool := x == .stepHold || x == .stepApply

/-- The boundary events of a tick in the order of R61: slot, epoch, forced step, gate transitions, and the checks of the boundary. -/
def Dev.boundaryInstrs (d : Dev) : List Instr :=
  if d.clk.slotDue then [.slotBoundary]
  else if d.clk.epochDue then [.epochBoundary]
  else
    (d.clk.due.filter Due.first ++ d.clk.due.filter (fun x => !x.first)).map dueInstr ++
      ((List.range 16).filter (fun p => d.gateWord p != Tab.get 0xFFFF d.cal.gates p)).map (fun p => .gateTransition (BitVec.ofNat 4 p))

/-- Timers of Tide, the pins and the ports. -/
def Dev.timeInstrs (d : Dev) : List Instr :=
  let ports (f : Nat → Bool) : List (BitVec 4) := ((List.range 16).filter f).map (BitVec.ofNat 4)
  (if d.servo.ppsOut != (d.ppsDriven && d.ppsHigh d.clk.tide) then [.ppsOutEdge] else []) ++
  (ports fun p => d.linkState p == 1 && 62500000 ≤ d.inState p).map .trainFail ++
  (ports fun p => d.linkState p == 2 && 6250000 ≤ d.inState p).map (.alignTimeout · false) ++
  (d.net.wire.flatMap fun w => (w.2.filter fun x => d.lastBit x < (d.clk.tide + tickNs) * 65536).map fun _ => .txFrameEnd (BitVec.ofNat 4 w.1)) ++
  (d.net.pauses.filterMap fun w => w.2.bind fun t =>
    if t ≤ d.clk.tide then some (.pfcPauseExpiry (BitVec.ofNat 4 (w.1 / 8)) (BitVec.ofNat 3 w.1)) else none) ++
  (d.net.xoff.filterMap fun w => w.2.bind fun t =>
    if d.pfcDue w.1 && d.portUp w.1 && t < d.clk.tide then some (.pfcSendRepeat (BitVec.ofNat 4 w.1)) else none)

/-- The events of rank 2 that are due: environment assumptions that have failed for certain (R76), and groups whose count has reached
WINDOW (R163). -/
def Dev.boundInstrs (d : Dev) : List Instr :=
  (d.host.reads.filter fun r => !r.late && r.time + d.readBound r < d.clk.tide).map
    (fun r => .hostReadBoundExpiry (BitVec.ofNat 1 r.link) (BitVec.ofNat 14 r.tag)) ++
  (d.ops.filter fun o => o.heldFor d.clk.tide o.req.bound && !o.envFail && !o.slack).map
    (.backendBoundExpiry ·.id) ++
  ((d.shl.counts.map (·.1)).filter fun k => d.dlDue (k / 8) (k % 8)).map
    (fun k => .deadlock (BitVec.ofNat 4 (k / 8)) (BitVec.ofNat 3 k))

/-- The runs whose release acts at the boundary that starts this tick (R216). -/
def Dev.freeInstrs (d : Dev) : List Instr :=
  d.shl.freed.filterMap fun f => if f.2 < d.clk.tick then
    (d.net.runs.find? (·.cell == f.1)).map fun r => .runRelease (BitVec.ofNat 4 r.shoal) (BitVec.ofNat 21 r.cell) else none

/-- Timers and fetches of the host links, storage and the slots, and the source timeout, which a measurement of its own tick comes before
(R48). -/
def Dev.hostInstrs (d : Dev) : List Instr :=
  let more (k : Nat) : Bool := Tab.get 0 d.host.took k < 16
  (if d.sourceTimedOut then [.sourceTimeout] else []) ++
  (d.host.reads.filter d.timedOut).map (fun r => .completionTimeout (BitVec.ofNat 1 r.link) (BitVec.ofNat 14 r.tag)) ++
  (d.ops.filter fun o => o.heldFor d.clk.tide o.req.timeout).map (.backendTimeout ·.id) ++
  (match d.host.act with | some a => if a.time + d.actLimit ≤ d.clk.tide then [.actFailed] else [] | none => []) ++
  ((d.host.flrFrom.map (·.1)).filter d.flrDone).map (fun t => .flrComplete (BitVec.ofNat 9 t)) ++
  (d.host.slots.filterMap fun x => x.2.perstAt.bind fun t => if t ≤ d.clk.tick then some (.slotPerstRelease (BitVec.ofNat 3 x.1)) else none) ++
  (d.host.slots.filterMap fun x => x.2.pwrenAt.bind fun t => if t ≤ d.clk.tick then some (.slotPwrenOff (BitVec.ofNat 3 x.1)) else none) ++
  (match d.host.pcfg with
    | some c => if c.bus == 0 then (if c.tick < d.clk.tick then [.pcfgCycleEnd 0 0] else [])
      else if c.tick + 50 * msTicks ≤ d.clk.tick then [.pcfgCycleEnd 3 0] else []
    | none => []) ++
  (d.host.bellTimes.filterMap fun b =>
    let tid := b.1 / 1024
    let r := b.1 % 1024
    if !more b.1 then none
    else if r < 512 then (if d.ringFetches tid r then some (.descriptorFetch (BitVec.ofNat 9 tid) (BitVec.ofNat 6 r)) else none)
    else if d.nvFetches tid (r - 512) then some (.nvmeEntryFetch (BitVec.ofNat 9 tid) (BitVec.ofNat 7 (r - 512))) else none)

/-- The order of frames in the pipelines: by the tick in which they came, then by port (R62). -/
def RxFrame.upTo (a b : RxFrame) : Bool := a.at_ < b.at_ || (a.at_ == b.at_ && a.port ≤ b.port)

/-- Frames in the pipelines and handoffs, and Swash's timers. -/
def Dev.netInstrs (d : Dev) : List Instr :=
  ((sortIn RxFrame.upTo d.net.frames).filterMap fun (f : RxFrame) =>
    let p := BitVec.ofNat 4 f.port
    if !f.passed then some (.pipelinePass p)
    else if f.fates.isSome then (if f.at_ + 88 ≤ d.clk.tide then some (.frameHandOn p) else none)
    else if !f.looked && f.at_ + 16 + 16 * f.next ≤ d.clk.tide then some (.reefLookup p (BitVec.ofNat 2 f.next))
    else if f.at_ + 80 ≤ d.clk.tide then some (.actionSettle p) else none) ++
  (d.net.handoffs.map fun (h : Handoff) => .handoffPost (BitVec.ofNat 4 h.run.shoal)) ++
  (d.sw.conns.flatMap fun c => (c.2.out.filter fun x => x.expiry ≤ d.clk.tide && !x.again && x.stopped.isNone).map fun x =>
    .retxTimeout (BitVec.ofNat 20 c.1) (BitVec.ofNat 24 x.psn)) ++
  ((d.listed (Reg.SWH_C_STATE 0)).filter d.connDrained).map (fun c => .connClosed (BitVec.ofNat 20 c)) ++
  (d.sw.installs.filterMap fun w => if w.2 / 4 < d.clk.tick && d.winDrained w.1 then some (.windowInstall (BitVec.ofNat 22 w.1)) else none) ++
  (d.sw.track.filter d.abandoned).map (fun t => .msgAbandoned (BitVec.ofNat 20 t.conn) (BitVec.ofNat 24 t.msn)) ++
  (if max 1 (d.inF Reg.SWH_CTRL_CC_PERIOD) ≤ d.sw.period then [.ccPeriodStep] else [])

/-- Whether a mover's oldest command can go on. -/
def EngJob.goes (j : EngJob) : Bool := !j.begun || j.reads == 0

/-- Returns of threads' accesses, and engines' replies. -/
def Dev.shoalInstrs (d : Dev) : List Instr :=
  (d.shl.threads.flatMap fun t => (t.2.loads.filter (·.answered)).map fun a => .loadReturn (BitVec.ofNat 10 t.1) a.id) ++
  ((List.range 16).filter fun s => d.shl.scans.any (·.shoal == s) && d.mayPost (shoalEnd s 2) s).map (fun s => .patReply (BitVec.ofNat 4 s)) ++
  ((List.range 16).filter fun s => (d.shl.movers.find? (·.shoal == s)).any EngJob.goes && d.mayPost (shoalEnd s 3) s).map (fun s => .movReply (BitVec.ofNat 4 s))

/-- Everything that is due in this tick beside its boundary events. -/
def Dev.dueInstrs (d : Dev) : List Instr :=
  d.boundInstrs ++ d.itemInstrs ++ d.laInstrs ++ d.timeInstrs ++ d.freeInstrs ++ d.hostInstrs ++ d.shoalInstrs ++ d.netInstrs

/-! Doing what is due -/

/-- The effect of a command that falls due by itself, or that a fetched descriptor or NVMe entry is: that of its own meaning. -/
def runDue (i : Instr) (s : State) : Host.Outcome State Fault Refusal :=
  match i with
  | .slotBoundary => s.run fun d => d.slotStep s.prev
  | .epochBoundary => s.run Dev.epochStep
  | .forcedStepHold => execForcedStepHold s
  | .forcedStepApply => execForcedStepApply s
  | .firewallRegionCheck => execFirewallRegionCheck s
  | .gateListPend port => execGateListPend port s
  | .gateListOperational port => execGateListOperational port s
  | .policerCheck policer => execPolicerCheck policer s
  | .govStale => execGovStale s
  | .swapExchange => execSwapExchange s
  | .lapsedRecopy unit => execLapsedRecopy unit s
  | .unitStandbyEnter unit => execUnitStandbyEnter unit s
  | .recoverActivate unit => execRecoverActivate unit s
  | .breakwaterLostClear => execBreakwaterLostClear s
  | .progCheck => execProgCheck s
  | .patImageCheck => execPatImageCheck s
  | .patImageActivate => execPatImageActivate s
  | .connOpenCheck conn => execConnOpenCheck conn s
  | .connCloseEffect conn => execConnCloseEffect conn s
  | .rxOpenCheck tid => execRxOpenCheck tid s
  | .gateTransition port => execGateTransition port s
  | .sourceTimeout => execSourceTimeout s
  | .ppsOutEdge => execPpsOutEdge s
  | .trainFail port => execTrainFail port s
  | .alignTimeout port lost => execAlignTimeout port lost s
  | .workItemFinish op kind inst rx => execWorkItemFinish op kind inst rx s
  | .lookasideRequestDone engine => execLookasideRequestDone engine s
  | .suspend engine pos => execSuspend engine pos s
  | .resume engine => execResume engine s
  | .txFrameEnd port => execTxFrameEnd port s
  | .pfcPauseExpiry port priority => execPfcPauseExpiry port priority s
  | .pfcSendRepeat port => execPfcSendRepeat port s
  | .completionTimeout link tag => execCompletionTimeout link tag s
  | .hostReadBoundExpiry link tag => execHostReadBoundExpiry link tag s
  | .backendTimeout op => execBackendTimeout op s
  | .backendBoundExpiry op => execBackendBoundExpiry op s
  | .actFailed => execActFailed s
  | .flrComplete tid => execFlrComplete tid s
  | .slotPerstRelease slot => execSlotPerstRelease slot s
  | .slotPwrenOff slot => execSlotPwrenOff slot s
  | .pcfgCycleEnd status data => execPcfgCycleEnd status data s
  | .descriptorFetch tid ring => execDescriptorFetch tid ring s
  | .nvmeEntryFetch tid sq => execNvmeEntryFetch tid sq s
  | .loadReturn thread access => execLoadReturn thread access s
  | .patReply shoal => execPatReply shoal s
  | .movReply shoal => execMovReply shoal s
  | .runRelease shoal cell => execRunRelease shoal cell s
  | .deadlock shoal group => execDeadlock shoal group s
  | .pipelinePass port => execPipelinePass port s
  | .reefLookup port stage => execReefLookup port stage s
  | .actionSettle port => execActionSettle port s
  | .frameHandOn port => execFrameHandOn port s
  | .handoffPost shoal => execHandoffPost shoal s
  | .retxTimeout conn psn => execRetxTimeout conn psn s
  | .connClosed conn => execConnClosed conn s
  | .windowInstall window => execWindowInstall window s
  | .msgAbandoned conn msn => execMsgAbandoned conn msn s
  | .ccPeriodStep => execCcPeriodStep s
  | .tx tid ring head desc => execTx tid ring head desc s
  | .rxPost tid ring head desc => execRxPost tid ring head desc s
  | .sww tid ring head desc => execSww tid ring head desc s
  | .swr tid ring head desc => execSwr tid ring head desc s
  | .stFlush tid ring head desc => execStFlush tid ring head desc s
  | .stWrite tid ring head desc => execStWrite tid ring head desc s
  | .stRead tid ring head desc => execStRead tid ring head desc s
  | .stWriteZeroes tid ring head desc => execStWriteZeroes tid ring head desc s
  | .stDatasetManagement tid ring head desc => execStDatasetManagement tid ring head desc s
  | .cyEncrypt tid ring head desc => execCyEncrypt tid ring head desc s
  | .cyDecrypt tid ring head desc => execCyDecrypt tid ring head desc s
  | .cyMacGenerate tid ring head desc => execCyMacGenerate tid ring head desc s
  | .cyMacVerify tid ring head desc => execCyMacVerify tid ring head desc s
  | .deleteIoSq cmd => execDeleteIoSq cmd s
  | .deleteIoCq cmd => execDeleteIoCq cmd s
  | .createIoSq cmd => execCreateIoSq cmd s
  | .createIoCq cmd => execCreateIoCq cmd s
  | .getLogPage cmd => execGetLogPage cmd s
  | .identify cmd => execIdentify cmd s
  | .abort cmd => execAbort cmd s
  | .setFeatures cmd => execSetFeatures cmd s
  | .getFeatures cmd => execGetFeatures cmd s
  | .firmwareCommitAction0 cmd => execFirmwareCommitAction0 cmd s
  | .firmwareCommitAction1 cmd => execFirmwareCommitAction1 cmd s
  | .firmwareCommitAction2 cmd => execFirmwareCommitAction2 cmd s
  | .firmwareCommitAction3 cmd => execFirmwareCommitAction3 cmd s
  | .firmwareImageDownload cmd => execFirmwareImageDownload cmd s
  | .deviceSelfTestShort cmd => execDeviceSelfTestShort cmd s
  | .deviceSelfTestExtended cmd => execDeviceSelfTestExtended cmd s
  | .deviceSelfTestAbort cmd => execDeviceSelfTestAbort cmd s
  | .flush cmd => execFlush cmd s
  | .nvmeWrite cmd => execNvmeWrite cmd s
  | .nvmeRead cmd => execNvmeRead cmd s
  | .writeZeroes cmd => execWriteZeroes cmd s
  | .datasetManagement cmd => execDatasetManagement cmd s
  | _ => .next s

/-- The state after an outcome; no command that falls due faults or is refused. -/
def State.after (s : State) (o : Host.Outcome State Fault Refusal) : State :=
  match o with
  | .next t => t
  | .fault _ | .refused _ => s

/-- Commands that fall due happen in their order. -/
def State.happen (s : State) (l : List Instr) : State := l.foldl (fun s i => s.after (runDue i s)) s

/-- The boundary events of the tick, round after round; n rounds at most. -/
def State.boundaries (s : State) : Nat → State
  | 0 => s
  | n + 1 => match s.dev.boundaryInstrs with
    | [] => s
    | i :: l => (s.happen (i :: l)).boundaries n

/-- What is due in the tick happens, each round in the order of R61 and R62: fetched entries are sampled with the rest; n rounds at
most. -/
def State.settle (s : State) : Nat → State
  | 0 => s
  | n + 1 =>
    let (arrived, d) := s.dev.sampleArrivals
    match presentTick d (arrived ++ d.dueInstrs) with
    | [] => { s with dev := d }
    | i :: l => ({ s with dev := d }.happen (i :: l)).settle n

/-- A tick begins: events of rank 2, with backends that a boundary has made unavailable, the posts of units, which act in its first clock (R158), runs that are freed, and the events of its
boundary; then the storage layer hands over commands, and engines, ports and, as their draws are ordered (R371), look-aside engines start the work that is ready and for which they have
capacity in the tick (R504); what else is due has rank 4 or more and joins the tick's inputs. -/
def State.begin_ (s : State) : State :=
  let s := s.happen s.dev.boundInstrs
  let s := { s with dev := s.dev.offerHeld }
  let s := (s.happen s.dev.freeInstrs).boundaries 8
  let s := { s with dev := s.dev.loseBackends }
  let s := s.happen (s.dev.timeInstrs.filter (fun i => rankOf s.dev i ≤ 3))
  { s with dev := s.dev.passFrames.holdSlackTx.handReady.startEngines.passFrames.sendPorts.startLookaside }

/-- The inputs of a tick, what has been fetched and what is due in it join the queue in the order of R61 and R62. -/
def State.present (s : State) (l : List Instr) : State :=
  let (arrived, d) := s.dev.sampleArrivals
  { s with dev := d, pending := s.pending ++ presentTick d (l ++ arrived ++ d.dueInstrs) }

/-- A tick runs to its end, and the next one begins (R43, R60, R61). Tide time beyond 2^64 stops the machine. -/
def State.turn (s : State) : Host.Outcome State Fault Refusal :=
  if s.dev.boot.inReset then .next s
  else
    let s := (s.boundaries 8).settle 64
    let (next, prev) := Dev.endTick s.prev s.dev
    if 2 ^ 64 ≤ next.clk.tide then .fault .tideOverflow
    else .next { s with dev := next, prev := prev }.begin_

/-- What has left the device is taken away. -/
def State.sweep (s : State) : State := { s with dev := { s.dev with out := [] } }

/-- A tick; what leaves the device in it is seen after it. -/
def State.tick (s : State) : Host.Outcome State Fault Refusal := s.sweep.turn

/-- Ticks pass until Tide time is a multiple of p; n ticks at most. -/
def State.pass (s : State) (p : Nat) : Nat → Host.Outcome State Fault Refusal
  | 0 => .next s
  | n + 1 => match s.turn with
    | .next t => if t.dev.clk.tide % p == 0 then .next t else t.pass p n
    | .fault f => .fault f
    | .refused r => .refused r

/-- SLOT_BOUNDARY (R101): the boundary that is due; one that is not lets time pass up to the next slot boundary. -/
def execSlotBoundary (s : State) : Host.Outcome State Fault Refusal :=
  if s.dev.clk.slotDue then s.run fun d => d.slotStep s.prev else s.sweep.pass slotNs slotTicks

/-- EPOCH_BOUNDARY (R11): the boundary that is due; one that is not lets time pass up to the next epoch boundary. -/
def execEpochBoundary (s : State) : Host.Outcome State Fault Refusal :=
  if s.dev.clk.epochDue then s.run Dev.epochStep else s.sweep.pass epochNs (epochNs / tickNs)

end Sys2Proof.Machine
end

