-- ==== Sys2Proof/Machine/Dispatch.lean ====
section
/-! DEFINITION. The dispatch: one arm for each command, each a direct call of its meaning. -/

namespace Sys2Proof.Machine

open Sys2Proof

/-- The command's effect on everything but the queue of waiting commands. -/
def exec (i : Instr) (s : State) : Host.Outcome State Fault Refusal :=
  match i with
  | .slotBoundary => Sys2Proof.Machine.execSlotBoundary s
  | .epochBoundary => Sys2Proof.Machine.execEpochBoundary s
  | .porstNRise bootSrc testMode oobAddr => Sys2Proof.Machine.execPorstNRise bootSrc testMode oobAddr s
  | .porstNFall => Sys2Proof.Machine.execPorstNFall s
  | .ppsInEdge edge => Sys2Proof.Machine.execPpsInEdge edge s
  | .sourceTimeout => Sys2Proof.Machine.execSourceTimeout s
  | .ref10mLoss => Sys2Proof.Machine.execRef10mLoss s
  | .forcedStepHold => Sys2Proof.Machine.execForcedStepHold s
  | .forcedStepApply => Sys2Proof.Machine.execForcedStepApply s
  | .ppsOutEdge => Sys2Proof.Machine.execPpsOutEdge s
  | .tx tid ring head desc => Sys2Proof.Machine.execTx tid ring head desc s
  | .rxPost tid ring head desc => Sys2Proof.Machine.execRxPost tid ring head desc s
  | .sww tid ring head desc => Sys2Proof.Machine.execSww tid ring head desc s
  | .swr tid ring head desc => Sys2Proof.Machine.execSwr tid ring head desc s
  | .stFlush tid ring head desc => Sys2Proof.Machine.execStFlush tid ring head desc s
  | .stWrite tid ring head desc => Sys2Proof.Machine.execStWrite tid ring head desc s
  | .stRead tid ring head desc => Sys2Proof.Machine.execStRead tid ring head desc s
  | .stWriteZeroes tid ring head desc => Sys2Proof.Machine.execStWriteZeroes tid ring head desc s
  | .stDatasetManagement tid ring head desc => Sys2Proof.Machine.execStDatasetManagement tid ring head desc s
  | .cyEncrypt tid ring head desc => Sys2Proof.Machine.execCyEncrypt tid ring head desc s
  | .cyDecrypt tid ring head desc => Sys2Proof.Machine.execCyDecrypt tid ring head desc s
  | .cyMacGenerate tid ring head desc => Sys2Proof.Machine.execCyMacGenerate tid ring head desc s
  | .cyMacVerify tid ring head desc => Sys2Proof.Machine.execCyMacVerify tid ring head desc s
  | .decisionTakeEffect => Sys2Proof.Machine.execDecisionTakeEffect s
  | .journalApply codeError => Sys2Proof.Machine.execJournalApply codeError s
  | .standbyLapse => Sys2Proof.Machine.execStandbyLapse s
  | .lapsedRecopy unit => Sys2Proof.Machine.execLapsedRecopy unit s
  | .activeCheckFail cause => Sys2Proof.Machine.execActiveCheckFail cause s
  | .swapExchange => Sys2Proof.Machine.execSwapExchange s
  | .unitBistDone unit pass => Sys2Proof.Machine.execUnitBistDone unit pass s
  | .unitCopyDone unit => Sys2Proof.Machine.execUnitCopyDone unit s
  | .unitStandbyEnter unit => Sys2Proof.Machine.execUnitStandbyEnter unit s
  | .recoverActivate unit => Sys2Proof.Machine.execRecoverActivate unit s
  | .breakwaterLostClear => Sys2Proof.Machine.execBreakwaterLostClear s
  | .hostReadBoundExpiry link tag => Sys2Proof.Machine.execHostReadBoundExpiry link tag s
  | .backendBoundExpiry op => Sys2Proof.Machine.execBackendBoundExpiry op s
  | .workItemStart kind inst rx => Sys2Proof.Machine.execWorkItemStart kind inst rx s
  | .workItemFinish op kind inst rx => Sys2Proof.Machine.execWorkItemFinish op kind inst rx s
  | .txFrameStart port sub => Sys2Proof.Machine.execTxFrameStart port sub s
  | .txFrameEnd port => Sys2Proof.Machine.execTxFrameEnd port s
  | .gateTransition port => Sys2Proof.Machine.execGateTransition port s
  | .gateListPend port => Sys2Proof.Machine.execGateListPend port s
  | .gateListOperational port => Sys2Proof.Machine.execGateListOperational port s
  | .policerCheck policer => Sys2Proof.Machine.execPolicerCheck policer s
  | .govStale => Sys2Proof.Machine.execGovStale s
  | .shoalDrained shoal => Sys2Proof.Machine.execShoalDrained shoal s
  | .unitPost channel => Sys2Proof.Machine.execUnitPost channel s
  | .deadlock shoal group => Sys2Proof.Machine.execDeadlock shoal group s
  | .loadReturn thread access => Sys2Proof.Machine.execLoadReturn thread access s
  | .runRelease shoal cell => Sys2Proof.Machine.execRunRelease shoal cell s
  | .bookDecision => Sys2Proof.Machine.execBookDecision s
  | .patReply shoal => Sys2Proof.Machine.execPatReply shoal s
  | .movReply shoal => Sys2Proof.Machine.execMovReply shoal s
  | .linkTrained port rxInverted rxOrder => Sys2Proof.Machine.execLinkTrained port rxInverted rxOrder s
  | .txPolarityFlip port lane => Sys2Proof.Machine.execTxPolarityFlip port lane s
  | .trainFail port => Sys2Proof.Machine.execTrainFail port s
  | .alignTimeout port lost => Sys2Proof.Machine.execAlignTimeout port lost s
  | .linkUp port => Sys2Proof.Machine.execLinkUp port s
  | .linkDown port cut => Sys2Proof.Machine.execLinkDown port cut s
  | .frameReceive port bytes align sfd => Sys2Proof.Machine.execFrameReceive port bytes align sfd s
  | .pfcSendRepeat port => Sys2Proof.Machine.execPfcSendRepeat port s
  | .pfcFrameReceive port bytes => Sys2Proof.Machine.execPfcFrameReceive port bytes s
  | .pfcPauseExpiry port priority => Sys2Proof.Machine.execPfcPauseExpiry port priority s
  | .pipelinePass port => Sys2Proof.Machine.execPipelinePass port s
  | .reefLookup port stage => Sys2Proof.Machine.execReefLookup port stage s
  | .actionSettle port => Sys2Proof.Machine.execActionSettle port s
  | .frameHandOn port => Sys2Proof.Machine.execFrameHandOn port s
  | .handoffPost shoal => Sys2Proof.Machine.execHandoffPost shoal s
  | .progCheck => Sys2Proof.Machine.execProgCheck s
  | .patImageCheck => Sys2Proof.Machine.execPatImageCheck s
  | .patImageActivate => Sys2Proof.Machine.execPatImageActivate s
  | .reefPathStep => Sys2Proof.Machine.execReefPathStep s
  | .pfxMove => Sys2Proof.Machine.execPfxMove s
  | .ageingSweepVisit => Sys2Proof.Machine.execAgeingSweepVisit s
  | .learnCommit => Sys2Proof.Machine.execLearnCommit s
  | .connOpenCheck conn => Sys2Proof.Machine.execConnOpenCheck conn s
  | .connCloseEffect conn => Sys2Proof.Machine.execConnCloseEffect conn s
  | .connClosed conn => Sys2Proof.Machine.execConnClosed conn s
  | .swashPacketTransmit port => Sys2Proof.Machine.execSwashPacketTransmit port s
  | .write pkt => Sys2Proof.Machine.execWrite pkt s
  | .readReq pkt => Sys2Proof.Machine.execReadReq pkt s
  | .readResp pkt => Sys2Proof.Machine.execReadResp pkt s
  | .ack pkt => Sys2Proof.Machine.execAck pkt s
  | .nak pkt => Sys2Proof.Machine.execNak pkt s
  | .placementDone conn psn => Sys2Proof.Machine.execPlacementDone conn psn s
  | .msgAbandoned conn msn => Sys2Proof.Machine.execMsgAbandoned conn msn s
  | .retxTimeout conn psn => Sys2Proof.Machine.execRetxTimeout conn psn s
  | .ccPeriodStep => Sys2Proof.Machine.execCcPeriodStep s
  | .windowInstall window => Sys2Proof.Machine.execWindowInstall window s
  | .sqTailDoorbell tid ring index tee => Sys2Proof.Machine.execSqTailDoorbell tid ring index tee s
  | .cqHeadDoorbell tid ring index tee => Sys2Proof.Machine.execCqHeadDoorbell tid ring index tee s
  | .descriptorFetch tid ring => Sys2Proof.Machine.execDescriptorFetch tid ring s
  | .hostReadCompletion link tag status data => Sys2Proof.Machine.execHostReadCompletion link tag status data s
  | .completionTimeout link tag => Sys2Proof.Machine.execCompletionTimeout link tag s
  | .completionWrite tid ring nvme => Sys2Proof.Machine.execCompletionWrite tid ring nvme s
  | .nvmeSqDoorbell tid sq index tee => Sys2Proof.Machine.execNvmeSqDoorbell tid sq index tee s
  | .nvmeEntryFetch tid sq => Sys2Proof.Machine.execNvmeEntryFetch tid sq s
  | .deleteIoSq cmd => Sys2Proof.Machine.execDeleteIoSq cmd s
  | .deleteIoCq cmd => Sys2Proof.Machine.execDeleteIoCq cmd s
  | .createIoSq cmd => Sys2Proof.Machine.execCreateIoSq cmd s
  | .createIoCq cmd => Sys2Proof.Machine.execCreateIoCq cmd s
  | .getLogPage cmd => Sys2Proof.Machine.execGetLogPage cmd s
  | .identify cmd => Sys2Proof.Machine.execIdentify cmd s
  | .abort cmd => Sys2Proof.Machine.execAbort cmd s
  | .setFeatures cmd => Sys2Proof.Machine.execSetFeatures cmd s
  | .getFeatures cmd => Sys2Proof.Machine.execGetFeatures cmd s
  | .firmwareImageDownload cmd => Sys2Proof.Machine.execFirmwareImageDownload cmd s
  | .firmwareCommitAction0 cmd => Sys2Proof.Machine.execFirmwareCommitAction0 cmd s
  | .firmwareCommitAction1 cmd => Sys2Proof.Machine.execFirmwareCommitAction1 cmd s
  | .firmwareCommitAction2 cmd => Sys2Proof.Machine.execFirmwareCommitAction2 cmd s
  | .firmwareCommitAction3 cmd => Sys2Proof.Machine.execFirmwareCommitAction3 cmd s
  | .activationQuiesced => Sys2Proof.Machine.execActivationQuiesced s
  | .actFailed => Sys2Proof.Machine.execActFailed s
  | .deviceSelfTestShort cmd => Sys2Proof.Machine.execDeviceSelfTestShort cmd s
  | .deviceSelfTestExtended cmd => Sys2Proof.Machine.execDeviceSelfTestExtended cmd s
  | .deviceSelfTestAbort cmd => Sys2Proof.Machine.execDeviceSelfTestAbort cmd s
  | .selfTestEnd tid failed => Sys2Proof.Machine.execSelfTestEnd tid failed s
  | .flush cmd => Sys2Proof.Machine.execFlush cmd s
  | .nvmeWrite cmd => Sys2Proof.Machine.execNvmeWrite cmd s
  | .nvmeRead cmd => Sys2Proof.Machine.execNvmeRead cmd s
  | .writeZeroes cmd => Sys2Proof.Machine.execWriteZeroes cmd s
  | .datasetManagement cmd => Sys2Proof.Machine.execDatasetManagement cmd s
  | .ccEnSet tid cc tee => Sys2Proof.Machine.execCcEnSet tid cc tee s
  | .ccEnClear tid cc tee => Sys2Proof.Machine.execCcEnClear tid cc tee s
  | .ccShnSet tid cc tee => Sys2Proof.Machine.execCcShnSet tid cc tee s
  | .backendHand op => Sys2Proof.Machine.execBackendHand op s
  | .backendResponse op status data => Sys2Proof.Machine.execBackendResponse op status data s
  | .backendTimeout op => Sys2Proof.Machine.execBackendTimeout op s
  | .lookasideRequestStart engine => Sys2Proof.Machine.execLookasideRequestStart engine s
  | .suspend engine pos => Sys2Proof.Machine.execSuspend engine pos s
  | .resume engine => Sys2Proof.Machine.execResume engine s
  | .lookasideRequestDone engine => Sys2Proof.Machine.execLookasideRequestDone engine s
  | .slotEmpty slot => Sys2Proof.Machine.execSlotEmpty slot s
  | .rxOpenCheck tid => Sys2Proof.Machine.execRxOpenCheck tid s
  | .tamperAlarm source => Sys2Proof.Machine.execTamperAlarm source s
  | .hostLinkReset link => Sys2Proof.Machine.execHostLinkReset link s
  | .perstAssert link => Sys2Proof.Machine.execPerstAssert link s
  | .hostLinkUp link speed width flit => Sys2Proof.Machine.execHostLinkUp link speed width flit s
  | .vfEnableSet pf => Sys2Proof.Machine.execVfEnableSet pf s
  | .vfEnableClear pf => Sys2Proof.Machine.execVfEnableClear pf s
  | .ringEnable tid qtype qindex vector bind size tee => Sys2Proof.Machine.execRingEnable tid qtype qindex vector bind size tee s
  | .ringDisable tid qtype qindex tee => Sys2Proof.Machine.execRingDisable tid qtype qindex tee s
  | .busMasterEnableClear tid => Sys2Proof.Machine.execBusMasterEnableClear tid s
  | .busMasterEnableSet tid => Sys2Proof.Machine.execBusMasterEnableSet tid s
  | .memorySpaceEnableClear tid vfs => Sys2Proof.Machine.execMemorySpaceEnableClear tid vfs s
  | .memorySpaceEnableSet tid vfs => Sys2Proof.Machine.execMemorySpaceEnableSet tid vfs s
  | .d3hotEntry tid => Sys2Proof.Machine.execD3hotEntry tid s
  | .d0Return tid => Sys2Proof.Machine.execD0Return tid s
  | .initiateFlr tid => Sys2Proof.Machine.execInitiateFlr tid s
  | .flrComplete tid => Sys2Proof.Machine.execFlrComplete tid s
  | .queuesStaleClear tid tee => Sys2Proof.Machine.execQueuesStaleClear tid tee s
  | .atsInvalidationRequest link itag tid addr len => Sys2Proof.Machine.execAtsInvalidationRequest link itag tid addr len s
  | .atsInvalidationComplete link itag => Sys2Proof.Machine.execAtsInvalidationComplete link itag s
  | .getVersion link => Sys2Proof.Machine.execGetVersion link s
  | .getCapabilities link => Sys2Proof.Machine.execGetCapabilities link s
  | .negotiateAlgorithms link offered => Sys2Proof.Machine.execNegotiateAlgorithms link offered s
  | .getDigests link => Sys2Proof.Machine.execGetDigests link s
  | .getCertificate link => Sys2Proof.Machine.execGetCertificate link s
  | .challenge link => Sys2Proof.Machine.execChallenge link s
  | .getMeasurements link => Sys2Proof.Machine.execGetMeasurements link s
  | .keyExchange link session => Sys2Proof.Machine.execKeyExchange link session s
  | .finish link => Sys2Proof.Machine.execFinish link s
  | .heartbeat link => Sys2Proof.Machine.execHeartbeat link s
  | .keyUpdate link => Sys2Proof.Machine.execKeyUpdate link s
  | .endSession link => Sys2Proof.Machine.execEndSession link s
  | .ideKm link stream what sub key => Sys2Proof.Machine.execIdeKm link stream what sub key s
  | .lockInterfaceRequest tid => Sys2Proof.Machine.execLockInterfaceRequest tid s
  | .startInterfaceRequest tid => Sys2Proof.Machine.execStartInterfaceRequest tid s
  | .stopInterfaceRequest tid => Sys2Proof.Machine.execStopInterfaceRequest tid s
  | .getDeviceInterfaceReport tid => Sys2Proof.Machine.execGetDeviceInterfaceReport tid s
  | .ideCheckFailed link stream => Sys2Proof.Machine.execIdeCheckFailed link stream s
  | .mgmtInterruptSend => Sys2Proof.Machine.execMgmtInterruptSend s
  | .slotPowerOn slot => Sys2Proof.Machine.execSlotPowerOn slot s
  | .slotPerstRelease slot => Sys2Proof.Machine.execSlotPerstRelease slot s
  | .slotPowerOff slot => Sys2Proof.Machine.execSlotPowerOff slot s
  | .slotPwrenOff slot => Sys2Proof.Machine.execSlotPwrenOff slot s
  | .attentionButtonPressed slot => Sys2Proof.Machine.execAttentionButtonPressed slot s
  | .slotSurpriseRemoval slot what => Sys2Proof.Machine.execSlotSurpriseRemoval slot what s
  | .ssdInterrupt slot offset data => Sys2Proof.Machine.execSsdInterrupt slot offset data s
  | .ssdDmaRequest slot addr len data => Sys2Proof.Machine.execSsdDmaRequest slot addr len data s
  | .pcfgCycleEnd status data => Sys2Proof.Machine.execPcfgCycleEnd status data s
  | .memTrainDone ddrFail hbmFail ddrBytes => Sys2Proof.Machine.execMemTrainDone ddrFail hbmFail ddrBytes s
  | .memoryReadError addr stored who => Sys2Proof.Machine.execMemoryReadError addr stored who s
  | .patrolScrub => Sys2Proof.Machine.execPatrolScrub s
  | .firewallRegionCheck => Sys2Proof.Machine.execFirewallRegionCheck s
  | .errorRingWrite => Sys2Proof.Machine.execErrorRingWrite s
  | .selftestFail algorithm => Sys2Proof.Machine.execSelftestFail algorithm s
  | .bootSelect readErr => Sys2Proof.Machine.execBootSelect readErr s
  | .configure => Sys2Proof.Machine.execConfigure s
  | .fuseCommitDone failed => Sys2Proof.Machine.execFuseCommitDone failed s
  | .updateDone flashOk => Sys2Proof.Machine.execUpdateDone flashOk s
  | .strandWritePersist => Sys2Proof.Machine.execStrandWritePersist s
  | .holdupWarnNFall => Sys2Proof.Machine.execHoldupWarnNFall s
  | .holdupWarnArmed => Sys2Proof.Machine.execHoldupWarnArmed s
  | .bistDone sigs => Sys2Proof.Machine.execBistDone sigs s
  | .pinDriveMismatch pin drivenHigh => Sys2Proof.Machine.execPinDriveMismatch pin drivenHigh s
  | .pinBiasTest pin staysLow staysHigh => Sys2Proof.Machine.execPinBiasTest pin staysLow staysHigh s
  | .refclkPolarityCheck pair reversed => Sys2Proof.Machine.execRefclkPolarityCheck pair reversed s
  | .sensorRead sensor reading => Sys2Proof.Machine.execSensorRead sensor reading s
  | .setEndpointId binding eid => Sys2Proof.Machine.execSetEndpointId binding eid s
  | .entdaa address => Sys2Proof.Machine.execEntdaa address s
  | .rstdaa => Sys2Proof.Machine.execRstdaa s
  | .oobRegisterRead offset => Sys2Proof.Machine.execOobRegisterRead offset s
  | .oobRegisterWrite offset value => Sys2Proof.Machine.execOobRegisterWrite offset value s
  | .extest => Sys2Proof.Machine.execExtest s
  | .samplePreload pins preload => Sys2Proof.Machine.execSamplePreload pins preload s
  | .idcode => Sys2Proof.Machine.execIdcode s
  | .clamp => Sys2Proof.Machine.execClamp s
  | .highz => Sys2Proof.Machine.execHighz s
  | .extestPulse => Sys2Proof.Machine.execExtestPulse s
  | .extestTrain => Sys2Proof.Machine.execExtestTrain s
  | .bypass => Sys2Proof.Machine.execBypass s
  | .ctlacc write offset data => Sys2Proof.Machine.execCtlacc write offset data s
  | .tapReset => Sys2Proof.Machine.execTapReset s
  | .ref10mReturn => Sys2Proof.Machine.execRef10mReturn s
  | .tenantPageWrite tid bar2 offset size value tee => Sys2Proof.Machine.execTenantPageWrite tid bar2 offset size value tee s
  | .configSpaceWrite tid reg be value => Sys2Proof.Machine.execConfigSpaceWrite tid reg be value s
  | .presenceDetectChanged slot => Sys2Proof.Machine.execPresenceDetectChanged slot s
  | .rootPortLinkUp slot speed => Sys2Proof.Machine.execRootPortLinkUp slot speed s
  | .drainingUnitCheckFail cause => Sys2Proof.Machine.execDrainingUnitCheckFail cause s
  | .registerWrite ag offset size value => Sys2Proof.Machine.execRegisterWrite ag offset size value s
  | .tideTimeInit ag init => Sys2Proof.Machine.execTideTimeInit ag init s
  | .tideMeas ag offset => Sys2Proof.Machine.execTideMeas ag offset s
  | .tideForceStep ag go useSource amount => Sys2Proof.Machine.execTideForceStep ag go useSource amount s
  | .swap ag unit => Sys2Proof.Machine.execSwap ag unit s
  | .resetUnit ag unit => Sys2Proof.Machine.execResetUnit ag unit s
  | .recover ag unit => Sys2Proof.Machine.execRecover ag unit s
  | .gateCommit ag half value => Sys2Proof.Machine.execGateCommit ag half value s
  | .govApply ag half value => Sys2Proof.Machine.execGovApply ag half value s
  | .bwkCtData ag half value => Sys2Proof.Machine.execBwkCtData ag half value s
  | .bwkBudgetData ag half value => Sys2Proof.Machine.execBwkBudgetData ag half value s
  | .channelConfig ag channel half value => Sys2Proof.Machine.execChannelConfig ag channel half value s
  | .shoalRelease ag shoal => Sys2Proof.Machine.execShoalRelease ag shoal s
  | .shoalReq ag shoal => Sys2Proof.Machine.execShoalReq ag shoal s
  | .shoalReset ag shoal => Sys2Proof.Machine.execShoalReset ag shoal s
  | .coreReset ag core => Sys2Proof.Machine.execCoreReset ag core s
  | .coreResetRelease ag core => Sys2Proof.Machine.execCoreResetRelease ag core s
  | .threadReset ag thread => Sys2Proof.Machine.execThreadReset ag thread s
  | .threadStart ag thread => Sys2Proof.Machine.execThreadStart ag thread s
  | .threadHalt ag thread => Sys2Proof.Machine.execThreadHalt ag thread s
  | .threadResume ag thread => Sys2Proof.Machine.execThreadResume ag thread s
  | .threadStep ag thread => Sys2Proof.Machine.execThreadStep ag thread s
  | .debugDataWrite ag shoal half value => Sys2Proof.Machine.execDebugDataWrite ag shoal half value s
  | .add iss w d a b => Sys2Proof.Machine.execAdd iss w d a b s
  | .sub iss w d a b => Sys2Proof.Machine.execSub iss w d a b s
  | .and iss d a b => Sys2Proof.Machine.execAnd iss d a b s
  | .or iss d a b => Sys2Proof.Machine.execOr iss d a b s
  | .xor iss d a b => Sys2Proof.Machine.execXor iss d a b s
  | .andn iss d a b => Sys2Proof.Machine.execAndn iss d a b s
  | .sll iss w d a b => Sys2Proof.Machine.execSll iss w d a b s
  | .srl iss w d a b => Sys2Proof.Machine.execSrl iss w d a b s
  | .sra iss w d a b => Sys2Proof.Machine.execSra iss w d a b s
  | .ror iss d a b => Sys2Proof.Machine.execRor iss d a b s
  | .min iss d a b => Sys2Proof.Machine.execMin iss d a b s
  | .max iss d a b => Sys2Proof.Machine.execMax iss d a b s
  | .minu iss d a b => Sys2Proof.Machine.execMinu iss d a b s
  | .maxu iss d a b => Sys2Proof.Machine.execMaxu iss d a b s
  | .clz iss d a => Sys2Proof.Machine.execClz iss d a s
  | .ctz iss d a => Sys2Proof.Machine.execCtz iss d a s
  | .popc iss d a => Sys2Proof.Machine.execPopc iss d a s
  | .bswap iss d a => Sys2Proof.Machine.execBswap iss d a s
  | .mul iss w d a b => Sys2Proof.Machine.execMul iss w d a b s
  | .mulhs iss d a b => Sys2Proof.Machine.execMulhs iss d a b s
  | .mulhu iss d a b => Sys2Proof.Machine.execMulhu iss d a b s
  | .div iss w d a b => Sys2Proof.Machine.execDiv iss w d a b s
  | .divu iss w d a b => Sys2Proof.Machine.execDivu iss w d a b s
  | .rem iss w d a b => Sys2Proof.Machine.execRem iss w d a b s
  | .remu iss w d a b => Sys2Proof.Machine.execRemu iss w d a b s
  | .addi iss d a imm => Sys2Proof.Machine.execAddi iss d a imm s
  | .andi iss d a imm => Sys2Proof.Machine.execAndi iss d a imm s
  | .ori iss d a imm => Sys2Proof.Machine.execOri iss d a imm s
  | .xori iss d a imm => Sys2Proof.Machine.execXori iss d a imm s
  | .shfi iss op w d a amount => Sys2Proof.Machine.execShfi iss op w d a amount s
  | .lim iss d imm => Sys2Proof.Machine.execLim iss d imm s
  | .shi iss d imm => Sys2Proof.Machine.execShi iss d imm s
  | .cmp iss cc pd a b => Sys2Proof.Machine.execCmp iss cc pd a b s
  | .cmpi iss cc pd a imm => Sys2Proof.Machine.execCmpi iss cc pd a imm s
  | .plogAnd iss pd pa pb => Sys2Proof.Machine.execPlogAnd iss pd pa pb s
  | .plogOr iss pd pa pb => Sys2Proof.Machine.execPlogOr iss pd pa pb s
  | .plogXor iss pd pa pb => Sys2Proof.Machine.execPlogXor iss pd pa pb s
  | .plogAndn iss pd pa pb => Sys2Proof.Machine.execPlogAndn iss pd pa pb s
  | .plogOrn iss pd pa pb => Sys2Proof.Machine.execPlogOrn iss pd pa pb s
  | .plogMov iss pd pa => Sys2Proof.Machine.execPlogMov iss pd pa s
  | .ldb iss d a imm => Sys2Proof.Machine.execLdb iss d a imm s
  | .ldh iss d a imm => Sys2Proof.Machine.execLdh iss d a imm s
  | .ldw iss d a imm => Sys2Proof.Machine.execLdw iss d a imm s
  | .ldd iss d a imm => Sys2Proof.Machine.execLdd iss d a imm s
  | .ldbs iss d a imm => Sys2Proof.Machine.execLdbs iss d a imm s
  | .ldhs iss d a imm => Sys2Proof.Machine.execLdhs iss d a imm s
  | .ldws iss d a imm => Sys2Proof.Machine.execLdws iss d a imm s
  | .stb iss d a imm => Sys2Proof.Machine.execStb iss d a imm s
  | .sth iss d a imm => Sys2Proof.Machine.execSth iss d a imm s
  | .stw iss d a imm => Sys2Proof.Machine.execStw iss d a imm s
  | .std iss d a imm => Sys2Proof.Machine.execStd iss d a imm s
  | .ldx iss size sext scale d a b => Sys2Proof.Machine.execLdx iss size sext scale d a b s
  | .stx iss size scale d a b => Sys2Proof.Machine.execStx iss size scale d a b s
  | .atomSwp iss wide order d a b => Sys2Proof.Machine.execAtomSwp iss wide order d a b s
  | .atomAdd iss wide order d a b => Sys2Proof.Machine.execAtomAdd iss wide order d a b s
  | .atomAnd iss wide order d a b => Sys2Proof.Machine.execAtomAnd iss wide order d a b s
  | .atomOr iss wide order d a b => Sys2Proof.Machine.execAtomOr iss wide order d a b s
  | .atomXor iss wide order d a b => Sys2Proof.Machine.execAtomXor iss wide order d a b s
  | .atomSmax iss wide order d a b => Sys2Proof.Machine.execAtomSmax iss wide order d a b s
  | .atomUmax iss wide order d a b => Sys2Proof.Machine.execAtomUmax iss wide order d a b s
  | .atomCas iss wide order d a b => Sys2Proof.Machine.execAtomCas iss wide order d a b s
  | .br iss off => Sys2Proof.Machine.execBr iss off s
  | .call iss off => Sys2Proof.Machine.execCall iss off s
  | .jmpr iss a => Sys2Proof.Machine.execJmpr iss a s
  | .callr iss a => Sys2Proof.Machine.execCallr iss a s
  | .fence iss kind => Sys2Proof.Machine.execFence iss kind s
  | .dcinv iss a => Sys2Proof.Machine.execDcinv iss a s
  | .dcinvall iss => Sys2Proof.Machine.execDcinvall iss s
  | .icinv iss => Sys2Proof.Machine.execIcinv iss s
  | .trap iss b => Sys2Proof.Machine.execTrap iss b s
  | .brk iss => Sys2Proof.Machine.execBrk iss s
  | .xret iss => Sys2Proof.Machine.execXret iss s
  | .stop iss => Sys2Proof.Machine.execStop iss s
  | .mfs iss d sr => Sys2Proof.Machine.execMfs iss d sr s
  | .mts iss a sr => Sys2Proof.Machine.execMts iss a sr s
  | .chPut iss a b => Sys2Proof.Machine.execChPut iss a b s
  | .chSeal iss pd a => Sys2Proof.Machine.execChSeal iss pd a s
  | .chTry iss pd a => Sys2Proof.Machine.execChTry iss pd a s
  | .chGet iss pd d a n => Sys2Proof.Machine.execChGet iss pd d a n s
  | .dlchk iss pd a b => Sys2Proof.Machine.execDlchk iss pd a b s
  | .dlleft iss d a => Sys2Proof.Machine.execDlleft iss d a s
  | .pwOpen iss w d a => Sys2Proof.Machine.execPwOpen iss w d a s
  | .pwClose iss w => Sys2Proof.Machine.execPwClose iss w s
  | .pwFree iss a => Sys2Proof.Machine.execPwFree iss a s
  | .book iss d a b => Sys2Proof.Machine.execBook iss d a b s
  | .reefLook iss d a b => Sys2Proof.Machine.execReefLook iss d a b s
  | .reefIns iss d a b => Sys2Proof.Machine.execReefIns iss d a b s
  | .reefDel iss d a b => Sys2Proof.Machine.execReefDel iss d a b s
  | .reefReply => Sys2Proof.Machine.execReefReply s
  | .cySub0 iss d a b => Sys2Proof.Machine.execCySub0 iss d a b s
  | .cySub1 iss d a b => Sys2Proof.Machine.execCySub1 iss d a b s
  | .patSub iss d a b => Sys2Proof.Machine.execPatSub iss d a b s
  | .movSub iss d a b => Sys2Proof.Machine.execMovSub iss d a b s
  | .macFlush ag port half value => Sys2Proof.Machine.execMacFlush ag port half value s
  | .txTsPop ag port half value => Sys2Proof.Machine.execTxTsPop ag port half value s
  | .progCommit ag half value => Sys2Proof.Machine.execProgCommit ag half value s
  | .patCommit ag half value => Sys2Proof.Machine.execPatCommit ag half value s
  | .reefCmdLook ag static table keyLen plen reserved => Sys2Proof.Machine.execReefCmdLook ag static table keyLen plen reserved s
  | .reefCmdIns ag static table keyLen plen reserved => Sys2Proof.Machine.execReefCmdIns ag static table keyLen plen reserved s
  | .reefCmdDel ag static table keyLen plen reserved => Sys2Proof.Machine.execReefCmdDel ag static table keyLen plen reserved s
  | .openConn ag => Sys2Proof.Machine.execOpenConn ag s
  | .closeConn ag => Sys2Proof.Machine.execCloseConn ag s
  | .connRateWrite ag half value => Sys2Proof.Machine.execConnRateWrite ag half value s
  | .rewrite ag => Sys2Proof.Machine.execRewrite ag s
  | .revoke ag => Sys2Proof.Machine.execRevoke ag s
  | .generate ag chan slot record => Sys2Proof.Machine.execGenerate ag chan slot record s
  | .load ag chan slot record => Sys2Proof.Machine.execLoad ag chan slot record s
  | .unwrap ag chan slot record => Sys2Proof.Machine.execUnwrap ag chan slot record s
  | .wrap ag chan slot record => Sys2Proof.Machine.execWrap ag chan slot record s
  | .zero ag chan slot record => Sys2Proof.Machine.execZero ag chan slot record s
  | .channelLock ag chan steward headland => Sys2Proof.Machine.execChannelLock ag chan steward headland s
  | .slotDrain ag => Sys2Proof.Machine.execSlotDrain ag s
  | .slotWindowAccess ag slot offset store => Sys2Proof.Machine.execSlotWindowAccess ag slot offset store s
  | .pcfgRead ag bus dev fn reg => Sys2Proof.Machine.execPcfgRead ag bus dev fn reg s
  | .pcfgWrite ag bus dev fn reg => Sys2Proof.Machine.execPcfgWrite ag bus dev fn reg s
  | .memTrainGo ag => Sys2Proof.Machine.execMemTrainGo ag s
  | .memSourceDone ag source => Sys2Proof.Machine.execMemSourceDone ag source s
  | .keyLock ag => Sys2Proof.Machine.execKeyLock ag s
  | .bwkRelease ag => Sys2Proof.Machine.execBwkRelease ag s
  | .zeroise ag => Sys2Proof.Machine.execZeroise ag s
  | .releaseGo ag => Sys2Proof.Machine.execReleaseGo ag s
  | .fuseCommitHdl ag => Sys2Proof.Machine.execFuseCommitHdl ag s
  | .fuseCommitShl ag => Sys2Proof.Machine.execFuseCommitShl ag s
  | .fuseCommitRevoke ag keySet => Sys2Proof.Machine.execFuseCommitRevoke ag keySet s
  | .xferHostBoot ag length bundle => Sys2Proof.Machine.execXferHostBoot ag length bundle s
  | .xferWriteSlot ag length => Sys2Proof.Machine.execXferWriteSlot ag length s
  | .xferWriteAndMark ag length => Sys2Proof.Machine.execXferWriteAndMark ag length s
  | .confirm ag => Sys2Proof.Machine.execConfirm ag s
  | .pfAck ag => Sys2Proof.Machine.execPfAck ag s
  | .strandWrite ag word half value => Sys2Proof.Machine.execStrandWrite ag word half value s
  | .snap ag buf => Sys2Proof.Machine.execSnap ag buf s
  | .snapClear ag buf => Sys2Proof.Machine.execSnapClear ag buf s
  | .queueMonitorBind ag monitor enable qtype qindex => Sys2Proof.Machine.execQueueMonitorBind ag monitor enable qtype qindex s
  | .bistStart ag target => Sys2Proof.Machine.execBistStart ag target s
  | .rcRead ag page offset size tee => Sys2Proof.Machine.execRcRead ag page offset size tee s

end Sys2Proof.Machine
end

