-- ==== Sys2Proof/Machine/Step.lean ====
section
/-! DEFINITION. The step of the block: the command at the front of the queue, or, on an empty queue, a tick. -/

namespace Sys2Proof.Machine

open Sys2Proof

/-- One step: the front command runs on the state with the queue's rest; on an empty queue a tick passes (DESIGN CHOICE, log entry 1). -/
def step (s : State) : Host.Outcome State Fault Refusal :=
  match s.pending with
  | [] => s.tick
  | i :: l => exec i { s with pending := l }

/-- The state with the command that a word spells at the front of its queue; no row of the table gives bits, so no word spells one. -/
def State.withFetchWord (s : State) (nbits w : Nat) : State :=
  match decodeTableWord nbits w with
  | some i => { s with pending := i :: s.pending }
  | none => s

end Sys2Proof.Machine
end

