-- ==== Sys2Proof/WellFormed.lean ====
section
/-! DEFINITION. When a command's operands are ones that the spec's bus, pin or protocol can present. -/

namespace Sys2Proof

/-- A Swash packet: an IPv4 or IPv6 source and twelve header words (Table 12.3). -/
def SwPacket.wf (k : SwPacket) : Bool := (k.src.length == 4 || k.src.length == 16) && k.words.length == 12

/-- An NVMe I/O command: one of the 64 I/O queues, pages aligned to 4 KiB after the first (PRESUMED NVM Express). -/
def NvCmd.wf (c : NvCmd) : Bool := 1 ≤ c.sq.toNat && c.sq.toNat ≤ 64 && c.pages.all fun p => p.toNat % 4096 == 0

/-- An NVMe admin command: its buffer begins at a dword. -/
def NvAdmin.wf (c : NvAdmin) : Bool := c.prp1.toNat % 4 == 0

/-- A resource kind of Table 4.1. -/
def resKind (k : BitVec 8) : Bool := 1 ≤ k.toNat && k.toNat ≤ 8

/-- A ring of a type (R389): 64 submission and 64 completion rings, 256 receive queues. -/
def ringNo (qtype : BitVec 2) (n : BitVec 8) : Bool := qtype.toNat == 2 || (qtype.toNat < 2 && n.toNat < 64)

/-- The checks of each command. -/
def Instr.wf (i : Instr) : Bool :=
  match i with
  | .slotBoundary => true
  | .epochBoundary => true
  | .porstNRise _ _ _ => true
  | .porstNFall => true
  | .ppsInEdge _ => true
  | .sourceTimeout => true
  | .ref10mLoss => true
  | .forcedStepHold => true
  | .forcedStepApply => true
  | .ppsOutEdge => true
  | .tx _ _ _ _ => true
  | .rxPost _ _ _ _ => true
  | .sww _ _ _ _ => true
  | .swr _ _ _ _ => true
  | .stFlush _ _ _ _ => true
  | .stWrite _ _ _ _ => true
  | .stRead _ _ _ _ => true
  | .stWriteZeroes _ _ _ _ => true
  | .stDatasetManagement _ _ _ _ => true
  | .cyEncrypt _ _ _ _ => true
  | .cyDecrypt _ _ _ _ => true
  | .cyMacGenerate _ _ _ _ => true
  | .cyMacVerify _ _ _ _ => true
  | .decisionTakeEffect => true
  | .journalApply _ => true
  | .standbyLapse => true
  | .lapsedRecopy _ => true
  | .activeCheckFail cause => 1 ≤ cause.toNat && cause.toNat ≤ 6
  | .swapExchange => true
  | .unitBistDone _ _ => true
  | .unitCopyDone _ => true
  | .unitStandbyEnter _ => true
  | .recoverActivate _ => true
  | .breakwaterLostClear => true
  | .hostReadBoundExpiry _ _ => true
  | .backendBoundExpiry _ => true
  | .workItemStart kind _ _ => resKind kind
  | .workItemFinish _ kind _ _ => resKind kind
  | .txFrameStart _ _ => true
  | .txFrameEnd _ => true
  | .gateTransition _ => true
  | .gateListPend _ => true
  | .gateListOperational _ => true
  | .policerCheck _ => true
  | .govStale => true
  | .shoalDrained _ => true
  | .unitPost _ => true
  | .deadlock _ _ => true
  | .loadReturn _ _ => true
  | .runRelease _ _ => true
  | .bookDecision => true
  | .patReply _ => true
  | .movReply _ => true
  | .linkTrained _ _ _ => true
  | .txPolarityFlip _ _ => true
  | .trainFail _ => true
  | .alignTimeout _ _ => true
  | .linkUp _ => true
  | .linkDown _ _ => true
  | .frameReceive _ bytes _ _ => 0 < bytes.length
  | .pfcSendRepeat _ => true
  | .pfcFrameReceive _ bytes => 60 ≤ bytes.length
  | .pfcPauseExpiry _ _ => true
  | .pipelinePass _ => true
  | .reefLookup _ _ => true
  | .actionSettle _ => true
  | .frameHandOn _ => true
  | .handoffPost _ => true
  | .progCheck => true
  | .patImageCheck => true
  | .patImageActivate => true
  | .reefPathStep => true
  | .pfxMove => true
  | .ageingSweepVisit => true
  | .learnCommit => true
  | .connOpenCheck _ => true
  | .connCloseEffect _ => true
  | .connClosed _ => true
  | .swashPacketTransmit _ => true
  | .write pkt => pkt.wf
  | .readReq pkt => pkt.wf
  | .readResp pkt => pkt.wf
  | .ack pkt => pkt.wf
  | .nak pkt => pkt.wf
  | .placementDone _ _ => true
  | .msgAbandoned _ _ => true
  | .retxTimeout _ _ => true
  | .ccPeriodStep => true
  | .windowInstall _ => true
  | .sqTailDoorbell _ _ _ _ => true
  | .cqHeadDoorbell _ _ _ _ => true
  | .descriptorFetch _ _ => true
  | .hostReadCompletion _ _ _ data => data.length ≤ 4096
  | .completionTimeout _ _ => true
  | .completionWrite _ ring nvme => if nvme then ring.toNat ≤ 64 else ring.toNat < 64
  | .nvmeSqDoorbell _ sq _ _ => sq.toNat ≤ 64
  | .nvmeEntryFetch _ sq => sq.toNat ≤ 64
  | .deleteIoSq cmd => cmd.wf
  | .deleteIoCq cmd => cmd.wf
  | .createIoSq cmd => cmd.wf
  | .createIoCq cmd => cmd.wf
  | .getLogPage cmd => cmd.wf
  | .identify cmd => cmd.wf
  | .abort cmd => cmd.wf
  | .setFeatures cmd => cmd.wf
  | .getFeatures cmd => cmd.wf
  | .firmwareImageDownload cmd => cmd.wf
  | .firmwareCommitAction0 cmd => cmd.wf
  | .firmwareCommitAction1 cmd => cmd.wf
  | .firmwareCommitAction2 cmd => cmd.wf
  | .firmwareCommitAction3 cmd => cmd.wf
  | .activationQuiesced => true
  | .actFailed => true
  | .deviceSelfTestShort cmd => cmd.wf
  | .deviceSelfTestExtended cmd => cmd.wf
  | .deviceSelfTestAbort cmd => cmd.wf
  | .selfTestEnd _ _ => true
  | .flush cmd => cmd.wf
  | .nvmeWrite cmd => cmd.wf
  | .nvmeRead cmd => cmd.wf
  | .writeZeroes cmd => cmd.wf
  | .datasetManagement cmd => cmd.wf
  | .ccEnSet _ _ _ => true
  | .ccEnClear _ _ _ => true
  | .ccShnSet _ _ _ => true
  | .backendHand _ => true
  | .backendResponse _ _ _ => true
  | .backendTimeout _ => true
  | .lookasideRequestStart _ => true
  | .suspend _ _ => true
  | .resume _ => true
  | .lookasideRequestDone _ => true
  | .slotEmpty _ => true
  | .rxOpenCheck _ => true
  | .tamperAlarm _ => true
  | .hostLinkReset _ => true
  | .perstAssert _ => true
  | .hostLinkUp _ _ _ _ => true
  | .vfEnableSet pf => pf.toNat % 256 < 2
  | .vfEnableClear pf => pf.toNat % 256 < 2
  | .ringEnable _ qtype qindex _ _ _ _ => ringNo qtype qindex
  | .ringDisable _ qtype qindex _ => ringNo qtype qindex
  | .busMasterEnableClear _ => true
  | .busMasterEnableSet _ => true
  | .memorySpaceEnableClear _ _ => true
  | .memorySpaceEnableSet _ _ => true
  | .d3hotEntry _ => true
  | .d0Return _ => true
  | .initiateFlr _ => true
  | .flrComplete _ => true
  | .queuesStaleClear _ _ => true
  | .atsInvalidationRequest _ _ _ _ _ => true
  | .atsInvalidationComplete _ _ => true
  | .getVersion _ => true
  | .getCapabilities _ => true
  | .negotiateAlgorithms _ _ => true
  | .getDigests _ => true
  | .getCertificate _ => true
  | .challenge _ => true
  | .getMeasurements _ => true
  | .keyExchange _ _ => true
  | .finish _ => true
  | .heartbeat _ => true
  | .keyUpdate _ => true
  | .endSession _ => true
  | .ideKm _ _ _ _ key => key.length ≤ 32
  | .lockInterfaceRequest _ => true
  | .startInterfaceRequest _ => true
  | .stopInterfaceRequest _ => true
  | .getDeviceInterfaceReport _ => true
  | .ideCheckFailed _ _ => true
  | .mgmtInterruptSend => true
  | .slotPowerOn _ => true
  | .slotPerstRelease _ => true
  | .slotPowerOff _ => true
  | .slotPwrenOff _ => true
  | .attentionButtonPressed _ => true
  | .slotSurpriseRemoval _ _ => true
  | .ssdInterrupt _ _ _ => true
  | .ssdDmaRequest _ _ len data => len.toNat ≤ 4096 && (data.all fun l => l.length == len.toNat)
  | .pcfgCycleEnd _ _ => true
  | .memTrainDone _ _ _ => true
  | .memoryReadError _ stored _ => stored.length == 32
  | .patrolScrub => true
  | .firewallRegionCheck => true
  | .errorRingWrite => true
  | .selftestFail _ => true
  | .bootSelect _ => true
  | .configure => true
  | .fuseCommitDone _ => true
  | .updateDone _ => true
  | .strandWritePersist => true
  | .holdupWarnNFall => true
  | .holdupWarnArmed => true
  | .bistDone _ => true
  | .pinDriveMismatch _ _ => true
  | .pinBiasTest _ _ _ => true
  | .refclkPolarityCheck _ _ => true
  | .sensorRead sensor _ => sensor.toNat < 24
  | .setEndpointId _ _ => true
  | .entdaa _ => true
  | .rstdaa => true
  | .oobRegisterRead _ => true
  | .oobRegisterWrite _ _ => true
  | .extest => true
  | .samplePreload _ _ => true
  | .idcode => true
  | .clamp => true
  | .highz => true
  | .extestPulse => true
  | .extestTrain => true
  | .bypass => true
  | .ctlacc _ _ _ => true
  | .tapReset => true
  | .ref10mReturn => true
  | .tenantPageWrite _ _ _ _ _ _ => true
  | .configSpaceWrite _ _ _ _ => true
  | .presenceDetectChanged _ => true
  | .rootPortLinkUp _ _ => true
  | .drainingUnitCheckFail _ => true
  | .registerWrite _ _ _ _ => true
  | .tideTimeInit _ _ => true
  | .tideMeas _ _ => true
  | .tideForceStep _ _ _ _ => true
  | .swap _ _ => true
  | .resetUnit _ _ => true
  | .recover _ _ => true
  | .gateCommit _ _ _ => true
  | .govApply _ _ _ => true
  | .bwkCtData _ _ _ => true
  | .bwkBudgetData _ _ _ => true
  | .channelConfig _ _ _ _ => true
  | .shoalRelease _ _ => true
  | .shoalReq _ _ => true
  | .shoalReset _ _ => true
  | .coreReset _ _ => true
  | .coreResetRelease _ _ => true
  | .threadReset _ _ => true
  | .threadStart _ _ => true
  | .threadHalt _ _ => true
  | .threadResume _ _ => true
  | .threadStep _ _ => true
  | .debugDataWrite _ _ _ _ => true
  | .add _ _ _ _ _ => true
  | .sub _ _ _ _ _ => true
  | .and _ _ _ _ => true
  | .or _ _ _ _ => true
  | .xor _ _ _ _ => true
  | .andn _ _ _ _ => true
  | .sll _ _ _ _ _ => true
  | .srl _ _ _ _ _ => true
  | .sra _ _ _ _ _ => true
  | .ror _ _ _ _ => true
  | .min _ _ _ _ => true
  | .max _ _ _ _ => true
  | .minu _ _ _ _ => true
  | .maxu _ _ _ _ => true
  | .clz _ _ _ => true
  | .ctz _ _ _ => true
  | .popc _ _ _ => true
  | .bswap _ _ _ => true
  | .mul _ _ _ _ _ => true
  | .mulhs _ _ _ _ => true
  | .mulhu _ _ _ _ => true
  | .div _ _ _ _ _ => true
  | .divu _ _ _ _ _ => true
  | .rem _ _ _ _ _ => true
  | .remu _ _ _ _ _ => true
  | .addi _ _ _ _ => true
  | .andi _ _ _ _ => true
  | .ori _ _ _ _ => true
  | .xori _ _ _ _ => true
  | .shfi _ _ _ _ _ _ => true
  | .lim _ _ _ => true
  | .shi _ _ _ => true
  | .cmp _ _ _ _ _ => true
  | .cmpi _ _ _ _ _ => true
  | .plogAnd _ _ _ _ => true
  | .plogOr _ _ _ _ => true
  | .plogXor _ _ _ _ => true
  | .plogAndn _ _ _ _ => true
  | .plogOrn _ _ _ _ => true
  | .plogMov _ _ _ => true
  | .ldb _ _ _ _ => true
  | .ldh _ _ _ _ => true
  | .ldw _ _ _ _ => true
  | .ldd _ _ _ _ => true
  | .ldbs _ _ _ _ => true
  | .ldhs _ _ _ _ => true
  | .ldws _ _ _ _ => true
  | .stb _ _ _ _ => true
  | .sth _ _ _ _ => true
  | .stw _ _ _ _ => true
  | .std _ _ _ _ => true
  | .ldx _ _ _ _ _ _ _ => true
  | .stx _ _ _ _ _ _ => true
  | .atomSwp _ _ _ _ _ _ => true
  | .atomAdd _ _ _ _ _ _ => true
  | .atomAnd _ _ _ _ _ _ => true
  | .atomOr _ _ _ _ _ _ => true
  | .atomXor _ _ _ _ _ _ => true
  | .atomSmax _ _ _ _ _ _ => true
  | .atomUmax _ _ _ _ _ _ => true
  | .atomCas _ _ _ _ _ _ => true
  | .br _ _ => true
  | .call _ _ => true
  | .jmpr _ _ => true
  | .callr _ _ => true
  | .fence _ _ => true
  | .dcinv _ _ => true
  | .dcinvall _ => true
  | .icinv _ => true
  | .trap _ _ => true
  | .brk _ => true
  | .xret _ => true
  | .stop _ => true
  | .mfs _ _ _ => true
  | .mts _ _ _ => true
  | .chPut _ _ _ => true
  | .chSeal _ _ _ => true
  | .chTry _ _ _ => true
  | .chGet _ _ _ _ _ => true
  | .dlchk _ _ _ _ => true
  | .dlleft _ _ _ => true
  | .pwOpen _ _ _ _ => true
  | .pwClose _ _ => true
  | .pwFree _ _ => true
  | .book _ _ _ _ => true
  | .reefLook _ _ _ _ => true
  | .reefIns _ _ _ _ => true
  | .reefDel _ _ _ _ => true
  | .reefReply => true
  | .cySub0 _ _ _ _ => true
  | .cySub1 _ _ _ _ => true
  | .patSub _ _ _ _ => true
  | .movSub _ _ _ _ => true
  | .macFlush _ _ _ _ => true
  | .txTsPop _ _ _ _ => true
  | .progCommit _ _ _ => true
  | .patCommit _ _ _ => true
  | .reefCmdLook _ _ _ _ _ _ => true
  | .reefCmdIns _ _ _ _ _ _ => true
  | .reefCmdDel _ _ _ _ _ _ => true
  | .openConn _ => true
  | .closeConn _ => true
  | .connRateWrite _ _ _ => true
  | .rewrite _ => true
  | .revoke _ => true
  | .generate _ _ _ _ => true
  | .load _ _ _ _ => true
  | .unwrap _ _ _ _ => true
  | .wrap _ _ _ _ => true
  | .zero _ _ _ _ => true
  | .channelLock _ _ _ _ => true
  | .slotDrain _ => true
  | .slotWindowAccess _ _ _ _ => true
  | .pcfgRead _ _ _ _ _ => true
  | .pcfgWrite _ _ _ _ _ => true
  | .memTrainGo _ => true
  | .memSourceDone _ _ => true
  | .keyLock _ => true
  | .bwkRelease _ => true
  | .zeroise _ => true
  | .releaseGo _ => true
  | .fuseCommitHdl _ => true
  | .fuseCommitShl _ => true
  | .fuseCommitRevoke _ _ => true
  | .xferHostBoot _ length bundle => bundle.all fun l => l.length == length.toNat
  | .xferWriteSlot _ _ => true
  | .xferWriteAndMark _ _ => true
  | .confirm _ => true
  | .pfAck _ => true
  | .strandWrite _ _ _ _ => true
  | .snap _ _ => true
  | .snapClear _ _ => true
  | .queueMonitorBind _ _ _ _ _ => true
  | .bistStart _ _ => true
  | .rcRead _ _ _ _ _ => true

/-- Well-formed commands. -/
abbrev Instr.WellFormed (i : Instr) : Prop := i.wf = true

end Sys2Proof
end

