-- ==== Sys2Proof/Safety.lean ====
section
/-! DEFINITION. What counts as a safe run, and the terms in which statements are made: commands that complete, what they leave alone, and
Limoon instructions that issue. -/

namespace Sys2Proof

open Sys2Proof.Machine

/-- A run of n steps that meets no fault and no refusal. -/
def Safe (n : Nat) (s : State) : Prop := ∃ t, core.run n s = .next t

/-- A state that holds only well-formed commands. -/
def WellFed (s : State) : Prop := ∀ i ∈ s.pending, i.WellFormed

/-- PORST_N is high: the device is out of reset (R488). -/
def Live (s : State) : Prop := s.dev.boot.inReset = false

/-- A command answers a next state, of which P holds. -/
def Completes (c : Instr) (s : State) (P : State → Prop) : Prop := ∃ t, exec c s = .next t ∧ P t

/-! What is left alone -/

/-- The queue of commands and the device as the last tick left it are as before; the device becomes d. -/
def Becomes (s t : State) (d : Dev) : Prop := t = { s with dev := d }

/-- Every stored field but those of fs holds what it held, both as read and in force. -/
def FieldsKept (fs : List Fld) (s t : State) : Prop :=
  ∀ g : Fld, g.key ∉ fs.map Fld.key → t.dev.rd g = s.dev.rd g ∧ t.dev.inF g = s.dev.inF g

/-- Only stored fields of fs may change: of the device its registers alone differ, and among them only those fields. -/
def OnlyFields (fs : List Fld) (s t : State) : Prop :=
  Becomes s t { s.dev with regs := t.dev.regs } ∧ FieldsKept fs s t

/-! Threads -/

/-- Only thread th may change, with the counts of instructions that cores issued. -/
def OnlyThread (th : Nat) (s t : State) : Prop :=
  (∀ u, u ≠ th → t.dev.thr u = s.dev.thr u) ∧
  Becomes s t { s.dev with shl := { s.dev.shl with threads := t.dev.shl.threads, issued := t.dev.shl.issued } }

/-- The outstanding accesses of y are those of x, but for destinations that a later write has taken (R174). -/
def SameAccesses (x y : Thread) : Prop :=
  y.loads.map (fun (a : MemAcc) => { a with reg := 0 }) = x.loads.map (fun (a : MemAcc) => { a with reg := 0 })

/-- A thread issued an instruction that goes on to pc, and of its registers only r changed, to v; g0 stays 0. -/
def WroteReg (x y : Thread) (pc : Nat) (r : BitVec 5) (v : Word) : Prop :=
  y.reg r = (if r = 0 then 0 else v) ∧ (∀ q, q ≠ r → y.reg q = x.reg q) ∧ y.pc = pc ∧ y.instret = x.instret + 1 ∧
  SameAccesses x y ∧ y = { x with regs := y.regs, loads := y.loads, pc := y.pc, instret := y.instret }

/-- A thread issued an instruction, and of its predicates only p changed, to b; p0 stays 1. -/
def WrotePred (x y : Thread) (p : BitVec 3) (b : Bool) : Prop :=
  y.pred p = (p = 0 || b) ∧ (∀ q, q ≠ p → y.pred q = x.pred q) ∧ y.pc = x.nextPc ∧ y.instret = x.instret + 1 ∧
  y = { x with preds := y.preds, pc := y.pc, instret := y.instret }

/-- What an instruction needs to be ready at its thread: the thread runs, fetches without a fault, no fence is open, and every outstanding
access, engine and ordering lets it issue. -/
def Ready (s : State) (i : Issue) (op : LimOp) : Prop :=
  Live s ∧ s.dev.mayRun i.th.toNat = true ∧ s.dev.fetchFault i.th.toNat = none ∧ (s.dev.thr i.th.toNat).fences = [] ∧
  s.dev.ready i.th.toNat op = true

/-- A ready instruction whose encoding is legal, whose guard is true and whose privilege level suffices. -/
def Issues (s : State) (i : Issue) (op : LimOp) : Prop :=
  Ready s i op ∧ limLegal op = true ∧ (i.n && i.p == 0) = false ∧ (s.dev.thr i.th.toNat).guard i.n i.p = true ∧
  (limPrivileged op = true → (s.dev.thr i.th.toNat).priv = true)

/-- The guard and thread of a Limoon instruction's command, and its operation; none for the other commands. -/
def Instr.issued (c : Instr) : Option (Issue × LimOp) :=
  match c with
  | .add i w d a b => some (i, .alu .add w d a b)
  | .sub i w d a b => some (i, .alu .sub w d a b)
  | .and i d a b => some (i, .alu .and false d a b)
  | .or i d a b => some (i, .alu .or false d a b)
  | .xor i d a b => some (i, .alu .xor false d a b)
  | .andn i d a b => some (i, .alu .andn false d a b)
  | .sll i w d a b => some (i, .alu .sll w d a b)
  | .srl i w d a b => some (i, .alu .srl w d a b)
  | .sra i w d a b => some (i, .alu .sra w d a b)
  | .ror i d a b => some (i, .alu .ror false d a b)
  | .min i d a b => some (i, .alu .min false d a b)
  | .max i d a b => some (i, .alu .max false d a b)
  | .minu i d a b => some (i, .alu .minu false d a b)
  | .maxu i d a b => some (i, .alu .maxu false d a b)
  | .clz i d a => some (i, .alu .clz false d a 0)
  | .ctz i d a => some (i, .alu .ctz false d a 0)
  | .popc i d a => some (i, .alu .popc false d a 0)
  | .bswap i d a => some (i, .alu .bswap false d a 0)
  | .mul i w d a b => some (i, .mul .mul w d a b)
  | .mulhs i d a b => some (i, .mul .mulhs false d a b)
  | .mulhu i d a b => some (i, .mul .mulhu false d a b)
  | .div i w d a b => some (i, .mul .div w d a b)
  | .divu i w d a b => some (i, .mul .divu w d a b)
  | .rem i w d a b => some (i, .mul .rem w d a b)
  | .remu i w d a b => some (i, .mul .remu w d a b)
  | .addi i d a imm => some (i, .imm .add d a imm)
  | .andi i d a imm => some (i, .imm .and d a imm)
  | .ori i d a imm => some (i, .imm .or d a imm)
  | .xori i d a imm => some (i, .imm .xor d a imm)
  | .shfi i op w d a amount => some (i, .shfi op w d a amount)
  | .lim i d imm => some (i, .lim d imm)
  | .shi i d imm => some (i, .shi d imm)
  | .cmp i cc pd a b => some (i, .cmp cc pd a b)
  | .cmpi i cc pd a imm => some (i, .cmpi cc pd a imm)
  | .plogAnd i pd pa pb => some (i, .plog .and pd pa pb)
  | .plogOr i pd pa pb => some (i, .plog .or pd pa pb)
  | .plogXor i pd pa pb => some (i, .plog .xor pd pa pb)
  | .plogAndn i pd pa pb => some (i, .plog .andn pd pa pb)
  | .plogOrn i pd pa pb => some (i, .plog .orn pd pa pb)
  | .plogMov i pd pa => some (i, .plog .mov pd pa 0)
  | .ldb i d a imm => some (i, .load .b false d a imm)
  | .ldh i d a imm => some (i, .load .h false d a imm)
  | .ldw i d a imm => some (i, .load .w false d a imm)
  | .ldd i d a imm => some (i, .load .d false d a imm)
  | .ldbs i d a imm => some (i, .load .b true d a imm)
  | .ldhs i d a imm => some (i, .load .h true d a imm)
  | .ldws i d a imm => some (i, .load .w true d a imm)
  | .stb i d a imm => some (i, .store .b d a imm)
  | .sth i d a imm => some (i, .store .h d a imm)
  | .stw i d a imm => some (i, .store .w d a imm)
  | .std i d a imm => some (i, .store .d d a imm)
  | .ldx i size sext scale d a b => some (i, .ldx size sext scale d a b)
  | .stx i size scale d a b => some (i, .stx size scale d a b)
  | .atomSwp i wide order d a b => some (i, .atom .swp wide order d a b)
  | .atomAdd i wide order d a b => some (i, .atom .add wide order d a b)
  | .atomAnd i wide order d a b => some (i, .atom .and wide order d a b)
  | .atomOr i wide order d a b => some (i, .atom .or wide order d a b)
  | .atomXor i wide order d a b => some (i, .atom .xor wide order d a b)
  | .atomSmax i wide order d a b => some (i, .atom .smax wide order d a b)
  | .atomUmax i wide order d a b => some (i, .atom .umax wide order d a b)
  | .atomCas i wide order d a b => some (i, .atom .cas wide order d a b)
  | .br i off => some (i, .br off)
  | .call i off => some (i, .call off)
  | .jmpr i a => some (i, .jmpr a)
  | .callr i a => some (i, .callr a)
  | .fence i kind => some (i, .fence kind)
  | .dcinv i a => some (i, .dcinv a)
  | .dcinvall i => some (i, .dcinvall)
  | .icinv i => some (i, .icinv)
  | .trap i b => some (i, .trap b)
  | .brk i => some (i, .brk)
  | .xret i => some (i, .xret)
  | .stop i => some (i, .stop)
  | .mfs i d sr => some (i, .mfs d sr)
  | .mts i a sr => some (i, .mts a sr)
  | .chPut i a b => some (i, .chPut a b)
  | .chSeal i pd a => some (i, .chSeal pd a)
  | .chTry i pd a => some (i, .chTry pd a)
  | .chGet i pd d a n => some (i, .chGet pd d a n)
  | .dlchk i pd a b => some (i, .dlchk pd a b)
  | .dlleft i d a => some (i, .dlleft d a)
  | .pwOpen i w d a => some (i, .pwOpen w d a)
  | .pwClose i w => some (i, .pwClose w)
  | .pwFree i a => some (i, .pwFree a)
  | .book i d a b => some (i, .eng .book d a b)
  | .reefLook i d a b => some (i, .eng .reefLook d a b)
  | .reefIns i d a b => some (i, .eng .reefIns d a b)
  | .reefDel i d a b => some (i, .eng .reefDel d a b)
  | .cySub0 i d a b => some (i, .eng .cySub0 d a b)
  | .cySub1 i d a b => some (i, .eng .cySub1 d a b)
  | .patSub i d a b => some (i, .eng .patSub d a b)
  | .movSub i d a b => some (i, .eng .movSub d a b)
  | _ => none

/-- Whenever the Limoon instruction of a command issues at thread th, the command completes, and P holds of the states before and after. -/
def Performs (c : Instr) (P : Nat → State → State → Prop) : Prop :=
  match c.issued with
  | some (i, op) => ∀ s, Issues s i op → Completes c s (P i.th.toNat s)
  | none => False

/-- The Limoon instruction of a command writes one register with a value made from the thread's registers, and changes nothing else. -/
def Writes (c : Instr) (r : BitVec 5) (v : Thread → Word) : Prop :=
  Performs c fun th s t =>
    OnlyThread th s t ∧ WroteReg (s.dev.thr th) (t.dev.thr th) (s.dev.thr th).nextPc r (v (s.dev.thr th))

/-- The Limoon instruction of a command writes one predicate, and changes nothing else. -/
def Decides (c : Instr) (p : BitVec 3) (v : Thread → Bool) : Prop :=
  Performs c fun th s t =>
    OnlyThread th s t ∧ WrotePred (s.dev.thr th) (t.dev.thr th) p (v (s.dev.thr th))

end Sys2Proof
end

