-- ==== Sys2Proof/Certificates/Slice0/Obligations.lean ====
section
/-! DEFINITION. The statements about the model. -/

open Sys2Proof Sys2Proof.Machine

/-! Terms used below -/

namespace Sys2Proof

/-- The low 32 bits of a register's value. -/
def Low (v : Word) : BitVec 32 := v.setWidth 32

/-- The number of positions below n at which a value has a 1. -/
def OnesIn (v : Word) (n : Nat) : Nat := ((List.range n).filter fun k => v.getLsbD k).length

/-- What a compare condition says of two values (Table 7.5). -/
def CondHolds (cc : CmpCond) (y z : Word) : Prop :=
  match cc with
  | .eq => y = z
  | .ne => y ≠ z
  | .lt => y.toInt < z.toInt
  | .ge => z.toInt ≤ y.toInt
  | .ltu => y.toNat < z.toNat
  | .geu => z.toNat ≤ y.toNat
  | .any => y &&& z ≠ 0
  | .none => y &&& z = 0

/-! Limoon: integers (Tables 7.3 and 7.4) -/

/-- ADD, SUB, SLL, SRL and SRA wrap at 64 bits, take a shift amount from B[5:0], write D alone and set no flag; the W forms work on the low
32 bits, with B[4:0], and sign-extend (R177). -/
def Rules.AddSubtractShift : Prop :=
  (∀ i w d a b, Writes (.add i w d a b) d fun x =>
    if w then (BitVec.ofNat 32 ((Low (x.reg a)).toNat + (Low (x.reg b)).toNat)).signExtend 64
    else BitVec.ofNat 64 ((x.reg a).toNat + (x.reg b).toNat)) ∧
  (∀ i w d a b, Writes (.sub i w d a b) d fun x =>
    if w then (BitVec.ofInt 32 ((Low (x.reg a)).toInt - (Low (x.reg b)).toInt)).signExtend 64
    else BitVec.ofInt 64 ((x.reg a).toInt - (x.reg b).toInt)) ∧
  (∀ i w d a b, Writes (.sll i w d a b) d fun x =>
    if w then (BitVec.ofNat 32 ((Low (x.reg a)).toNat * 2 ^ ((x.reg b).toNat % 32))).signExtend 64
    else BitVec.ofNat 64 ((x.reg a).toNat * 2 ^ ((x.reg b).toNat % 64))) ∧
  (∀ i w d a b, Writes (.srl i w d a b) d fun x =>
    if w then (BitVec.ofNat 32 ((Low (x.reg a)).toNat / 2 ^ ((x.reg b).toNat % 32))).signExtend 64
    else BitVec.ofNat 64 ((x.reg a).toNat / 2 ^ ((x.reg b).toNat % 64))) ∧
  (∀ i w d a b, Writes (.sra i w d a b) d fun x =>
    if w then (BitVec.ofInt 32 ((Low (x.reg a)).toInt / 2 ^ ((x.reg b).toNat % 32))).signExtend 64
    else BitVec.ofInt 64 ((x.reg a).toInt / 2 ^ ((x.reg b).toNat % 64)))

/-- The bitwise operations, ROR, and the least and greatest of two, signed and unsigned (Table 7.3). -/
def Rules.BitwiseRotateChoose : Prop :=
  (∀ i d a b, Writes (.and i d a b) d fun x => x.reg a &&& x.reg b) ∧
  (∀ i d a b, Writes (.or i d a b) d fun x => x.reg a ||| x.reg b) ∧
  (∀ i d a b, Writes (.xor i d a b) d fun x => x.reg a ^^^ x.reg b) ∧
  (∀ i d a b, Writes (.andn i d a b) d fun x => x.reg a &&& ~~~(x.reg b)) ∧
  (∀ i d a b, ∃ v : Word → Word → Word, Writes (.ror i d a b) d (fun x => v (x.reg a) (x.reg b)) ∧
    ∀ y z k, k < 64 → (v y z).getLsbD k = y.getLsbD ((k + z.toNat) % 64)) ∧
  (∀ i d a b, Writes (.min i d a b) d fun x => BitVec.ofInt 64 (Min.min (x.reg a).toInt (x.reg b).toInt)) ∧
  (∀ i d a b, Writes (.max i d a b) d fun x => BitVec.ofInt 64 (Max.max (x.reg a).toInt (x.reg b).toInt)) ∧
  (∀ i d a b, Writes (.minu i d a b) d fun x => BitVec.ofNat 64 (Min.min (x.reg a).toNat (x.reg b).toNat)) ∧
  (∀ i d a b, Writes (.maxu i d a b) d fun x => BitVec.ofNat 64 (Max.max (x.reg a).toNat (x.reg b).toNat))

/-- CLZ and CTZ count the zeros above the highest and below the lowest 1, and give 64 for 0; POPC counts the 1s; BSWAP reverses the 8
bytes (Table 7.3). -/
def Rules.CountAndSwap : Prop :=
  (∀ i d a, ∃ v : Word → Word, Writes (.clz i d a) d (fun x => v (x.reg a)) ∧ (v 0).toNat = 64 ∧
    ∀ y, y ≠ 0 → (v y).toNat < 64 ∧ y.getLsbD (63 - (v y).toNat) = true ∧ ∀ k, 63 - (v y).toNat < k → y.getLsbD k = false) ∧
  (∀ i d a, ∃ v : Word → Word, Writes (.ctz i d a) d (fun x => v (x.reg a)) ∧ (v 0).toNat = 64 ∧
    ∀ y, y ≠ 0 → y.getLsbD (v y).toNat = true ∧ ∀ k, k < (v y).toNat → y.getLsbD k = false) ∧
  (∀ i d a, ∃ v : Word → Word, Writes (.popc i d a) d (fun x => v (x.reg a)) ∧ ∀ y, (v y).toNat = OnesIn y 64) ∧
  (∀ i d a, ∃ v : Word → Word, Writes (.bswap i d a) d (fun x => v (x.reg a)) ∧
    ∀ y k, k < 8 → (v y).extractLsb' (8 * k) 8 = y.extractLsb' (56 - 8 * k) 8)

/-- MUL, MULHS and MULHU give the low 64 bits of the product, and the high 64 bits of the signed and of the unsigned one (Table 7.4). -/
def Rules.Multiply : Prop :=
  (∀ i w d a b, Writes (.mul i w d a b) d fun x =>
    if w then (BitVec.ofInt 32 ((Low (x.reg a)).toInt * (Low (x.reg b)).toInt)).signExtend 64
    else BitVec.ofInt 64 ((x.reg a).toInt * (x.reg b).toInt)) ∧
  (∀ i d a b, Writes (.mulhs i d a b) d fun x => BitVec.ofInt 64 ((x.reg a).toInt * (x.reg b).toInt / 2 ^ 64)) ∧
  (∀ i d a b, Writes (.mulhu i d a b) d fun x => BitVec.ofNat 64 ((x.reg a).toNat * (x.reg b).toNat / 2 ^ 64))

end Sys2Proof

/-- Division raises no exception: by zero the quotient is all ones and the remainder A; the most negative value divided by −1 gives A and
0; else the quotient is rounded toward zero. The W forms apply this at 32 bits (R178). -/
def Obligations.Divide : Prop :=
  (∀ i w d a b, Writes (.div i w d a b) d fun x =>
    if w then (if Low (x.reg b) = 0 then BitVec.allOnes 32
               else BitVec.ofInt 32 ((Low (x.reg a)).toInt.tdiv (Low (x.reg b)).toInt)).signExtend 64
    else if x.reg b = 0 then BitVec.allOnes 64 else BitVec.ofInt 64 ((x.reg a).toInt.tdiv (x.reg b).toInt)) ∧
  (∀ i w d a b, Writes (.divu i w d a b) d fun x =>
    if w then (if Low (x.reg b) = 0 then BitVec.allOnes 32
               else BitVec.ofNat 32 ((Low (x.reg a)).toNat / (Low (x.reg b)).toNat)).signExtend 64
    else if x.reg b = 0 then BitVec.allOnes 64 else BitVec.ofNat 64 ((x.reg a).toNat / (x.reg b).toNat)) ∧
  (∀ i w d a b, Writes (.rem i w d a b) d fun x =>
    if w then (if Low (x.reg b) = 0 then Low (x.reg a)
               else BitVec.ofInt 32 ((Low (x.reg a)).toInt.tmod (Low (x.reg b)).toInt)).signExtend 64
    else if x.reg b = 0 then x.reg a else BitVec.ofInt 64 ((x.reg a).toInt.tmod (x.reg b).toInt)) ∧
  (∀ i w d a b, Writes (.remu i w d a b) d fun x =>
    if w then (if Low (x.reg b) = 0 then Low (x.reg a)
               else BitVec.ofNat 32 ((Low (x.reg a)).toNat % (Low (x.reg b)).toNat)).signExtend 64
    else if x.reg b = 0 then x.reg a else BitVec.ofNat 64 ((x.reg a).toNat % (x.reg b).toNat))

namespace Sys2Proof

/-- The immediate forms: ADDI, ANDI, ORI and XORI with the sign-extended 12-bit immediate, SHFI by its amount, LIM loads its sign-extended
17 bits, and SHI shifts D left by 16 and puts its 16 bits below (R179). -/
def Rules.Immediates : Prop :=
  (∀ i d a imm, Writes (.addi i d a imm) d fun x => BitVec.ofInt 64 ((x.reg a).toInt + imm.toInt)) ∧
  (∀ i d a imm, Writes (.andi i d a imm) d fun x => x.reg a &&& BitVec.ofInt 64 imm.toInt) ∧
  (∀ i d a imm, Writes (.ori i d a imm) d fun x => x.reg a ||| BitVec.ofInt 64 imm.toInt) ∧
  (∀ i d a imm, Writes (.xori i d a imm) d fun x => x.reg a ^^^ BitVec.ofInt 64 imm.toInt) ∧
  (∀ i w d a (n : BitVec 6), Writes (.shfi i .sll w d a n) d fun x =>
    if w then (Low (x.reg a) <<< (n.toNat % 32)).signExtend 64 else x.reg a <<< n.toNat) ∧
  (∀ i w d a (n : BitVec 6), Writes (.shfi i .srl w d a n) d fun x =>
    if w then (Low (x.reg a) >>> (n.toNat % 32)).signExtend 64 else x.reg a >>> n.toNat) ∧
  (∀ i w d a (n : BitVec 6), Writes (.shfi i .sra w d a n) d fun x =>
    if w then ((Low (x.reg a)).sshiftRight (n.toNat % 32)).signExtend 64 else (x.reg a).sshiftRight n.toNat) ∧
  (∀ i d a (n : BitVec 6), Writes (.shfi i .ror false d a n) d fun x => (x.reg a).rotateRight n.toNat) ∧
  (∀ i d imm, Writes (.lim i d imm) d fun _ => BitVec.ofInt 64 imm.toInt) ∧
  (∀ i d imm, Writes (.shi i d imm) d fun x => BitVec.ofNat 64 ((x.reg d).toNat * 65536 + imm.toNat))

end Sys2Proof

/-- Integer arithmetic, logic, shifts, counts, products and immediates: AddSubtractShift, BitwiseRotateChoose, CountAndSwap, Immediates and Multiply. -/
def Obligations.IntegerOperations : Prop :=
  Rules.AddSubtractShift ∧ Rules.BitwiseRotateChoose ∧ Rules.CountAndSwap ∧ Rules.Immediates ∧ Rules.Multiply

/-! Limoon: predicates and time -/

namespace Sys2Proof

/-- CMP and CMPI write the outcome of their condition to PD: equal, unequal, signed and unsigned order, any and no common 1 (Table 7.5). -/
def Rules.Compares : Prop :=
  (∀ i cc p a b, ∃ v, Decides (.cmp i cc p a b) p v ∧ ∀ x, v x = true ↔ CondHolds cc (x.reg a) (x.reg b)) ∧
  (∀ i cc p a imm, ∃ v, Decides (.cmpi i cc p a imm) p v ∧ ∀ x, v x = true ↔ CondHolds cc (x.reg a) (BitVec.ofInt 64 imm.toInt))

end Sys2Proof

/-- PLOG combines two predicates by AND, OR, XOR, AND NOT and OR NOT, by FN 0 to 4, or moves one by FN 5, whose PB must be 0; FN 6 and 7 are
illegal, as no word of them decodes; p0 supplies 1, so that PLOG.ANDN of p0 and p0 clears (R181). -/
def Obligations.PredicateLogic : Prop :=
  (∀ i p a b, Decides (.plogAnd i p a b) p fun x => x.pred a && x.pred b) ∧
  (∀ i p a b, Decides (.plogOr i p a b) p fun x => x.pred a || x.pred b) ∧
  (∀ i p a b, Decides (.plogXor i p a b) p fun x => x.pred a != x.pred b) ∧
  (∀ i p a b, Decides (.plogAndn i p a b) p fun x => x.pred a && !x.pred b) ∧
  (∀ i p a b, Decides (.plogOrn i p a b) p fun x => x.pred a || !x.pred b) ∧
  (∀ i p a, Decides (.plogMov i p a) p fun x => x.pred a) ∧
  (∀ w, w / 2 ^ 22 % 64 = 0x0C → 6 ≤ w % 8 → limoonDecode w = none) ∧
  (∀ w n p o pd pa pb, w / 2 ^ 22 % 64 = 0x0C → limoonDecode w = some (n, p, .plog o pd pa pb) →
    w % 8 = (match o with | .and => 0 | .or => 1 | .xor => 2 | .andn => 3 | .orn => 4 | .mov => 5) ∧
    (o = .mov → pb ≠ 0 → limLegal (.plog o pd pa pb) = false)) ∧
  (∀ x : Thread, x.pred 0 = true) ∧ ∀ i p, Decides (.plogAndn i p 0 0) p fun _ => false

namespace Sys2Proof

/-- DLCHK compares the time left until A with B and DLLEFT reads it, in the signed 32-bit difference from TIDE_SHORT (R210). -/
def Rules.TimeLeft : Prop :=
  (∀ i p a b, Performs (.dlchk i p a b) fun th s t => ∃ v : Bool,
    OnlyThread th s t ∧ WrotePred (s.dev.thr th) (t.dev.thr th) p v ∧
    (v = true ↔ (Low ((s.dev.thr th).reg b)).toInt ≤ (Low ((s.dev.thr th).reg a) - BitVec.ofNat 32 s.dev.clk.tide).toInt)) ∧
  (∀ i d a, Performs (.dlleft i d a) fun th s t =>
    OnlyThread th s t ∧ WroteReg (s.dev.thr th) (t.dev.thr th) (s.dev.thr th).nextPc d
      ((Low ((s.dev.thr th).reg a) - BitVec.ofNat 32 s.dev.clk.tide).signExtend 64))

end Sys2Proof

/-- Compares, and the time left: Compares and TimeLeft. -/
def Obligations.ComparesAndTimeLeft : Prop :=
  Rules.Compares ∧ Rules.TimeLeft

/-! Limoon: memory -/

namespace Sys2Proof

/-- An access of n bytes at address a is aligned, within what the thread's level allows, and granted by the firewall. -/
def Reaches (d : Dev) (th a n : Nat) (k : AccessKind) : Prop :=
  a % n = 0 ∧ d.userFault th a n = none ∧ d.threadGrant th a n k = .granted

/-- The memory at an address answers a load itself: shoal SRAM, the packet buffer, or DDR and HBM whose line the core does not hold. -/
def Answers (d : Dev) (th a : Nat) : Prop :=
  (∃ k, d.place a = .sram k) ∨ d.place a = .packet ∨
  ((d.place a = .ddr ∨ d.place a = .hbm) ∧ ∀ p ∈ d.shl.dcache, p.1 ≠ lineKey (coreOf th) a)

/-- A thread issued an instruction that goes on, with one access more outstanding, last in the list; its registers and the rest of it are as
before, but for destinations of older loads that the new access takes over. -/
def GainsAccess (x y : Thread) (acc : MemAcc) : Prop :=
  (∃ l : List MemAcc, y.loads = l ++ [acc] ∧ SameAccesses x { x with loads := l }) ∧
  y = { x with loads := y.loads, nextLoad := x.nextLoad + 1, pc := x.nextPc, instret := x.instret + 1 }

/-- What a thread issues to be sampled in the next tick waits with the tick of its issue (R60). -/
def Waits (c : Later) (s t : State) : Prop := t.dev.shl.later = s.dev.shl.later ++ [(s.dev.clk.tick, c)]

/-- A load of n bytes: one that memory answers becomes outstanding with the bytes, lowest first, and with MEMERR (5, detail 1) where a line is
poisoned; one that is refused becomes outstanding with ACCESS (4, detail 1 or 2); one of a host window becomes outstanding without an answer,
and so does one of control space, which its block samples in the next tick. No byte of memory, no register, and no other thread changes. -/
def Loads (c : Instr) (n : Nat) (sext : Bool) (r : BitVec 5) (addr : Thread → Nat) : Prop :=
  Performs c fun th s t =>
    let x := s.dev.thr th
    let a := addr x
    let acc (fault : Option (Nat × Nat)) (back : Option Nat) : MemAcc :=
      { id := x.nextLoad, pc := x.pc, reg := r.toNat, size := n, sext := sext, store := false, addr := a, fault := fault, back := back,
        inHandler := x.exl }
    (a % n = 0 → s.dev.userFault th a n = none → (∀ u, u ≠ th → t.dev.thr u = s.dev.thr u) ∧ t.dev.mem = s.dev.mem) ∧
    (Reaches s.dev th a n .read → Answers s.dev th a →
      GainsAccess x (t.dev.thr th)
        (if s.dev.anyPoison a n then acc (some (5, 1)) none else acc none (some (leNat (s.dev.bytes a n))))) ∧
    (a % n = 0 → s.dev.userFault th a n = none → s.dev.threadGrant th a n .read ≠ .granted →
      ∃ k, (k = 1 ∨ k = 2) ∧ GainsAccess x (t.dev.thr th) (acc (some (4, k)) none)) ∧
    (Reaches s.dev th a n .read → (∃ tid off, s.dev.place a = .host tid off) → GainsAccess x (t.dev.thr th) (acc none none)) ∧
    (Reaches s.dev th a n .read → ∀ o, s.dev.place a = .control o →
      GainsAccess x (t.dev.thr th) (acc none none) ∧ Waits (.ctl th x.nextLoad o n none) s t)

/-- The loads of 1, 2, 4 and 8 bytes, zero-extended or sign-extended, at A + sext(IMM12), and LDX at A + (B << SCALE) (R182, R183). -/
def Rules.LoadInstructions : Prop :=
  (∀ i d a imm, Loads (.ldb i d a imm) 1 false d fun x => (x.reg a + imm.signExtend 64).toNat) ∧
  (∀ i d a imm, Loads (.ldh i d a imm) 2 false d fun x => (x.reg a + imm.signExtend 64).toNat) ∧
  (∀ i d a imm, Loads (.ldw i d a imm) 4 false d fun x => (x.reg a + imm.signExtend 64).toNat) ∧
  (∀ i d a imm, Loads (.ldd i d a imm) 8 false d fun x => (x.reg a + imm.signExtend 64).toNat) ∧
  (∀ i d a imm, Loads (.ldbs i d a imm) 1 true d fun x => (x.reg a + imm.signExtend 64).toNat) ∧
  (∀ i d a imm, Loads (.ldhs i d a imm) 2 true d fun x => (x.reg a + imm.signExtend 64).toNat) ∧
  (∀ i d a imm, Loads (.ldws i d a imm) 4 true d fun x => (x.reg a + imm.signExtend 64).toNat) ∧
  (∀ i sext sc d a b, Loads (.ldx i .b sext sc d a b) 1 sext d fun x => (x.reg a + x.reg b <<< sc.toNat).toNat) ∧
  (∀ i sext sc d a b, Loads (.ldx i .h sext sc d a b) 2 sext d fun x => (x.reg a + x.reg b <<< sc.toNat).toNat) ∧
  (∀ i sext sc d a b, Loads (.ldx i .w sext sc d a b) 4 sext d fun x => (x.reg a + x.reg b <<< sc.toNat).toNat) ∧
  (∀ i sc d a b, Loads (.ldx i .d false sc d a b) 8 false d fun x => (x.reg a + x.reg b <<< sc.toNat).toNat)

/-- LOAD_RETURN: an access that has its data leaves the list and writes its register, extended from its size as the load says; one that has no
answer yet stays, and nothing changes (R145, R182). -/
def Rules.LoadReturns : Prop :=
  ∀ s (th : BitVec 10) id acc, Live s → (s.dev.thr th.toNat).loads.find? (fun a => a.id == id) = some acc →
    Completes (.loadReturn th id) s fun t =>
      (acc.fault = none → acc.back = none → t = s) ∧
      (∀ v, acc.fault = none → acc.back = some v →
        Becomes s t { s.dev with shl := { s.dev.shl with threads := t.dev.shl.threads } } ∧
        (∀ u, u ≠ th.toNat → t.dev.thr u = s.dev.thr u) ∧
        (t.dev.thr th.toNat).loads = (s.dev.thr th.toNat).loads.filter (fun a => a.id != id) ∧
        (t.dev.thr th.toNat).pc = (s.dev.thr th.toNat).pc ∧
        (∀ r : BitVec 5, r ≠ 0 → (t.dev.thr th.toNat).reg r =
          if acc.store = false ∧ r.toNat = acc.reg then
            (if acc.sext then
              (if acc.size = 1 then (BitVec.ofNat 8 v).signExtend 64 else if acc.size = 2 then (BitVec.ofNat 16 v).signExtend 64
               else if acc.size = 4 then (BitVec.ofNat 32 v).signExtend 64 else BitVec.ofNat 64 v)
             else BitVec.ofNat 64 (v % 256 ^ acc.size))
          else (s.dev.thr th.toNat).reg r))

end Sys2Proof

/-- Loads and their return: LoadInstructions and LoadReturns. -/
def Obligations.Loads : Prop :=
  Rules.LoadInstructions ∧ Rules.LoadReturns

namespace Sys2Proof

/-- A store of n bytes of register r: where its memory takes it, exactly the n bytes at its address become the low n bytes of the register,
lowest first, and every other byte stays; a poisoned line discards it; one that is refused becomes outstanding with ACCESS (4, detail 1 or 2)
and changes no byte; one to control space is outstanding, and its block samples it in the next tick; one to a host window leaves as a write of the host. -/
def Stores (c : Instr) (n : Nat) (r : BitVec 5) (addr : Thread → Nat) : Prop :=
  Performs c fun th s t =>
    let x := s.dev.thr th
    let a := addr x
    let acc (fault : Option (Nat × Nat)) : MemAcc :=
      { id := x.nextLoad, pc := x.pc, reg := 0, size := n, sext := false, store := true, addr := a, fault := fault, back := none,
        inHandler := x.exl }
    let went : Prop := t.dev.thr th = { x with pc := x.nextPc, instret := x.instret + 1 }
    (Reaches s.dev th a n .write → (∀ o, s.dev.place a ≠ .control o) →
      went ∧ (∀ u, u ≠ th → t.dev.thr u = s.dev.thr u) ∧
      ((∃ k, s.dev.place a = .sram k) ∨ s.dev.place a = .packet ∨ s.dev.place a = .ddr ∨ s.dev.place a = .hbm →
        s.dev.partialPoison a n = none →
        (∀ k, k < n → t.dev.byte (a + k) = (x.reg r).extractLsb' (8 * k) 8) ∧
        (∀ b, b < a ∨ a + n ≤ b → t.dev.byte b = s.dev.byte b)) ∧
      ((∃ tid off, s.dev.place a = .host tid off) → t.dev.mem = s.dev.mem)) ∧
    (Reaches s.dev th a n .write → ∀ o, s.dev.place a = .control o →
      (∀ u, u ≠ th → t.dev.thr u = s.dev.thr u) ∧ t.dev.mem = s.dev.mem ∧ GainsAccess x (t.dev.thr th) (acc none) ∧
      Waits (.ctl th x.nextLoad o n (some ((x.reg r).toNat % 256 ^ n))) s t) ∧
    (a % n = 0 → s.dev.userFault th a n = none → s.dev.threadGrant th a n .write ≠ .granted →
      (∀ u, u ≠ th → t.dev.thr u = s.dev.thr u) ∧ t.dev.mem = s.dev.mem ∧
      ∃ k, (k = 1 ∨ k = 2) ∧ GainsAccess x (t.dev.thr th) (acc (some (4, k))))

/-- The stores of 1, 2, 4 and 8 bytes at A + sext(IMM12), and STX at A + (B << SCALE) (R182, R183). -/
def Rules.StoreInstructions : Prop :=
  (∀ i d a imm, Stores (.stb i d a imm) 1 d fun x => (x.reg a + imm.signExtend 64).toNat) ∧
  (∀ i d a imm, Stores (.sth i d a imm) 2 d fun x => (x.reg a + imm.signExtend 64).toNat) ∧
  (∀ i d a imm, Stores (.stw i d a imm) 4 d fun x => (x.reg a + imm.signExtend 64).toNat) ∧
  (∀ i d a imm, Stores (.std i d a imm) 8 d fun x => (x.reg a + imm.signExtend 64).toNat) ∧
  (∀ i sc d a b, Stores (.stx i .b sc d a b) 1 d fun x => (x.reg a + x.reg b <<< sc.toNat).toNat) ∧
  (∀ i sc d a b, Stores (.stx i .h sc d a b) 2 d fun x => (x.reg a + x.reg b <<< sc.toNat).toNat) ∧
  (∀ i sc d a b, Stores (.stx i .w sc d a b) 4 d fun x => (x.reg a + x.reg b <<< sc.toNat).toNat) ∧
  (∀ i sc d a b, Stores (.stx i .d sc d a b) 8 d fun x => (x.reg a + x.reg b <<< sc.toNat).toNat)

/-- An atomic of 32 or 64 bits: where its memory takes atomics and holds no poison, the word at address A becomes what the operation makes of
the old word, B and D, every other byte stays, and the old word comes back for D; the access keeps both words, for a memory error that still takes it back (R197); a poisoned word answers MEMERR and stays. -/
def Atomic (c : Instr) (wide : Bool) (d a b : BitVec 5) (f : (n : Nat) → BitVec n → BitVec n → BitVec n → BitVec n) : Prop :=
  Performs c fun th s t =>
    let x := s.dev.thr th
    let at_ := (x.reg a).toNat
    let n := if wide then 8 else 4
    let old := leNat (s.dev.bytes at_ n)
    let new := if wide then (f 64 (BitVec.ofNat 64 old) (x.reg b) (x.reg d)).toNat
      else (f 32 (BitVec.ofNat 32 old) (Low (x.reg b)) (Low (x.reg d))).toNat
    Reaches s.dev th at_ n .read → Reaches s.dev th at_ n .write →
    (∃ k, s.dev.place at_ = .sram k) ∨ s.dev.place at_ = .ddr ∨ s.dev.place at_ = .hbm →
      (∀ u, u ≠ th → t.dev.thr u = s.dev.thr u) ∧
      (s.dev.anyPoison at_ n = false →
        GainsAccess x (t.dev.thr th)
          { id := x.nextLoad, pc := x.pc, reg := d.toNat, size := n, sext := false, store := false, addr := at_, fault := none,
            back := some old, inHandler := x.exl, atomic := true, undo := some (s.dev.bytes at_ n, natLe n new) } ∧
        (∀ k, k < n → (t.dev.byte (at_ + k)).toNat = new / 256 ^ k % 256) ∧
        (∀ p, p < at_ ∨ at_ + n ≤ p → t.dev.byte p = s.dev.byte p)) ∧
      (s.dev.anyPoison at_ n = true → t.dev.mem = s.dev.mem ∧
        GainsAccess x (t.dev.thr th)
          { id := x.nextLoad, pc := x.pc, reg := d.toNat, size := n, sext := false, store := false, addr := at_, fault := some (5, 1),
            back := none, inHandler := x.exl, atomic := true })

/-- The atomics: swap, add, and, or, exclusive or, signed and unsigned maximum, and compare and swap (Table 7.6, R185, R186). -/
def Rules.Atomics : Prop :=
  (∀ i w o d a b, Atomic (.atomSwp i w o d a b) w d a b fun _ _ y _ => y) ∧
  (∀ i w o d a b, Atomic (.atomAdd i w o d a b) w d a b fun _ old y _ => old + y) ∧
  (∀ i w o d a b, Atomic (.atomAnd i w o d a b) w d a b fun _ old y _ => old &&& y) ∧
  (∀ i w o d a b, Atomic (.atomOr i w o d a b) w d a b fun _ old y _ => old ||| y) ∧
  (∀ i w o d a b, Atomic (.atomXor i w o d a b) w d a b fun _ old y _ => old ^^^ y) ∧
  (∀ i w o d a b, Atomic (.atomSmax i w o d a b) w d a b fun n old y _ => BitVec.ofInt n (Max.max old.toInt y.toInt)) ∧
  (∀ i w o d a b, Atomic (.atomUmax i w o d a b) w d a b fun n old y _ => BitVec.ofNat n (Max.max old.toNat y.toNat)) ∧
  (∀ i w o d a b, Atomic (.atomCas i w o d a b) w d a b fun _ old y z => if old = z then y else old)

end Sys2Proof

/-- Stores and atomics: StoreInstructions and Atomics. -/
def Obligations.StoresAndAtomics : Prop :=
  Rules.StoreInstructions ∧ Rules.Atomics

/-! Limoon: control, the system instructions and exceptions -/

/-- BR and CALL go to PC + 4 × sext(OFF22), JMPR and CALLR to the address in A; CALL and CALLR write PC + 4 to g31, after A is read; nothing
else changes (R187). A target in a register that is not a multiple of 4 is of the statement PreciseTraps. -/
def Obligations.Branches : Prop :=
  (∀ i off, Performs (.br i off) fun th s t => OnlyThread th s t ∧
    t.dev.thr th = { s.dev.thr th with pc := (((s.dev.thr th).pc : Int) + 4 * off.toInt) % 2 ^ 48 |>.toNat,
                                       instret := (s.dev.thr th).instret + 1 }) ∧
  (∀ i off, Performs (.call i off) fun th s t => OnlyThread th s t ∧
    WroteReg (s.dev.thr th) (t.dev.thr th) ((((s.dev.thr th).pc : Int) + 4 * off.toInt) % 2 ^ 48 |>.toNat) 31
      (BitVec.ofNat 64 (s.dev.thr th).nextPc)) ∧
  (∀ i a, Performs (.jmpr i a) fun th s t => ((s.dev.thr th).reg a).toNat % 4 = 0 → OnlyThread th s t ∧
    t.dev.thr th = { s.dev.thr th with pc := ((s.dev.thr th).reg a).toNat % 2 ^ 48, instret := (s.dev.thr th).instret + 1 }) ∧
  (∀ i a, Performs (.callr i a) fun th s t => ((s.dev.thr th).reg a).toNat % 4 = 0 → OnlyThread th s t ∧
    WroteReg (s.dev.thr th) (t.dev.thr th) (((s.dev.thr th).reg a).toNat % 2 ^ 48) 31 (BitVec.ofNat 64 (s.dev.thr th).nextPc))

namespace Sys2Proof

/-- A thread issued an instruction that goes on, and what f changes in it is all that changes of it. -/
def Goes (x y : Thread) (f : Thread → Thread) : Prop :=
  y = { f x with pc := x.nextPc, instret := x.instret + 1 }

/-- MFS copies a special register to D: THREAD_ID, STATUS, INSTRET (which counts the MFS itself), CYCLES by the tick, the exception registers,
the scratch and range registers, and the time registers (Table 7.8, Table 8.2). But for the count of free values, which CYCLES draws on, only
the thread changes. That INSTRET counts the reading instruction is the model's reading (log entry 45). -/
def Rules.SpecialRegisterReads : Prop :=
  ∀ i d sr, Performs (.mfs i d sr) fun th s t =>
    let x := s.dev.thr th
    (∀ u, u ≠ th → t.dev.thr u = s.dev.thr u) ∧
    Becomes s t { s.dev with free := t.dev.free, shl := { s.dev.shl with threads := t.dev.shl.threads, issued := t.dev.shl.issued } } ∧
    ∃ v : Nat, WroteReg x (t.dev.thr th) x.nextPc d (BitVec.ofNat 64 v) ∧
      (sr = 0x000 → v = th) ∧
      (sr = 0x001 → v = (if x.priv then 1 else 0) + (if x.exl then 2 else 0)) ∧
      (sr = 0x002 → v / 16 = s.dev.clk.tick - Tab.get 0 s.dev.shl.released (th / 64)) ∧
      (sr = 0x003 → v = x.instret + 1) ∧
      (sr = 0x008 → v = x.xbase) ∧ (sr = 0x009 → v = x.epc) ∧ (sr = 0x00A → v = x.efpc) ∧ (sr = 0x00B → v = x.ecause) ∧
      (sr = 0x00C → v = x.eaddr) ∧ (sr = 0x00D → v = if x.estate then 1 else 0) ∧ (sr = 0x00E → v = if x.brkHalt then 1 else 0) ∧
      (∀ k : Nat, k < 4 → sr = BitVec.ofNat 12 (0x10 + k) → v = Tab.get 0 x.scratch k) ∧
      (∀ k : Nat, k < 4 → sr = BitVec.ofNat 12 (0x18 + k) → v = Tab.get 0 x.ranges k) ∧
      (sr = 0x100 → v = x.chLen) ∧ (sr = 0x108 → v = x.dlArm) ∧
      (sr = 0x110 → v = s.dev.clk.tide % 2 ^ 64) ∧ (sr = 0x111 → v = s.dev.clk.tide % 2 ^ 32) ∧ (sr = 0x112 → v = s.dev.clk.slotSeq) ∧
      (sr = 0x118 → v = x.bookTid)

/-- MTS writes a special register from A: XBASE keeps bits [47:10], EPC drops its two low bits, ESTATE and DBGCTL take bit 0, the scratch and
range registers take the word, BOOK_TID takes TID and its valid bit, DL_ARM takes 33 bits and ends waiting (Table 7.8, Table 8.2, R161). -/
def Rules.SpecialRegisterWrites : Prop :=
  (∀ i a, Performs (.mts i a 0x008) fun th s t => OnlyThread th s t ∧ Goes (s.dev.thr th) (t.dev.thr th) fun x =>
    { x with xbase := (x.reg a).toNat % 2 ^ 48 / 1024 * 1024 }) ∧
  (∀ i a, Performs (.mts i a 0x009) fun th s t => OnlyThread th s t ∧ Goes (s.dev.thr th) (t.dev.thr th) fun x =>
    { x with epc := (x.reg a).toNat / 4 * 4 }) ∧
  (∀ i a, Performs (.mts i a 0x00D) fun th s t => OnlyThread th s t ∧ Goes (s.dev.thr th) (t.dev.thr th) fun x =>
    { x with estate := (x.reg a).getLsbD 0 }) ∧
  (∀ i a, Performs (.mts i a 0x00E) fun th s t => OnlyThread th s t ∧ Goes (s.dev.thr th) (t.dev.thr th) fun x =>
    { x with brkHalt := (x.reg a).getLsbD 0 }) ∧
  (∀ i a, Performs (.mts i a 0x118) fun th s t => OnlyThread th s t ∧ Goes (s.dev.thr th) (t.dev.thr th) fun x =>
    { x with bookTid := (x.reg a).toNat % 512 + (if (x.reg a).getLsbD 15 then 32768 else 0) }) ∧
  (∀ i a, Performs (.mts i a 0x108) fun th s t =>
    (t.dev.thr th).dlArm = ((s.dev.thr th).reg a).toNat % 2 ^ 33 ∧ (t.dev.thr th).waiting = false ∧ t.dev.mem = s.dev.mem ∧
    (∀ u, u ≠ th → t.dev.thr u = s.dev.thr u) ∧ (t.dev.thr th).regs = (s.dev.thr th).regs) ∧
  (∀ i a (k : Fin 4), Performs (.mts i a (BitVec.ofNat 12 (0x10 + k))) fun th s t => OnlyThread th s t ∧
    Goes (s.dev.thr th) (t.dev.thr th) fun x => { x with scratch := Tab.set 0 x.scratch k (x.reg a).toNat }) ∧
  (∀ i a (k : Fin 4), Performs (.mts i a (BitVec.ofNat 12 (0x18 + k))) fun th s t => OnlyThread th s t ∧
    Goes (s.dev.thr th) (t.dev.thr th) fun x => { x with ranges := Tab.set 0 x.ranges k (x.reg a).toNat })

end Sys2Proof

/-- Special registers: SpecialRegisterReads and SpecialRegisterWrites. -/
def Obligations.SpecialRegisters : Prop :=
  Rules.SpecialRegisterReads ∧ Rules.SpecialRegisterWrites

namespace Sys2Proof

/-- FENCE with its prior loads performed goes on, and with INV invalidates the core's data cache; else it holds back what its kind says. DCINV
drops the core's line of address A, DCINVALL its data cache, ICINV its instruction cache, and other lines stay. STOP ends the thread once
nothing is outstanding. XRET restores PC, the level and EXL, and what is outstanding is no longer the handler's (R189, R198, R199, R203). -/
def Rules.SystemInstructions : Prop :=
  (∀ i kind, Performs (.fence i kind) fun th s t =>
    let x := s.dev.thr th
    (kind.getLsbD 3 = false ∨ x.unperformed = [] → Goes x (t.dev.thr th) id ∧
      (kind.getLsbD 4 = false → OnlyThread th s t) ∧
      (kind.getLsbD 4 = true → t.dev.shl.dcache = s.dev.shl.dcache.filter fun p => p.1 / 2 ^ 42 != coreOf th)) ∧
    (kind.getLsbD 3 = true → x.unperformed ≠ [] → OnlyThread th s t ∧
      Goes x (t.dev.thr th) fun x => { x with fences := [(x.unperformed, kind.toNat)] })) ∧
  (∀ i a, Performs (.dcinv i a) fun th s t => Goes (s.dev.thr th) (t.dev.thr th) id ∧ t.dev.mem = s.dev.mem ∧
    t.dev.shl.icache = s.dev.shl.icache ∧ t.dev.shl.dcache = s.dev.shl.dcache.filter fun p =>
      p.1 != lineKey (coreOf th) ((s.dev.thr th).reg a).toNat) ∧
  (∀ i, Performs (.dcinvall i) fun th s t => Goes (s.dev.thr th) (t.dev.thr th) id ∧ t.dev.mem = s.dev.mem ∧
    t.dev.shl.icache = s.dev.shl.icache ∧ t.dev.shl.dcache = s.dev.shl.dcache.filter fun p => p.1 / 2 ^ 42 != coreOf th) ∧
  (∀ i, Performs (.icinv i) fun th s t => Goes (s.dev.thr th) (t.dev.thr th) id ∧ t.dev.mem = s.dev.mem ∧
    t.dev.shl.dcache = s.dev.shl.dcache ∧ t.dev.shl.icache = s.dev.shl.icache.filter fun p => p.1 / 2 ^ 42 != coreOf th) ∧
  (∀ i, Performs (.stop i) fun th s t => OnlyThread th s t ∧
    ((s.dev.thr th).loads = [] → Goes (s.dev.thr th) (t.dev.thr th) fun x => { x with st := 3, stopping := false }) ∧
    ((s.dev.thr th).loads ≠ [] → Goes (s.dev.thr th) (t.dev.thr th) fun x => { x with stopping := true })) ∧
  (∀ i, Performs (.xret i) fun th s t => OnlyThread th s t ∧
    let x := s.dev.thr th
    let out (a : MemAcc) : MemAcc := { a with inHandler := false }
    t.dev.thr th = { x with pc := x.epc % 2 ^ 48 / 4 * 4, priv := x.estate, exl := false, instret := x.instret + 1,
                            loads := x.loads.map out, parked := x.parked.map out })

/-- A thread takes an exception (more: what ECAUSE has above its detail and number; 65,536 for a delayed one): with a handler, and not inside one, EFPC, EPC, EADDR, ECAUSE and ESTATE take their values, the thread
becomes privileged and goes on at XBASE + 64 × NUMBER; else it is FAULTED and the error log receives the record (R194 to R196). Waiting ends; no
general register, no other thread and no byte of memory changes. -/
def EntersWith (more th num detail eaddr : Nat) (epc : Thread → Nat) (s t : State) : Prop :=
  let x := s.dev.thr th
  let y := t.dev.thr th
  (∀ u, u ≠ th → t.dev.thr u = s.dev.thr u) ∧ t.dev.mem = s.dev.mem ∧ y.regs = x.regs ∧ y.preds = x.preds ∧ y.loads = x.loads ∧
  y.instret = x.instret ∧ y.waiting = false ∧
  (x.xbase ≠ 0 → x.exl = false →
    y.efpc = x.pc ∧ y.epc = epc x ∧ y.eaddr = eaddr ∧ y.ecause = more + detail % 256 * 256 + num ∧ y.estate = x.priv ∧ y.priv = true ∧ y.exl = true ∧
    y.pc = (x.xbase + 64 * num) % 2 ^ 48 ∧ y.st = x.st ∧ t.dev.log = s.dev.log) ∧
  (x.xbase = 0 ∨ x.exl = true →
    y.st = 4 ∧ y.pc = x.pc ∧ y.priv = x.priv ∧ y.exl = x.exl ∧ y.epc = x.epc ∧
    ∃ r, t.dev.log.reports = s.dev.log.reports ++ [r] ∧ r.kind = 0x18 ∧ r.source = 0x020 + th / 64 ∧ r.thread = some th ∧
      r.detail = detail % 256 * 256 + num ∧ r.addr = eaddr)

/-- A thread takes a precise exception. -/
def Enters (th num detail eaddr : Nat) (epc : Thread → Nat) (s t : State) : Prop := EntersWith 0 th num detail eaddr epc s t

/-- A state with one record more in its error log. -/
def Reported (s : State) (r : ErrRec) : State := { s with dev := s.dev.report r }

/-- TRAP raises exception 8 with its detail, and EPC holds the next address; BRK raises exception 9, or, where DBGCTL says so, issues
no more and asks for HALT, which the tick boundary does (R169, R189, R195, R196). -/
def Rules.TrapAndBreak : Prop :=
  (∀ i b, Performs (.trap i b) fun th s t => Enters th 8 b.toNat 0 Thread.nextPc s t) ∧
  (∀ i, Performs (.brk i) fun th s t =>
    ((s.dev.thr th).brkHalt = false → Enters th 9 0 0 Thread.pc s t) ∧
    ((s.dev.thr th).brkHalt = true → (∀ u, u ≠ th → t.dev.thr u = s.dev.thr u) ∧
      t.dev.thr th = { s.dev.thr th with breaking := true, instret := (s.dev.thr th).instret + 1 } ∧
      t.dev.shl.asks = s.dev.shl.asks ++ [.halt th] ∧ t.dev.mem = s.dev.mem))

end Sys2Proof

/-- System instructions, traps and breaks: SystemInstructions and TrapAndBreak. -/
def Obligations.SystemAndTraps : Prop :=
  Rules.SystemInstructions ∧ Rules.TrapAndBreak

/-- Where instructions trap: an illegal encoding raises exception 1; a fetch that memory or the user ranges do not allow raises 4, one
of a hole with a record in the error log, and one without a firewall grant raises it as a delayed fault, with a record; an
instruction above the thread's level raises 2; a jump to an address that is not a multiple of 4 raises 3; a load or store that is not aligned
raises 3, and one outside what the user level may reach raises 4 with detail 3 or 4 (R33, R176, R184, R187, R188, R191 to R193). -/
def Obligations.PreciseTraps : Prop :=
  ∀ c i op s, c.issued = some (i, op) → Live s → s.dev.mayRun i.th.toNat = true →
    (∀ k, s.dev.fetchFault i.th.toNat = some k → k ≠ 2 → (k = 5 → s.dev.place (s.dev.thr i.th.toNat).pc ≠ .hole) →
      Completes c s (Enters i.th.toNat 4 k 0 Thread.pc s)) ∧
    (s.dev.fetchFault i.th.toNat = some 5 → s.dev.place (s.dev.thr i.th.toNat).pc = .hole →
      Completes c s fun t => ∃ r : ErrRec, r.kind = 0x10 ∧ r.thread = some i.th.toNat ∧ r.addr = (s.dev.thr i.th.toNat).pc ∧ r.detail = 2 ∧
        Enters i.th.toNat 4 5 0 Thread.pc (Reported s r) t) ∧
    (s.dev.fetchFault i.th.toNat = some 2 →
      Completes c s fun t => ∃ r : ErrRec, r.kind = 0x11 ∧ r.thread = some i.th.toNat ∧ r.addr = (s.dev.thr i.th.toNat).pc ∧ r.detail = 2 ∧
        EntersWith 65536 i.th.toNat 4 2 (s.dev.thr i.th.toNat).pc Thread.pc (Reported s r) t) ∧
    (s.dev.fetchFault i.th.toNat = none → limLegal op = false ∨ (i.n = true ∧ i.p = 0) →
      Completes c s (Enters i.th.toNat 1 0 0 Thread.pc s)) ∧
    (Ready s i op → limLegal op = true → (i.n && i.p == 0) = false → (s.dev.thr i.th.toNat).guard i.n i.p = true →
      limPrivileged op = true → (s.dev.thr i.th.toNat).priv = false → Completes c s (Enters i.th.toNat 2 0 0 Thread.pc s)) ∧
    (Issues s i op →
      (∀ a, op = .jmpr a ∨ op = .callr a → ((s.dev.thr i.th.toNat).reg a).toNat % 4 ≠ 0 →
        Completes c s (Enters i.th.toNat 3 0 ((s.dev.thr i.th.toNat).reg a).toNat Thread.pc s)) ∧
      (∀ z sext r a imm at_, op = .load z sext r a imm ∨ op = .store z r a imm →
        at_ = ((s.dev.thr i.th.toNat).reg a + imm.signExtend 64).toNat →
        (at_ % sizeBytes z ≠ 0 → Completes c s (Enters i.th.toNat 3 0 at_ Thread.pc s)) ∧
        (∀ k, at_ % sizeBytes z = 0 → s.dev.userFault i.th.toNat at_ (sizeBytes z) = some k →
          Completes c s (Enters i.th.toNat 4 k at_ Thread.pc s))))

/-- An instruction whose guard is false is counted as issued and goes on to the next; nothing else of its thread, no other thread, no byte of
memory and no register field changes. -/
def Obligations.FalseGuardDoesNothing : Prop :=
  ∀ c i op s, c.issued = some (i, op) → Ready s i op → limLegal op = true → (i.n && i.p == 0) = false →
    (s.dev.thr i.th.toNat).guard i.n i.p = false → Completes c s fun t =>
      OnlyThread i.th.toNat s t ∧
      t.dev.thr i.th.toNat = { s.dev.thr i.th.toNat with pc := (s.dev.thr i.th.toNat).nextPc, instret := (s.dev.thr i.th.toNat).instret + 1 }

/-! Limoon: channels, packet windows and engines -/

namespace Sys2Proof

/-- What an instruction that writes predicates, registers or staging leaves of a thread: its level, its exception registers and its accesses. -/
def SameControl (x y : Thread) : Prop :=
  y.st = x.st ∧ y.priv = x.priv ∧ y.exl = x.exl ∧ y.xbase = x.xbase ∧ y.epc = x.epc ∧ y.efpc = x.efpc ∧ y.ecause = x.ecause ∧
  y.eaddr = x.eaddr ∧ y.estate = x.estate ∧ y.scratch = x.scratch ∧ y.ranges = x.ranges ∧ y.pc = x.nextPc ∧ y.instret = x.instret + 1

/-- A channel instruction: with a cause of Table 6.5 the thread takes CHANNEL and the home shoal's CH_MISUSE is set; else P holds, the thread goes
on, and no other thread, no other channel, no register field and no byte of memory changes (R157, R207). -/
def ChannelOp (c : Instr) (a : BitVec 5) (cause : Dev → Nat → Nat → Option Nat) (P : Nat → Nat → State → State → Prop) : Prop :=
  Performs c fun th s t =>
    let ch := ((s.dev.thr th).reg a).toNat % 8192
    (∀ k, cause (s.dev.counted th) th ch = some k → Enters th 6 k 0 Thread.pc s t ∧ t.dev.rd (Reg.SHL_FAULT_CH_MISUSE (ch / 512)) = 1) ∧
    (cause (s.dev.counted th) th ch = none → P th ch s t ∧ SameControl (s.dev.thr th) (t.dev.thr th) ∧
      (∀ u, u ≠ th → t.dev.thr u = s.dev.thr u) ∧ (∀ n, n ≠ ch → t.dev.chan n = s.dev.chan n) ∧ t.dev.regs = s.dev.regs ∧
      t.dev.mem = s.dev.mem)

end Sys2Proof

/-- CH.PUT stages a word for its channel; CH.SEAL sends the staged words as one message unless 16 are held; CH.TRY tells whether a message is held
and its length; CH.GET takes the first message and gives its words to consecutive registers. Success sets the predicate and ends waiting; failure
clears it, changes no register and leaves the thread waiting (R155, R156, R161). -/
def Obligations.ChannelInstructions : Prop :=
  (∀ i a b, ChannelOp (.chPut i a b) a Dev.putCause fun th ch s t =>
    (t.dev.thr th).staged = (s.dev.thr th).staged ++ [((s.dev.thr th).reg b).toNat] ∧ (t.dev.thr th).bound = some ch ∧
    (t.dev.thr th).waiting = false ∧ t.dev.chan ch = s.dev.chan ch ∧ ∀ r, (t.dev.thr th).reg r = (s.dev.thr th).reg r) ∧
  (∀ i p a, ChannelOp (.chSeal i p a) a Dev.sealCause fun th ch s t =>
    ((s.dev.chan ch).msgs.length < 16 →
      t.dev.chan ch = { s.dev.chan ch with msgs := (s.dev.chan ch).msgs ++ [(s.dev.thr th).staged] } ∧ (t.dev.thr th).staged = [] ∧
      (t.dev.thr th).pred p = true ∧ (t.dev.thr th).waiting = false) ∧
    (16 ≤ (s.dev.chan ch).msgs.length →
      t.dev.chan ch = s.dev.chan ch ∧ (t.dev.thr th).staged = (s.dev.thr th).staged ∧ (t.dev.thr th).pred p = decide (p = 0) ∧
      (t.dev.thr th).waiting = true) ∧
    ∀ r, (t.dev.thr th).reg r = (s.dev.thr th).reg r) ∧
  (∀ i p a, ChannelOp (.chTry i p a) a Dev.tryCause fun th ch s t =>
    t.dev.chan ch = s.dev.chan ch ∧ (∀ r, (t.dev.thr th).reg r = (s.dev.thr th).reg r) ∧
    (∀ m l, (s.dev.chan ch).msgs = m :: l → (t.dev.thr th).pred p = true ∧ (t.dev.thr th).chLen = m.length ∧ (t.dev.thr th).waiting = false) ∧
    ((s.dev.chan ch).msgs = [] → (t.dev.thr th).pred p = decide (p = 0) ∧ (t.dev.thr th).chLen = (s.dev.thr th).chLen ∧
      (t.dev.thr th).waiting = true)) ∧
  (∀ i p d a n, ChannelOp (.chGet i p d a n) a (fun e th ch => e.getCause th ch d.toNat n.toNat) fun th ch s t =>
    (∀ m l, (s.dev.chan ch).msgs = m :: l →
      t.dev.chan ch = { s.dev.chan ch with msgs := l } ∧ (t.dev.thr th).pred p = true ∧ (t.dev.thr th).chLen = m.length ∧
      (t.dev.thr th).waiting = false ∧
      ∀ r : BitVec 5, r ≠ 0 → (t.dev.thr th).reg r =
        if d.toNat ≤ r.toNat ∧ r.toNat < d.toNat + Min.min n.toNat m.length then BitVec.ofNat 64 (m.getD (r.toNat - d.toNat) 0)
        else (s.dev.thr th).reg r) ∧
    ((s.dev.chan ch).msgs = [] → t.dev.chan ch = s.dev.chan ch ∧ (t.dev.thr th).pred p = decide (p = 0) ∧ (t.dev.thr th).waiting = true ∧
      ∀ r, (t.dev.thr th).reg r = (s.dev.thr th).reg r))

namespace Sys2Proof

/-- A datapath instruction: with a failed check the thread takes ENGINE with its detail; else P holds and no other thread and no byte of memory
changes (R214, R219). -/
def EngineOp (c : Instr) (cause : Dev → Nat → Option Nat) (P : Nat → State → State → Prop) : Prop :=
  Performs c fun th s t =>
    (∀ k, cause (s.dev.counted th) th = some k → Enters th 7 k 0 Thread.pc s t) ∧
    (cause (s.dev.counted th) th = none → P th s t ∧ (∀ u, u ≠ th → t.dev.thr u = s.dev.thr u) ∧ t.dev.mem = s.dev.mem)

/-- PW.OPEN opens a window on the run that its handle names and gives the address of the frame's byte 0; PW.CLOSE closes a window; PW.FREE notes
the run for release at the boundary, once (R212 to R216). -/
def Rules.PacketWindows : Prop :=
  (∀ i w d a, EngineOp (.pwOpen i w d a) (fun e th => e.openCause th (bitNat w) ((e.thr th).reg a).toNat) fun th s t =>
    OnlyThread th s t ∧
    (t.dev.thr th).reg d = (if d = 0 then 0 else BitVec.ofNat 64 (0x38000000000 + ((s.dev.thr th).reg a).toNat % 2 ^ 21 * 64 + 128)) ∧
    (∀ r, r ≠ d → (t.dev.thr th).reg r = (s.dev.thr th).reg r) ∧
    Tab.get 0 (t.dev.thr th).windows (bitNat w) = ((s.dev.thr th).reg a).toNat % 2 ^ 63 + 2 ^ 63 ∧
    (∀ k, k ≠ bitNat w → Tab.get 0 (t.dev.thr th).windows k = Tab.get 0 (s.dev.thr th).windows k)) ∧
  (∀ i w, EngineOp (.pwClose i w) (fun e th => if Tab.get 0 (e.thr th).windows (bitNat w) == 0 then some 2 else none) fun th s t =>
    OnlyThread th s t ∧ Goes (s.dev.thr th) (t.dev.thr th) fun x => { x with windows := Tab.set 0 x.windows (bitNat w) 0 }) ∧
  (∀ i a, EngineOp (.pwFree i a) (fun e th => if (e.runOf th ((e.thr th).reg a).toNat).isNone then some 1 else none) fun th s t =>
    Goes (s.dev.thr th) (t.dev.thr th) id ∧
    (∃ tick, (((s.dev.thr th).reg a).toNat % 2 ^ 21, tick) ∈ t.dev.shl.freed) ∧
    (∀ f ∈ s.dev.shl.freed, f ∈ t.dev.shl.freed) ∧ t.dev.net = s.dev.net)

/-- RUN_RELEASE: at the boundary after PW.FREE, the windows of the shoal's threads on the run close, its generation advances, its handoffs and the
run itself are gone, and the runs that stay are as they were (R216). -/
def Rules.RunRelease : Prop :=
  ∀ s (sh : BitVec 4) (cell : BitVec 21), Live s → (∃ tick, (cell.toNat, tick) ∈ s.dev.shl.freed ∧ tick < s.dev.clk.tick) →
    (∃ r ∈ s.dev.net.runs, r.shoal = sh.toNat ∧ r.cell = cell.toNat) →
    Completes (.runRelease sh cell) s fun t =>
      t.dev.net.runs = s.dev.net.runs.filter (fun r => r.cell != cell.toNat) ∧
      Tab.get 0 t.dev.net.gens cell.toNat = (Tab.get 0 s.dev.net.gens cell.toNat + 1) % 256 ∧
      (∀ c, c ≠ cell.toNat → Tab.get 0 t.dev.net.gens c = Tab.get 0 s.dev.net.gens c) ∧
      (∀ h ∈ t.dev.net.handoffs, h ∈ s.dev.net.handoffs ∧ h.run.cell ≠ cell.toNat) ∧
      (∀ u, u / 64 = sh.toNat → ∀ p ∈ (t.dev.thr u).windows, p ∈ (s.dev.thr u).windows ∧ p.2 % 2 ^ 21 ≠ cell.toNat) ∧
      (∀ u, u / 64 ≠ sh.toNat → t.dev.thr u = s.dev.thr u) ∧ t.dev.mem = s.dev.mem ∧ t.dev.regs = s.dev.regs

/-- An engine command gives its token to D, advances TOKEN_NEXT modulo 2^16, counts one command more as outstanding, ends waiting, and hands the
engine the command of its 64-byte block, as P says; no byte of memory and no other thread changes (R219). -/
def EngineCommand (c : Instr) (e : EngOp) (d a b : BitVec 5) (P : Nat → Nat → Nat → List Byte → State → State → Prop) : Prop :=
  EngineOp c (fun dev th => dev.engCause th e ((dev.thr th).reg a).toNat (((dev.thr th).reg b).toNat % 8192)) fun th s t =>
    let x := s.dev.thr th
    (t.dev.thr th).reg d = (if d = 0 then 0 else BitVec.ofNat 64 x.tokenNext) ∧ (∀ r, r ≠ d → (t.dev.thr th).reg r = x.reg r) ∧
    (t.dev.thr th).tokenNext = (x.tokenNext + 1) % 65536 ∧ (t.dev.thr th).waiting = false ∧ (t.dev.thr th).pc = x.nextPc ∧
    Tab.get 0 t.dev.engOut th = Tab.get 0 s.dev.engOut th + 1 ∧ (∀ u, u ≠ th → Tab.get 0 t.dev.engOut u = Tab.get 0 s.dev.engOut u) ∧
    P th ((x.reg b).toNat % 8192) x.tokenNext (s.dev.bytes (x.reg a).toNat 64) s t

/-- The engine commands: BOOK and the three of Reef wait to be sampled, CY.SUB0 and CY.SUB1 join the queues of the shoal's two cipher engines,
PAT.SUB and MOV.SUB the queues of its pattern engine and data mover (R218, R219, R223, R228 to R231, R379). -/
def Rules.EngineCommands : Prop :=
  (∀ i d a b, EngineCommand (.book i d a b) .book d a b fun th ch token l s t =>
    Waits (.book th ch token ((s.dev.thr th).bookTid % 512) l) s t) ∧
  (∀ i d a b, EngineCommand (.reefLook i d a b) .reefLook d a b fun th ch token l s t => Waits (.reef (reefOf (.thread th ch token) 1 l)) s t) ∧
  (∀ i d a b, EngineCommand (.reefIns i d a b) .reefIns d a b fun th ch token l s t => Waits (.reef (reefOf (.thread th ch token) 2 l)) s t) ∧
  (∀ i d a b, EngineCommand (.reefDel i d a b) .reefDel d a b fun th ch token l s t => Waits (.reef (reefOf (.thread th ch token) 3 l)) s t) ∧
  (∀ i d a b, EngineCommand (.cySub0 i d a b) .cySub0 d a b fun th ch token _ s t =>
    ∃ o : Op, t.dev.ops = s.dev.ops ++ [o] ∧ o.aux = 2 * (th / 64) ∧ o.req.org = .sub th ch token ∧ o.slack = true) ∧
  (∀ i d a b, EngineCommand (.cySub1 i d a b) .cySub1 d a b fun th ch token _ s t =>
    ∃ o : Op, t.dev.ops = s.dev.ops ++ [o] ∧ o.aux = 2 * (th / 64) + 1 ∧ o.req.org = .sub th ch token ∧ o.slack = true) ∧
  (∀ i d a b, EngineCommand (.patSub i d a b) .patSub d a b fun th ch token l s t =>
    ∃ j : EngJob, t.dev.shl.scans = s.dev.shl.scans ++ [j] ∧ j.thread = th ∧ j.channel = ch ∧ j.token = token ∧
      ∀ k, k < 8 → j.words.getD k 0 = leNat (slice l (8 * k) 8)) ∧
  (∀ i d a b, EngineCommand (.movSub i d a b) .movSub d a b fun th ch token l s t =>
    ∃ j : EngJob, t.dev.shl.movers = s.dev.shl.movers ++ [j] ∧ j.thread = th ∧ j.channel = ch ∧ j.token = token ∧
      ∀ k, k < 8 → j.words.getD k 0 = leNat (slice l (8 * k) 8))

end Sys2Proof

/-- Packet windows, the release of runs, and engine commands: PacketWindows, RunRelease and EngineCommands. -/
def Obligations.WindowsAndEngines : Prop :=
  Rules.PacketWindows ∧ Rules.RunRelease ∧ Rules.EngineCommands

/-! Control space -/

namespace Sys2Proof

/-- One record joins the reports of the tick, with the time, and its kind is counted. -/
def Logs (r : ErrRec) (s t : State) : Prop :=
  t.dev.log = { s.dev.log with reports := s.dev.log.reports ++ [{ r with time := s.dev.clk.tide }] } ∧
  t.dev.rd (Reg.ERR_KIND_COUNT r.kind) = Min.min (s.dev.rd (Reg.ERR_KIND_COUNT r.kind) + 1) (2 ^ (Reg.ERR_KIND_COUNT r.kind).width - 1)

/-- A record is logged, the fields of fs may change, and nothing else does. -/
def LogsAnd (fs : List Fld) (r : ErrRec) (s t : State) : Prop :=
  Logs r s t ∧ Becomes s t { s.dev with regs := t.dev.regs, log := t.dev.log } ∧ FieldsKept (Reg.ERR_KIND_COUNT r.kind :: fs) s t

/-- The record of a control-space access. -/
def ctlRecord (ag : Agent) (kind off detail : Nat) : ErrRec :=
  { source := agentSource ag, subsrc := blockOf off, kind := kind, sev := 1, addr := off, tid := agentTid ag, thread := agentThread ag,
    detail := detail }

/-- The firewall refuses a thread an access of control space: it is logged as FW_DENIED at its internal address, the thread's access will
come back with ACCESS, detail 2, and nothing else happens. -/
def Denies (th : BitVec 10) (off : Nat) (write : Bool) (s t : State) : Prop :=
  let r : ErrRec := { source := 0x020 + th.toNat / 64, kind := 0x11, sev := 1, addr := 0x03F000000000 + off, thread := some th.toNat,
                      detail := if write then 1 else 0 }
  let x := s.dev.thr th.toNat
  Logs r s t ∧ FieldsKept [Reg.ERR_KIND_COUNT 0x11] s t ∧
  Becomes s t { s.dev with regs := t.dev.regs, log := t.dev.log, shl := { s.dev.shl with threads := t.dev.shl.threads } } ∧
  (∀ u, u ≠ th.toNat → t.dev.thr u = s.dev.thr u) ∧
  ∃ a : MemAcc, a.id = x.nextLoad ∧ a.store = write ∧ a.addr = 0x03F000000000 + off ∧ a.fault = some (4, 2) ∧
    t.dev.thr th.toNat = { x with nextLoad := x.nextLoad + 1, loads := x.loads ++ [a] }

/-- A write is discarded and logged, and nothing else happens: as WRITE_DISCARDED, or, where the firewall refuses it, as FW_DENIED. -/
def Discards (ag : Agent) (off : Nat) (s t : State) : Prop :=
  (s.dev.fwRefuses ag off = false → LogsAnd [] (ctlRecord ag 0x14 off ((off - blockBase (blockOf off)) % 0x10000)) s t) ∧
  ∀ th, ag = .thread th → s.dev.fwRefuses ag off = true → Denies th off true s t

/-- REGISTER_WRITE: the firewall first refuses a thread what its shoal has no grant for (that it comes before the tests that follow is the
model's choice, log entry 176). An access that is no aligned one of 4 or 8 bytes is logged as kind 0x12, an unmapped one as 0x13, one of a
reserved offset changes nothing, one without the right to it is discarded and logged, and none of these does more. A write of a stored register gives its fields the value at once, while what is in
force stays; a half changes only the fields within it; ones clear the RW1C bits they meet (R3, R4, R7, R8, R11, R12, R31, R63). -/
def Rules.RegisterWrites : Prop :=
  (∀ s th (off : BitVec 28) (size : BitVec 4) v, Live s → s.dev.fwRefuses (.thread th) off.toNat = true →
    Completes (.registerWrite (.thread th) off size v) s (Denies th off.toNat true s)) ∧
  (∀ s ag (off : BitVec 28) (size : BitVec 4) v, Live s → s.dev.fwRefuses ag off.toNat = false →
    ((size.toNat ≠ 4 ∧ size.toNat ≠ 8) ∨ off.toNat % size.toNat ≠ 0 →
      Completes (.registerWrite ag off size v) s (LogsAnd [] (ctlRecord ag 0x12 off.toNat size.toNat) s)) ∧
    ((size.toNat = 4 ∨ size.toNat = 8) → off.toNat % size.toNat = 0 → 0xE00000 ≤ off.toNat →
      Completes (.registerWrite ag off size v) s (LogsAnd [] (ctlRecord ag 0x13 off.toNat 1) s)) ∧
    ((size.toNat = 4 ∨ size.toNat = 8) → off.toNat % size.toNat = 0 → off.toNat < 0xB00000 → s.dev.reservedAt (off.toNat / 8 * 8) = true →
      Completes (.registerWrite ag off size v) s fun t => t = s) ∧
    ((size.toNat = 4 ∨ size.toNat = 8) → off.toNat % size.toNat = 0 → off.toNat < 0xB00000 → s.dev.reservedAt (off.toNat / 8 * 8) = false →
      s.dev.mayWrite ag (off.toNat / 8 * 8) = false → Completes (.registerWrite ag off size v) s (Discards ag (off.toNat / 8 * 8) s))) ∧
  (∀ s (v : BitVec 64), Live s →
    Completes (.registerWrite .steward 0x10020 8 v) s fun t =>
      t.dev.rd Reg.TIDE_LIMITS_SOURCE_TIMEOUT = v.toNat / 2 ^ 48 ∧ t.dev.rd Reg.TIDE_LIMITS_LOCK_COUNT = v.toNat / 2 ^ 40 % 256 ∧
      t.dev.rd Reg.TIDE_LIMITS_LOCK_THRESH = v.toNat / 2 ^ 16 % 65536 ∧ t.dev.rd Reg.TIDE_LIMITS_STEP_LIMIT = v.toNat % 65536 ∧
      Becomes s t { s.dev with regs := t.dev.regs } ∧ (∀ f, t.dev.inF f = s.dev.inF f) ∧
      FieldsKept [Reg.TIDE_LIMITS_SOURCE_TIMEOUT, Reg.TIDE_LIMITS_LOCK_COUNT, Reg.TIDE_LIMITS_LOCK_THRESH, Reg.TIDE_LIMITS_STEP_LIMIT] s t) ∧
  (∀ s (v : BitVec 64), Live s →
    Completes (.registerWrite .steward 0x10020 4 v) s fun t =>
      t.dev.rd Reg.TIDE_LIMITS_LOCK_THRESH = v.toNat / 2 ^ 16 % 65536 ∧ t.dev.rd Reg.TIDE_LIMITS_STEP_LIMIT = v.toNat % 65536 ∧
      Becomes s t { s.dev with regs := t.dev.regs } ∧ FieldsKept [Reg.TIDE_LIMITS_LOCK_THRESH, Reg.TIDE_LIMITS_STEP_LIMIT] s t) ∧
  (∀ s (v : BitVec 64), Live s → s.dev.regs.hot = [] →
    Completes (.registerWrite .steward 0x10010 8 v) s fun t =>
      (∀ f, f = Reg.TIDE_STATUS_REF10M_LOST ∨ f = Reg.TIDE_STATUS_SOURCE_LOST ∨ f = Reg.TIDE_STATUS_STEP_REFUSED →
        s.dev.rd f < 2 → t.dev.rd f = if v.toNat.testBit f.lo then 0 else s.dev.rd f) ∧
      Becomes s t { s.dev with regs := t.dev.regs } ∧
      FieldsKept [Reg.TIDE_STATUS_REF10M_LOST, Reg.TIDE_STATUS_SOURCE_LOST, Reg.TIDE_STATUS_STEP_REFUSED] s t)

/-- RC_READ: the firewall refuses a thread what its shoal has no grant for, and a user-level thread reads nothing. Reading TIDE_COUNTS gives both counts as the end of the last tick left them, and clears both; a read of its lower half clears only
the lower one (R4, R8, R31, R500). -/
def Rules.CounterReads : Prop :=
  (∀ s th (off : BitVec 28) (size : BitVec 4) b, Live s → s.dev.fwRefuses (.thread th) off.toNat = true →
    Completes (.rcRead (.thread th) none off size b) s (Denies th off.toNat false s)) ∧
  (∀ s (th : BitVec 10) (off : BitVec 28) (size : BitVec 4) b, Live s → s.dev.fwRefuses (.thread th) off.toNat = false →
    s.dev.threadPriv th.toNat = false → Completes (.rcRead (.thread th) none off size b) s fun t => t = s) ∧
  (∀ s, Live s → s.dev.regs.hot = [] → s.dev.regs.cleared = [] →
    Completes (.rcRead .steward none 0x10048 8 false) s fun t =>
      t.dev.out = s.dev.out ++
        [.readBack 0x10048 (s.prev.rd Reg.TIDE_COUNTS_PPS_IGNORED % 2 ^ 32 * 2 ^ 32 + s.prev.rd Reg.TIDE_COUNTS_STEP_REFUSED % 2 ^ 32)] ∧
      t.dev.rd Reg.TIDE_COUNTS_PPS_IGNORED = 0 ∧ t.dev.rd Reg.TIDE_COUNTS_STEP_REFUSED = 0 ∧
      Becomes s t { s.dev with regs := t.dev.regs, out := t.dev.out } ∧
      FieldsKept [Reg.TIDE_COUNTS_PPS_IGNORED, Reg.TIDE_COUNTS_STEP_REFUSED] s t) ∧
  (∀ s, Live s → s.dev.regs.hot = [] → s.dev.regs.cleared = [] →
    Completes (.rcRead .steward none 0x10048 4 false) s fun t =>
      t.dev.out = s.dev.out ++ [.readBack 0x10048 (s.prev.rd Reg.TIDE_COUNTS_STEP_REFUSED % 2 ^ 32)] ∧
      t.dev.rd Reg.TIDE_COUNTS_STEP_REFUSED = 0 ∧ Becomes s t { s.dev with regs := t.dev.regs, out := t.dev.out } ∧
      FieldsKept [Reg.TIDE_COUNTS_STEP_REFUSED] s t)

end Sys2Proof

/-- Control-space writes and counter reads: RegisterWrites and CounterReads. -/
def Obligations.ControlSpace : Prop :=
  Rules.RegisterWrites ∧ Rules.CounterReads

/-! Tide -/

namespace Sys2Proof

/-- An offset within the step limit in force, of which values below 256 ns act as 256. -/
def WithinLimit (d : Dev) (off : Int) : Prop := (off.natAbs : Int) ≤ Max.max 256 (d.inF Reg.TIDE_LIMITS_STEP_LIMIT) * 65536

/-- x limited to ±200 ppm, in units of 2^-32. -/
def Within200 (x : Int) : Int := Max.max (-858993) (Min.min 858993 x)

/-- The servo takes an offset within the limit: integ and rate by the gains, unless the frequency reference leads; the state is LOCKED when
LOCK_COUNT offsets in a row were within the lock window, or when it was, and else ACQUIRE. Registers of the servo alone follow. -/
def ServoTakes (off : Int) (s t : State) : Prop :=
  let st := s.dev.rd Reg.TIDE_STATUS_STATE
  let inside : Prop := (off.natAbs : Int) ≤ s.dev.inF Reg.TIDE_LIMITS_LOCK_THRESH * 65536
  t.dev.servo.integ = (if s.dev.inF Reg.TIDE_CONTROL_FREQ_REF = 0
    then Within200 (s.dev.servo.integ + off / 2 ^ s.dev.inF Reg.TIDE_CONTROL_KI_SHIFT) else s.dev.servo.integ) ∧
  t.dev.servo.rate = Within200 (t.dev.servo.integ + off / 2 ^ s.dev.inF Reg.TIDE_CONTROL_KP_SHIFT) ∧
  t.dev.servo.lastOffset = off ∧ t.dev.servo.timeoutFrom = s.dev.clk.tide ∧
  (inside → t.dev.servo.lockCount = (if st = 1 ∨ st = 2 then s.dev.servo.lockCount else 0) + 1) ∧ (¬ inside → t.dev.servo.lockCount = 0) ∧
  (t.dev.rd Reg.TIDE_STATUS_STATE = 2 ↔ st = 2 ∨ (inside ∧ s.dev.inF Reg.TIDE_LIMITS_LOCK_COUNT ≤ t.dev.servo.lockCount)) ∧
  (t.dev.rd Reg.TIDE_STATUS_STATE = 1 ∨ t.dev.rd Reg.TIDE_STATUS_STATE = 2)

/-- TIDE_MEAS and PPS_IN_EDGE: the selected source's measurement moves the servo; one beyond the limit steps Tide time by whole slots before
Breakwater is released, and after it is refused, counted, and leaves the servo in HOLDOVER. An edge less than half a second after the last is
ignored and counted; else its time is kept. The offset of an edge is to the nearest whole second (R46 to R50, R56). That Tide time does not
step below 0 is the model's choice (log entry 177). -/
def Rules.TideMeasurements : Prop :=
  (∀ s ag (off : BitVec 64), Live s → s.dev.mayWrite ag 0x10028 = true → s.dev.clk.stepTick = false →
    s.dev.inF Reg.TIDE_CONTROL_SOURCE = 1 →
    (WithinLimit s.dev off.toInt → Completes (.tideMeas ag off) s fun t =>
      ServoTakes off.toInt s t ∧ Becomes s t { s.dev with regs := t.dev.regs, servo := t.dev.servo } ∧
      FieldsKept [Reg.TIDE_STATUS_STATE, Reg.TIDE_RATE_INTEG, Reg.TIDE_RATE_RATE, Reg.TIDE_OFFSET_LAST_OFFSET] s t) ∧
    (¬ WithinLimit s.dev off.toInt → s.dev.inF Reg.HDL_CONTROL_BWK_RELEASE ≠ 0 → Completes (.tideMeas ag off) s fun t =>
      t.dev.rd Reg.TIDE_STATUS_STATE = 3 ∧ t.dev.rd Reg.TIDE_STATUS_STEP_REFUSED = 1 ∧
      t.dev.rd Reg.TIDE_COUNTS_STEP_REFUSED = Min.min (s.dev.rd Reg.TIDE_COUNTS_STEP_REFUSED + 1) (2 ^ 32 - 1) ∧
      t.dev.servo.rate = s.dev.servo.integ ∧ t.dev.servo.integ = s.dev.servo.integ ∧
      Becomes s t { s.dev with regs := t.dev.regs, servo := t.dev.servo }) ∧
    (¬ WithinLimit s.dev off.toInt → s.dev.inF Reg.HDL_CONTROL_BWK_RELEASE = 0 → Completes (.tideMeas ag off) s fun t =>
      ∃ x : Int, (t.dev.clk.tide : Int) = Max.max 0 (s.dev.clk.tide + 256 * x) ∧ x = off.toInt.tdiv (256 * 65536) ∧
        t.dev.clk.tick = s.dev.clk.tick ∧ t.dev.mem = s.dev.mem ∧ t.dev.log = s.dev.log)) ∧
  (∀ s (e : BitVec 80), Live s → (∀ l, s.dev.servo.ppsLast = some l → l + 500000000 * 65536 ≤ e.toNat) →
    (s.dev.inF Reg.TIDE_CONTROL_SOURCE ≠ 2 ∨ s.dev.clk.stepTick = true → Completes (.ppsInEdge e) s fun t =>
      t.dev.rd Reg.TIDE_STATUS_PPS_IN_PRESENT = 1 ∧ t.dev.rd Reg.TIDE_PPS_IN_TS_EDGE_TIME = e.toNat / 65536 ∧
      OnlyFields [Reg.TIDE_STATUS_PPS_IN_PRESENT, Reg.TIDE_PPS_IN_TS_EDGE_TIME] { s with dev := { s.dev with servo := t.dev.servo } } t ∧
      t.dev.servo = { s.dev.servo with ppsEdge := some s.dev.clk.tide, ppsLast := some e.toNat }) ∧
    (s.dev.inF Reg.TIDE_CONTROL_SOURCE = 2 → s.dev.clk.stepTick = false →
      ∀ n : Nat, (e.toNat : Int) - 500000000 * 65536 < n * (1000000000 * 65536) → (n : Int) * (1000000000 * 65536) ≤ e.toNat + 500000000 * 65536 →
        WithinLimit s.dev (n * (1000000000 * 65536) - e.toNat) → Completes (.ppsInEdge e) s fun t =>
          ServoTakes (n * (1000000000 * 65536) - e.toNat) s t ∧ t.dev.servo.ppsLast = some e.toNat ∧
          Becomes s t { s.dev with regs := t.dev.regs, servo := t.dev.servo })) ∧
  (∀ s (e : BitVec 80) l, Live s → s.dev.servo.ppsLast = some l → e.toNat < l + 500000000 * 65536 →
    Completes (.ppsInEdge e) s fun t =>
      t.dev.rd Reg.TIDE_COUNTS_PPS_IGNORED = Min.min (s.dev.rd Reg.TIDE_COUNTS_PPS_IGNORED + 1) (2 ^ 32 - 1) ∧
      t.dev.servo = { s.dev.servo with ppsEdge := some s.dev.clk.tide } ∧
      OnlyFields [Reg.TIDE_STATUS_PPS_IN_PRESENT, Reg.TIDE_COUNTS_PPS_IGNORED] { s with dev := { s.dev with servo := t.dev.servo } } t)

/-- SOURCE_TIMEOUT, REF10M_LOSS, REF10M_RETURN, PPS_OUT_EDGE and TIDE_TIME_INIT: a source silent for SOURCE_TIMEOUT ms is lost and the servo
holds over at its integral; the reference's loss and return show in TIDE_STATUS; PPS_OUT is high for WIDTH_MS from OFFSET after each whole
second while it may be driven (that it then rises in the middle of that time too is the model's choice, log entry 178); Tide time is set, rounded down to a slot, only before Breakwater is released (R48, R57, R58, R498). -/
def Rules.TidePinsAndTime : Prop :=
  (∀ s, Live s → s.dev.rd Reg.TIDE_STATUS_STATE = 1 ∨ s.dev.rd Reg.TIDE_STATUS_STATE = 2 →
    s.dev.servo.timeoutFrom + s.dev.inF Reg.TIDE_LIMITS_SOURCE_TIMEOUT * 1000000 ≤ s.dev.clk.tide →
    Completes .sourceTimeout s fun t =>
      t.dev.rd Reg.TIDE_STATUS_SOURCE_LOST = 1 ∧ t.dev.rd Reg.TIDE_STATUS_STATE = 3 ∧
      t.dev.servo = { s.dev.servo with rate := s.dev.servo.integ, lockCount := 0 } ∧
      Becomes s t { s.dev with regs := t.dev.regs, servo := t.dev.servo } ∧
      FieldsKept [Reg.TIDE_STATUS_SOURCE_LOST, Reg.TIDE_STATUS_STATE, Reg.TIDE_RATE_INTEG, Reg.TIDE_RATE_RATE, Reg.TIDE_OFFSET_LAST_OFFSET,
        Reg.HST_MGMT_CAUSE, Reg.HST_MGMT_PENDING_EVENTS] s t) ∧
  (∀ s, Live s → Completes .ref10mLoss s fun t =>
    t.dev.rd Reg.TIDE_STATUS_REF10M_LOST = 1 ∧ t.dev.rd Reg.TIDE_STATUS_REF10M_PRESENT = 0 ∧
    OnlyFields [Reg.TIDE_STATUS_REF10M_LOST, Reg.TIDE_STATUS_REF10M_PRESENT] s t) ∧
  (∀ s, Live s → Completes .ref10mReturn s fun t =>
    t.dev.rd Reg.TIDE_STATUS_REF10M_PRESENT = 1 ∧ OnlyFields [Reg.TIDE_STATUS_REF10M_PRESENT] s t) ∧
  (∀ s, Live s → Completes .ppsOutEdge s fun t =>
    t = { s with dev := { s.dev with servo := { s.dev.servo with ppsOut := t.dev.servo.ppsOut } } } ∧
    (t.dev.servo.ppsOut = true ↔
      s.dev.inF Reg.TIDE_PPS_OUT_ENABLE ≠ 0 ∧
      (s.dev.rd Reg.TIDE_STATUS_STATE = 2 ∨ (s.dev.rd Reg.TIDE_STATUS_STATE = 3 ∧ s.dev.inF Reg.TIDE_PPS_OUT_SQUELCH_HOLDOVER = 0)) ∧
      ((s.dev.clk.tide : Int) - sgn 32 (s.dev.inF Reg.TIDE_PPS_OUT_OFFSET)) % 1000000000 <
        (if 1 ≤ s.dev.inF Reg.TIDE_PPS_OUT_WIDTH_MS ∧ s.dev.inF Reg.TIDE_PPS_OUT_WIDTH_MS ≤ 999 then s.dev.inF Reg.TIDE_PPS_OUT_WIDTH_MS
         else 100) * 1000000)) ∧
  (∀ s ag (v : BitVec 64), Live s → s.dev.mayWrite ag 0x10060 = true → Completes (.tideTimeInit ag v) s fun t =>
    t.dev.rd Reg.TIDE_TIME_INIT_INIT = v.toNat ∧
    t.dev.clk.load = (if s.dev.inF Reg.HDL_CONTROL_BWK_RELEASE = 0 then some (v.toNat - v.toNat % 256) else s.dev.clk.load) ∧
    OnlyFields [Reg.TIDE_TIME_INIT_INIT] { s with dev := { s.dev with clk := { s.dev.clk with load := t.dev.clk.load } } } t)

end Sys2Proof

/-- Measurements, pins and the setting of Tide time: TideMeasurements and TidePinsAndTime. -/
def Obligations.Tide : Prop :=
  Rules.TideMeasurements ∧ Rules.TidePinsAndTime

namespace Sys2Proof

/-- TIDE_FORCE_STEP, FORCED_STEP_HOLD and FORCED_STEP_APPLY: the steward's GO waits for the next epoch boundary, at which ADMIT_HOLD sets and
whose time is kept; at the one after, the step tick begins, with the amount, or the last offset in ns, rounded toward zero to whole slots. Another agent's write is
discarded and logged, and so is the steward's GO during the hold (R51, R52, R55). -/
def Rules.ForcedStep : Prop :=
  (∀ s ag go src (n : BitVec 62), Live s → ag ≠ .steward → Completes (.tideForceStep ag go src n) s (Discards ag 0x10040 s)) ∧
  (∀ s src (n : BitVec 62), Live s → s.dev.rd Reg.TIDE_STATUS_ADMIT_HOLD ≠ 0 ∨ s.dev.clk.stepTick = true →
    Completes (.tideForceStep .steward true src n) s (Discards .steward 0x10040 s)) ∧
  (∀ s src (n : BitVec 62), Live s → Completes (.tideForceStep .steward false src n) s fun t => t = s) ∧
  (∀ s src (n : BitVec 62), Live s → s.dev.rd Reg.TIDE_STATUS_ADMIT_HOLD = 0 → s.dev.clk.stepTick = false →
    Completes (.tideForceStep .steward true src n) s fun t =>
      t.dev.rd Reg.TIDE_STATUS_STEP_PENDING = 1 ∧ .stepHold ∈ t.dev.clk.reqEpoch ∧
      t.dev.servo = { s.dev.servo with phase := .requested, stepUseSource := src, stepAmount := n.toInt } ∧
      Becomes s t { s.dev with regs := t.dev.regs, servo := t.dev.servo, clk := { s.dev.clk with reqEpoch := t.dev.clk.reqEpoch } } ∧
      FieldsKept [Reg.TIDE_STATUS_STEP_PENDING] s t) ∧
  (∀ s, Live s → .stepHold ∈ s.dev.clk.due → s.dev.servo.phase = .requested → Completes .forcedStepHold s fun t =>
    t.dev.rd Reg.TIDE_STATUS_ADMIT_HOLD = 1 ∧ .stepApply ∈ t.dev.clk.reqEpoch ∧ .stepHold ∉ t.dev.clk.due ∧
    t.dev.servo = { s.dev.servo with phase := .holding, holdFrom := s.dev.clk.tide } ∧
    Becomes s t { s.dev with regs := t.dev.regs, servo := t.dev.servo, clk := t.dev.clk } ∧ FieldsKept [Reg.TIDE_STATUS_ADMIT_HOLD] s t) ∧
  (∀ s, Live s → .stepApply ∈ s.dev.clk.due → s.dev.servo.phase = .holding → Completes .forcedStepApply s fun t =>
    t.dev.clk.stepTick = true ∧
    t.dev.clk.stepAdd = (if s.dev.servo.stepUseSource then s.prev.servo.lastOffset / 65536 else s.dev.servo.stepAmount).tdiv 256 * 256 ∧
    t.dev.clk.tide = s.dev.clk.tide ∧ t.dev.rd Reg.TIDE_STATUS_ADMIT_HOLD = 0 ∧ t.dev.rd Reg.TIDE_STATUS_STEP_PENDING = 0 ∧
    t.dev.rd Reg.TIDE_STATUS_STATE = (if s.dev.inF Reg.TIDE_CONTROL_SOURCE = 0 then 0 else 1) ∧ t.dev.servo.phase = .idle ∧
    Becomes s t { s.dev with regs := t.dev.regs, servo := t.dev.servo, clk := t.dev.clk })

/-- SLOT_BOUNDARY and EPOCH_BOUNDARY, where one is due: it is no longer due, what was asked for it is due in its tick, Tide time and the tick
stand, and no general register of a thread changes; an epoch is counted (R11, R13, R101). -/
def Rules.Boundaries : Prop :=
  (∀ s, Live s → s.dev.clk.slotDue = true → Completes .slotBoundary s fun t =>
    t.dev.clk.slotDue = false ∧ t.dev.clk.tide = s.dev.clk.tide ∧ t.dev.clk.tick = s.dev.clk.tick ∧ t.dev.clk.epochs = s.dev.clk.epochs ∧
    t.dev.clk.reqSlot = [] ∧ (∀ x ∈ s.dev.clk.reqSlot, x ∈ t.dev.clk.due) ∧ (∀ x ∈ s.dev.clk.due, x ∈ t.dev.clk.due) ∧
    (∀ th r, (t.dev.thr th).reg r = (s.dev.thr th).reg r)) ∧
  (∀ s, Live s → s.dev.clk.epochDue = true → Completes .epochBoundary s fun t =>
    t.dev.clk.epochDue = false ∧ t.dev.clk.epochs = s.dev.clk.epochs + 1 ∧ t.dev.clk.tide = s.dev.clk.tide ∧
    t.dev.clk.tick = s.dev.clk.tick ∧ t.dev.clk.reqEpoch = [] ∧ (∀ x ∈ s.dev.clk.reqEpoch, x ∈ t.dev.clk.due) ∧
    (∀ x ∈ s.dev.clk.due, x ∈ t.dev.clk.due) ∧ (∀ th r, (t.dev.thr th).reg r = (s.dev.thr th).reg r))

end Sys2Proof

/-- Forced steps, and the slot and epoch boundaries: ForcedStep and Boundaries. -/
def Obligations.StepsAndBoundaries : Prop :=
  Rules.ForcedStep ∧ Rules.Boundaries

/-! Strand, fuses and the start -/

namespace Sys2Proof

/-- A strand word takes writes: the power-fail engine does not run, and the word is not worn. -/
def Writable (d : Dev) (w : Nat) : Prop := d.boot.pfTodo = [] ∧ Tab.get 0 d.boot.wear w < 100000000

/-- Word w reads as v, every other word reads as before, and what is persistent is untouched. -/
def StrandTakes (w v : Nat) (s t : State) : Prop :=
  t.dev.strandRead w = v ∧ (∀ u, u ≠ w → t.dev.strandRead u = s.dev.strandRead u) ∧ t.dev.boot.strand = s.dev.boot.strand ∧
  t.dev.boot.wear = s.dev.boot.wear

/-- STRAND_WRITE and STRAND_WRITE_PERSIST: a write that its agent may make reads back at once and is accepted in its tick, or in the one after
that of the write before it; it becomes persistent later, once accepted, in order, when words read as before, WEAR counts a changed value and a
thread's store is performed; at the end of a tick no write is left that was accepted 25 ticks ago. A write that the firewall refuses is denied; one
outside the agent's region is counted and logged, one to a worn word or during a power failure is counted (R8, R31, R451 to R455). -/
def Rules.Strand : Prop :=
  (∀ s ag (w : BitVec 12) (v : BitVec 64), Live s → s.dev.strandRegion ag w.toNat = true → Writable s.dev w.toNat →
    Completes (.strandWrite ag w 2 v) s fun t =>
      StrandTakes w.toNat v.toNat s t ∧
      ∃ q : StrandWrite, q.word = w.toNat ∧ q.value = v.toNat ∧
        Becomes s t { s.dev with boot := { s.dev.boot with strandQ := s.dev.boot.strandQ ++ [q] } } ∧
        (s.dev.boot.strandQ = [] → q.at_ = s.dev.clk.tick) ∧
        ∀ p l, s.dev.boot.strandQ = l ++ [p] → q.at_ = Max.max s.dev.clk.tick (p.at_ + 1)) ∧
  (∀ s ag (w : BitVec 12) (v : BitVec 64), Live s → s.dev.strandRegion ag w.toNat = true → Writable s.dev w.toNat →
    s.dev.strandRead w.toNat < 2 ^ 64 →
    (Completes (.strandWrite ag w 0 v) s fun t =>
      StrandTakes w.toNat (s.dev.strandRead w.toNat / 2 ^ 32 * 2 ^ 32 + v.toNat % 2 ^ 32) s t) ∧
    (Completes (.strandWrite ag w 1 v) s fun t =>
      StrandTakes w.toNat (v.toNat % 2 ^ 32 * 2 ^ 32 + s.dev.strandRead w.toNat % 2 ^ 32) s t)) ∧
  (∀ s th (w : BitVec 12) h v, Live s → s.dev.fwRefuses (.thread th) (0xB00000 + 8 * w.toNat) = true →
    Completes (.strandWrite (.thread th) w h v) s (Denies th (0xB00000 + 8 * w.toNat) true s)) ∧
  (∀ s ag (w : BitVec 12) h v, Live s → s.dev.fwRefuses ag (0xB00000 + 8 * w.toNat) = false → s.dev.strandRegion ag w.toNat = false → Completes (.strandWrite ag w h v) s fun t =>
    t.dev.rd Reg.HDL_STRAND_DISCARDED =
      Min.min (s.dev.rd Reg.HDL_STRAND_DISCARDED + 1) (2 ^ Reg.HDL_STRAND_DISCARDED.width - 1) ∧
    LogsAnd [Reg.HDL_STRAND_DISCARDED]
      { source := 0x050, kind := 0x34, sev := 1, addr := 0xB00000 + 8 * w.toNat, thread := agentThread ag, detail := w.toNat } s t) ∧
  (∀ s ag (w : BitVec 12) h v, Live s → s.dev.strandRegion ag w.toNat = true →
    s.dev.boot.pfTodo ≠ [] ∨ 100000000 ≤ Tab.get 0 s.dev.boot.wear w.toNat → Completes (.strandWrite ag w h v) s fun t =>
    t.dev.rd Reg.HDL_STRAND_DISCARDED =
      Min.min (s.dev.rd Reg.HDL_STRAND_DISCARDED + 1) (2 ^ Reg.HDL_STRAND_DISCARDED.width - 1) ∧
    OnlyFields [Reg.HDL_STRAND_DISCARDED] s t) ∧
  (∀ s, Live s → s.dev.boot.strandQ = [] → Completes .strandWritePersist s fun t => t = s) ∧
  (∀ s q l, Live s → s.dev.boot.strandQ = q :: l → s.dev.clk.tick < q.at_ → Completes .strandWritePersist s fun t => t = s) ∧
  (∀ s q l, Live s → s.dev.boot.strandQ = q :: l → q.at_ ≤ s.dev.clk.tick → Tab.get 0 s.dev.boot.wear q.word < 100000000 →
    Completes .strandWritePersist s fun t =>
      t.dev.boot.strandQ = l ∧ Tab.get 0 t.dev.boot.strand q.word = q.value ∧ (∀ w, t.dev.strandRead w = s.dev.strandRead w) ∧
      (∀ w, w ≠ q.word → Tab.get 0 t.dev.boot.strand w = Tab.get 0 s.dev.boot.strand w ∧
        Tab.get 0 t.dev.boot.wear w = Tab.get 0 s.dev.boot.wear w) ∧
      Tab.get 0 t.dev.boot.wear q.word =
        Tab.get 0 s.dev.boot.wear q.word + (if Tab.get 0 s.dev.boot.strand q.word = q.value then 0 else 1) ∧
      (q.by_ = none → t.dev.shl = s.dev.shl) ∧
      (∀ th id, q.by_ = some (th, id) → (∀ u, u ≠ th → t.dev.thr u = s.dev.thr u) ∧
        (t.dev.thr th).loads.map (·.back) = (s.dev.thr th).loads.map (fun (a : MemAcc) => if a.id = id then some 0 else a.back)) ∧
      Becomes s t { s.dev with regs := t.dev.regs, log := t.dev.log, boot := t.dev.boot, shl := { s.dev.shl with threads := t.dev.shl.threads } }) ∧
  ∀ (d : Dev) q l, d.strandAge.boot.strandQ = q :: l → d.clk.tick < q.at_ + 25

/-- PF_ACK, HOLDUP_WARN_N_FALL and HOLDUP_WARN_ARMED: the acknowledgement clears REASON and PF_SUMMARY_VALID; an armed fall starts the summary,
whose first word holds REASON 1, the next GEN and the short time; a fall that is not armed is noted, and arming forgets it (R455, R456, R458,
R473). -/
def Rules.PowerFail : Prop :=
  (∀ s ag, Live s → ag ≠ .steward → Completes (.pfAck ag) s (Discards ag 0xA00038 s)) ∧
  (∀ s, Live s → Writable s.dev 0x010 → Completes (.pfAck .steward) s fun t =>
    StrandTakes 0x010 (s.dev.strandRead 0x010 % 2 ^ 56) s t ∧ t.dev.rd Reg.HDL_STATUS_PF_SUMMARY_VALID = 0 ∧
    Becomes s t { s.dev with regs := t.dev.regs, boot := { s.dev.boot with strandQ := t.dev.boot.strandQ } } ∧
    FieldsKept [Reg.HDL_STATUS_PF_SUMMARY_VALID] s t) ∧
  (∀ s, Live s → s.dev.boot.holdArmed = true → Completes .holdupWarnNFall s fun t =>
    let gen := (s.dev.strandRead 0x010 / 2 ^ 40 % 65536 + 1) % 65536
    t.dev.rd Reg.HDL_STATUS_HOLDUP_STOP = 1 ∧
    t.dev.boot.pfTodo.head? = some (0x010, 1 * 2 ^ 56 + gen * 2 ^ 40 + s.dev.clk.tide % 2 ^ 32) ∧
    (∃ n, t.dev.boot.pfTodo.getLast? = some (0x01F, gen * 2 ^ 40 + n)) ∧
    (∃ r, t.dev.log.reports = s.dev.log.reports ++ [r] ∧ r.kind = 0x35 ∧ r.source = 0x050) ∧
    Becomes s t { s.dev with regs := t.dev.regs, log := t.dev.log, boot := { s.dev.boot with pfTodo := t.dev.boot.pfTodo } }) ∧
  (∀ s, Live s → s.dev.boot.holdArmed = false → Completes .holdupWarnNFall s fun t =>
    Becomes s t { s.dev with boot := { s.dev.boot with holdLow := true } }) ∧
  (∀ s, Live s → Completes .holdupWarnArmed s fun t =>
    Becomes s t { s.dev with boot := { s.dev.boot with holdArmed := true, holdLow := false } })

end Sys2Proof

/-- Strand words and power failure: Strand and PowerFail. -/
def Obligations.StrandAndPowerFail : Prop :=
  Rules.Strand ∧ Rules.PowerFail

namespace Sys2Proof

/-- The steward starts a fuse commit whose target is n, if the start is confirmed and the condition holds; else RESULT says why not. -/
def FuseCommits (c : Agent → Instr) (which : Nat) (n : Dev → Nat) (ok : Dev → Prop) (code : Nat) : Prop :=
  (∀ s ag, Live s → ag ≠ .steward → Completes (c ag) s (Discards ag 0xA00028 s)) ∧
  (∀ s j, Live s → s.dev.boot.fuseJob = some j → Completes (c .steward) s fun t => t = s) ∧
  (∀ s, Live s → s.dev.boot.fuseJob = none → Completes (c .steward) s fun t =>
    t.dev.rd Reg.HDL_FUSE_CTL_WHICH = which ∧
    (s.dev.rd Reg.HDL_STATUS_BOOT_CONFIRMED = 0 → t.dev.boot = s.dev.boot ∧ t.dev.rd Reg.HDL_FUSE_CTL_RESULT = 1) ∧
    (s.dev.rd Reg.HDL_STATUS_BOOT_CONFIRMED ≠ 0 → ¬ ok s.dev → t.dev.boot = s.dev.boot ∧ t.dev.rd Reg.HDL_FUSE_CTL_RESULT = code) ∧
    (s.dev.rd Reg.HDL_STATUS_BOOT_CONFIRMED ≠ 0 → ok s.dev →
      t.dev.boot = { s.dev.boot with fuseJob := some (which, n s.dev) } ∧ t.dev.rd Reg.HDL_FUSE_CTL_BUSY = 1) ∧
    Becomes s t { s.dev with regs := t.dev.regs, boot := t.dev.boot } ∧
    FieldsKept [Reg.HDL_FUSE_CTL_WHICH, Reg.HDL_FUSE_CTL_KEY_SET, Reg.HDL_FUSE_CTL_RESULT, Reg.HDL_FUSE_CTL_BUSY] s t)

/-- The fuse commits: WHICH 0 and 1 advance a counter to the running image's SVN, if that is greater; WHICH 2 revokes a key set older than the
running one; the blow's end gives RESULT, clears BUSY and is logged with the new counter, or with 0x8000 and the set (R447, R448). -/
def Rules.Fuses : Prop :=
  FuseCommits .fuseCommitHdl 0 (fun d => d.rd Reg.HDL_IMAGE_HDL_SVN) (fun d => d.boot.hdlCount < d.rd Reg.HDL_IMAGE_HDL_SVN) 2 ∧
  FuseCommits .fuseCommitShl 1 (fun d => d.rd Reg.HDL_IMAGE_SHL_SVN) (fun d => d.boot.shlCount < d.rd Reg.HDL_IMAGE_SHL_SVN) 2 ∧
  (∀ k : BitVec 2, FuseCommits (.fuseCommitRevoke · k) 2 (fun _ => k.toNat) (fun d => k.toNat < d.rd Reg.HDL_IMAGE_KEY_SET) 3) ∧
  (∀ s which n failed, Live s → s.dev.boot.fuseJob = some (which, n) → Completes (.fuseCommitDone failed) s fun t =>
    t.dev.rd Reg.HDL_FUSE_CTL_BUSY = 0 ∧ t.dev.rd Reg.HDL_FUSE_CTL_RESULT = (if failed then 4 else 0) ∧ t.dev.boot.fuseJob = none ∧
    (which = 0 → if failed then s.dev.boot.hdlCount ≤ t.dev.boot.hdlCount ∧ t.dev.boot.hdlCount ≤ Max.max s.dev.boot.hdlCount (n - 1)
      else t.dev.boot.hdlCount = n) ∧
    (which = 1 → if failed then s.dev.boot.shlCount ≤ t.dev.boot.shlCount ∧ t.dev.boot.shlCount ≤ Max.max s.dev.boot.shlCount (n - 1)
      else t.dev.boot.shlCount = n) ∧
    (which = 2 → ∀ k, t.dev.boot.revoked.testBit k = (s.dev.boot.revoked.testBit k || (k == n && !failed))) ∧
    (∃ r, t.dev.log.reports = s.dev.log.reports ++ [r] ∧ r.kind = 0x32 ∧
      r.detail = if which = 2 then 0x8000 + n else if which = 1 then t.dev.boot.shlCount else t.dev.boot.hdlCount) ∧
    Becomes s t { s.dev with regs := t.dev.regs, log := t.dev.log, boot := t.dev.boot, free := t.dev.free })

/-- A bundle runs from a slot: what HDL_IMAGE and HDL_STATUS show of it, and CONFIGURE is next. -/
def Boots (slot : Nat) (b : List Byte) (fallback : Nat) (s t : State) : Prop :=
  t.dev.boot = { s.dev.boot with running := b } ∧ t.dev.rd Reg.HDL_STATUS_STAGE = 6 ∧ t.dev.rd Reg.HDL_STATUS_ACTIVE_SLOT = slot ∧
  t.dev.rd Reg.HDL_STATUS_FALLBACK = fallback ∧ t.dev.rd Reg.HDL_IMAGE_HDL_SVN = leAt b 12 2 % 512 ∧ t.dev.rd Reg.HDL_IMAGE_SHL_SVN = leAt b 14 2 % 512 ∧
  t.dev.rd Reg.HDL_STATUS_WAIT_STEWARD = leAt b 17 1 / 2 % 2

/-- BOOT_SELECT: with no slot that holds a bundle the start goes to RECOVERY; else the slot with the higher SEQ is tried first, and boots if it
has been tried fewer than three times, can be read and verifies; if it does not verify its cause is recorded and the other slot boots as a
fallback (R441). -/
def Rules.BootChoice : Prop :=
  (∀ s (e : BitVec 2), Live s → s.dev.rd Reg.HDL_STATUS_STAGE = 3 → s.dev.boot.bootSrc = false →
    (∀ w, w < 2 → Tab.get 0 s.dev.boot.strand w < 256) → Completes (.bootSelect e) s fun t =>
      t.dev.rd Reg.HDL_STATUS_STAGE = 0x0E ∧ OnlyFields [Reg.HDL_STATUS_STAGE] s t) ∧
  (∀ s (e : BitVec 2) a, Live s → s.dev.rd Reg.HDL_STATUS_STAGE = 3 → s.dev.boot.bootSrc = false → a < 2 →
    256 ≤ Tab.get 0 s.dev.boot.strand a → Tab.get 0 s.dev.boot.strand (1 - a) / 256 < Tab.get 0 s.dev.boot.strand a / 256 + (1 - a) →
    Tab.get 0 s.dev.boot.strand a % 256 < 3 → e.toNat.testBit a = false →
    (s.dev.verifyBundle (s.dev.flashSlot a) = none → Completes (.bootSelect e) s fun t =>
      Boots a (s.dev.flashSlot a) 0 s t ∧ t.dev.rd Reg.HDL_BOOT_TRIES = Tab.get 0 s.dev.boot.strand a % 256 ∧
      Becomes s t { s.dev with regs := t.dev.regs, boot := t.dev.boot }) ∧
    (∀ c, s.dev.verifyBundle (s.dev.flashSlot a) = some c → 256 ≤ Tab.get 0 s.dev.boot.strand (1 - a) → e.toNat.testBit (1 - a) = false →
      s.dev.verifyBundle (s.dev.flashSlot (1 - a)) = none → Completes (.bootSelect e) s fun t =>
        Boots (1 - a) (s.dev.flashSlot (1 - a)) 1 s t ∧ t.dev.rd Reg.HDL_STATUS_FAIL_SLOT = a ∧
        (∃ r, t.dev.log.reports = s.dev.log.reports ++ [r] ∧ r.kind = 0x30 ∧ r.detail = a * 256 + c) ∧
        Becomes s t { s.dev with regs := t.dev.regs, log := t.dev.log, boot := t.dev.boot }))

/-- The transfers of HDL_XFER_CTL by the steward while it is not busy: RESULT 1 in a wrong stage, 4 for a length outside 64 bytes to 64 MiB;
XFER_HOST_BOOT boots a bundle that verifies with RESULT 0, records the cause of one that does not with 2, and gives 3 without one; the other
two queue an update of the bundle in memory and set BUSY. UPDATE_DONE ends the first update: RESULT 2 for a bundle that does not verify, 5 for
a slot that did not read back, else 0 with the bundle in the inactive slot (R440, R442, R449). -/
def Rules.Transfers : Prop :=
  (∀ s ag (n : BitVec 28) b, Live s → ag ≠ .steward →
    Completes (.xferHostBoot ag n b) s (Discards ag 0xA00048 s) ∧ Completes (.xferWriteSlot ag n) s (Discards ag 0xA00048 s) ∧
    Completes (.xferWriteAndMark ag n) s (Discards ag 0xA00048 s)) ∧
  (∀ s (n : BitVec 28) b, Live s → s.dev.rd Reg.HDL_XFER_CTL_BUSY = 0 →
    let st := s.dev.rd Reg.HDL_STATUS_STAGE
    let okStage := (st = 3 ∧ s.dev.boot.bootSrc = true) ∨ st = 0x0E
    let okLen := 64 ≤ n.toNat ∧ n.toNat ≤ 67108864
    (¬ okStage → Completes (.xferHostBoot .steward n b) s fun t => t.dev.rd Reg.HDL_XFER_CTL_RESULT = 1 ∧ t.dev.boot = s.dev.boot) ∧
    (okStage → ¬ okLen → Completes (.xferHostBoot .steward n b) s fun t => t.dev.rd Reg.HDL_XFER_CTL_RESULT = 4 ∧ t.dev.boot = s.dev.boot) ∧
    (okStage → okLen → b = none ∨ s.dev.mayIssue 0 = false → Completes (.xferHostBoot .steward n b) s fun t =>
      t.dev.rd Reg.HDL_XFER_CTL_RESULT = 3 ∧
      OnlyFields [Reg.HDL_XFER_CTL_OP, Reg.HDL_XFER_CTL_LENGTH, Reg.HDL_XFER_CTL_RESULT] s t) ∧
    (∀ l c, okStage → okLen → s.dev.mayIssue 0 = true → b = some l → s.dev.verifyBundle (l.take n.toNat) = some c → Completes (.xferHostBoot .steward n b) s fun t =>
      t.dev.rd Reg.HDL_XFER_CTL_RESULT = 2 ∧ t.dev.rd Reg.HDL_STATUS_FAIL_SLOT = 2 ∧ t.dev.boot = s.dev.boot ∧
      ∃ r, t.dev.log.reports = s.dev.log.reports ++ [r] ∧ r.kind = 0x30 ∧ r.detail = 2 * 256 + c) ∧
    (∀ l, okStage → okLen → s.dev.mayIssue 0 = true → b = some l → s.dev.verifyBundle (l.take n.toNat) = none → Completes (.xferHostBoot .steward n b) s fun t =>
      t.dev.rd Reg.HDL_XFER_CTL_RESULT = 0 ∧ Boots 2 (l.take n.toNat) 0 s t ∧
      Becomes s t { s.dev with regs := t.dev.regs, boot := t.dev.boot })) ∧
  (∀ s (n : BitVec 28), Live s → s.dev.rd Reg.HDL_XFER_CTL_BUSY = 0 →
    (s.dev.rd Reg.HDL_STATUS_STAGE = 0x0E ∨ s.dev.rd Reg.HDL_STATUS_STAGE = 8) → 64 ≤ n.toNat → n.toNat ≤ 67108864 →
    ∀ c mark, (c = .xferWriteSlot .steward n ∧ mark = false) ∨ (c = .xferWriteAndMark .steward n ∧ mark = true) → Completes c s fun t =>
      t.dev.boot = { s.dev.boot with updates := s.dev.boot.updates ++ [⟨.xfer, s.dev.bytes (s.dev.inF Reg.HDL_XFER_ADDR) n.toNat, mark⟩] } ∧
      t.dev.rd Reg.HDL_XFER_CTL_BUSY = 1 ∧ Becomes s t { s.dev with regs := t.dev.regs, boot := t.dev.boot } ∧
      FieldsKept [Reg.HDL_XFER_CTL_OP, Reg.HDL_XFER_CTL_LENGTH, Reg.HDL_XFER_CTL_BUSY] s t) ∧
  (∀ s u l ok, Live s → s.dev.boot.updates = u :: l → u.src = .xfer → Completes (.updateDone ok) s fun t =>
    t.dev.boot.updates = l ∧ t.dev.rd Reg.HDL_XFER_CTL_BUSY = 0 ∧
    t.dev.rd Reg.HDL_XFER_CTL_RESULT =
      (if s.dev.verifyBundle u.bundle = none then if ok then 0 else 5 else 2) ∧
    (s.dev.verifyBundle u.bundle = none →
      (s.dev.inactiveSlot = 0 → t.dev.boot.flashA = u.bundle ∧ t.dev.boot.flashB = s.dev.boot.flashB) ∧
      (s.dev.inactiveSlot = 1 → t.dev.boot.flashB = u.bundle ∧ t.dev.boot.flashA = s.dev.boot.flashA) ∧
      (Writable s.dev s.dev.inactiveSlot → ok = true → u.mark = true →
        t.dev.strandRead s.dev.inactiveSlot =
          ((Max.max (s.dev.strandRead 0 / 256) (s.dev.strandRead 1 / 256) + 1) * 256) % 2 ^ 64)) ∧
    (s.dev.verifyBundle u.bundle ≠ none → t.dev.boot = { s.dev.boot with updates := l }) ∧
    Becomes s t { s.dev with regs := t.dev.regs, log := t.dev.log, boot := t.dev.boot })

end Sys2Proof

/-- Fuses, the choice of an image, and transfers: Fuses, BootChoice and Transfers. -/
def Obligations.FusesAndImages : Prop :=
  Rules.Fuses ∧ Rules.BootChoice ∧ Rules.Transfers

/-- CONFIGURE happens once, at its stage. KEY_LOCK is Headland's, and moves the stage to LOCKED; CONFIRM, RELEASE_GO, SHOAL_REQ and ZEROISE are
the steward's; Headland releases Breakwater once keys are locked, memory is trained and both units have been tested. Other agents' writes are
discarded and logged (R436, R443 to R446, R450). -/
def Obligations.StartAndRelease : Prop :=
  (∀ s, Live s → s.dev.rd Reg.HDL_STATUS_STAGE = 6 → s.dev.boot.identityKey = false → Completes .configure s fun t =>
    t.dev.boot.identityKey = true ∧ t.dev.rd Reg.HDL_STATUS_APPROVED = leAt s.dev.boot.running 17 1 % 2) ∧
  (∀ s, Live s → s.dev.rd Reg.HDL_STATUS_STAGE ≠ 6 ∨ s.dev.boot.identityKey = true → Completes .configure s fun t => t = s) ∧
  (∀ s, Live s → Completes (.keyLock .headland) s fun t =>
    t.dev.rd Reg.HDL_CONTROL_KEY_LOCK = 1 ∧ t.dev.inF Reg.HDL_CONTROL_KEY_LOCK = s.dev.inF Reg.HDL_CONTROL_KEY_LOCK ∧
    t.dev.rd Reg.HDL_STATUS_STAGE = (if s.dev.rd Reg.HDL_STATUS_STAGE = 6 then 7 else s.dev.rd Reg.HDL_STATUS_STAGE) ∧
    OnlyFields [Reg.HDL_CONTROL_KEY_LOCK, Reg.HDL_STATUS_STAGE] s t) ∧
  (∀ s ag, Live s → ag ≠ .headland →
    Completes (.keyLock ag) s (Discards ag 0xA00008 s) ∧ Completes (.bwkRelease ag) s (Discards ag 0xA00008 s)) ∧
  (∀ s ag sh, Live s → ag ≠ .steward →
    Completes (.confirm ag) s (Discards ag 0xA00038 s) ∧ Completes (.releaseGo ag) s (Discards ag 0xA00038 s) ∧
    Completes (.shoalReq ag sh) s (Discards ag 0xA00010 s) ∧ Completes (.zeroise ag) s (Discards ag 0xA00008 s)) ∧
  (∀ s, Live s → Completes (.releaseGo .steward) s fun t => Becomes s t { s.dev with boot := { s.dev.boot with releaseGo := true } }) ∧
  (∀ s, Live s → (∀ a, a < 2 → Writable s.dev a) → Completes (.confirm .steward) s fun t =>
    t.dev.rd Reg.HDL_STATUS_BOOT_CONFIRMED = 1 ∧
    (∀ a, a < 2 → s.dev.rd Reg.HDL_STATUS_ACTIVE_SLOT = a →
      StrandTakes a (s.dev.strandRead a / 256 * 256 % 2 ^ 64) s t ∧ t.dev.rd Reg.HDL_BOOT_TRIES = 0) ∧
    (2 ≤ s.dev.rd Reg.HDL_STATUS_ACTIVE_SLOT → OnlyFields [Reg.HDL_STATUS_BOOT_CONFIRMED] s t)) ∧
  (∀ s, Live s → s.dev.inF Reg.HDL_CONTROL_KEY_LOCK ≠ 0 → s.dev.rd Reg.MEM_TRAIN_DONE ≠ 0 → s.dev.boot.bistA.isSome = true →
    s.dev.boot.bistB.isSome = true → s.dev.rd Reg.HDL_CONTROL_BWK_RELEASE = 0 →
    s.dev.rd Reg.HDL_STATUS_WAIT_STEWARD = 0 ∨ s.dev.boot.releaseGo = true → Completes (.bwkRelease .headland) s fun t =>
      t.dev.rd Reg.HDL_CONTROL_BWK_RELEASE = 1 ∧ t.dev.inF Reg.HDL_CONTROL_BWK_RELEASE = s.dev.inF Reg.HDL_CONTROL_BWK_RELEASE ∧
      t.dev.shl = { s.dev.shl with asks := s.dev.shl.asks ++ [.bwk] } ∧
      (∀ a, a < 2 → s.dev.rd Reg.HDL_STATUS_ACTIVE_SLOT = a →
        t.dev.rd Reg.HDL_BOOT_TRIES = Min.min 255 (s.dev.strandRead a % 256 + 1))) ∧
  (∀ s (sh : BitVec 4), Live s → s.dev.rd (Reg.SHL_STATUS_IN_RESET sh.toNat) ≠ 0 → s.dev.shoalUnfit sh.toNat = true →
    Completes (.shoalReq .steward sh) s fun t =>
      (∀ k, k < 16 → (t.dev.rd Reg.HDL_SHOALS_PENDING).testBit k = ((s.dev.rd Reg.HDL_SHOALS_PENDING).testBit k || k == sh.toNat)) ∧
      OnlyFields [Reg.HDL_SHOALS_PENDING] s t) ∧
  (∀ s (sh : BitVec 4), Live s → s.dev.rd (Reg.SHL_STATUS_IN_RESET sh.toNat) ≠ 0 → s.dev.shoalUnfit sh.toNat = false →
    s.dev.inF Reg.HDL_CONTROL_BWK_RELEASE ≠ 0 → s.dev.boot.running = [] → Completes (.shoalReq .steward sh) s fun t =>
      t.dev.shl = { s.dev.shl with asks := s.dev.shl.asks ++ [.release sh.toNat] } ∧
      Becomes s t { s.dev with regs := t.dev.regs, shl := t.dev.shl } ∧ FieldsKept [Reg.HDL_SHOALS_PENDING] s t)

namespace Sys2Proof

/-- ZEROISE and SELFTEST_FAIL: erasing leaves no key, no wrapping key and no identity key, and is logged; a failure at power-up stops the start
at stage ERROR; a later one disables the block, clears APPROVED and leaves no wrapping key, and both records are logged (R435, R436). -/
def Rules.KeysErased : Prop :=
  (∀ s, Live s → Completes (.zeroise .steward) s fun t =>
    t.dev.cry.keys = [] ∧ t.dev.cry.wrapKey = none ∧ t.dev.cry.data = [] ∧ t.dev.cry.wraps = [] ∧ t.dev.boot.identityKey = false ∧
    t.dev.rd Reg.CRY_STATUS_WRAP_KEY_VALID = 0 ∧ (∃ r ∈ t.dev.log.reports, r.kind = 0x37 ∧ r.source = 0x050)) ∧
  (∀ s (a : BitVec 16), Live s → s.dev.rd Reg.HDL_STATUS_STAGE = 1 → Completes (.selftestFail a) s fun t =>
    t.dev.rd Reg.HDL_STATUS_STAGE = 0x0F ∧ t.dev.rd Reg.HDL_STATUS_SELFTEST_FAIL = 1 ∧
    LogsAnd [Reg.HDL_STATUS_STAGE, Reg.HDL_STATUS_SELFTEST_FAIL] { source := 0x050, kind := 0x31, sev := 3, detail := a.toNat } s t) ∧
  (∀ s (a : BitVec 16), Live s → s.dev.rd Reg.HDL_STATUS_STAGE ≠ 1 → Completes (.selftestFail a) s fun t =>
    t.dev.cry.disabled = true ∧ t.dev.cry.wrapKey = none ∧ t.dev.rd Reg.HDL_STATUS_APPROVED = 0 ∧
    (∃ r ∈ t.dev.log.reports, r.kind = 0x31 ∧ r.detail = a.toNat) ∧ (∃ r ∈ t.dev.log.reports, r.kind = 0x37 ∧ r.detail = 1))

/-- PORST_N: while it is low no command but its rise has an effect; its fall loses what is volatile
and keeps fuses and flash, but where a blow or an update is cut short; its rise samples
the straps and starts at stage SELFTEST (R487, R488). -/
def Rules.PowerOnReset : Prop :=
  (∀ c s, s.dev.boot.inReset = true → (∀ a b k, c ≠ .porstNRise a b k) →
    (c = .slotBoundary → s.dev.clk.slotDue = true) → (c = .epochBoundary → s.dev.clk.epochDue = true) → exec c s = .next s) ∧
  (∀ s, Live s → Completes .porstNFall s fun t =>
    t.pending = s.pending ∧ t.prev = t.dev ∧ t.dev.boot.inReset = true ∧ s.dev.boot.hdlCount ≤ t.dev.boot.hdlCount ∧
    s.dev.boot.shlCount ≤ t.dev.boot.shlCount ∧
    (s.dev.boot.fuseJob = none → t.dev.boot.hdlCount = s.dev.boot.hdlCount ∧ t.dev.boot.shlCount = s.dev.boot.shlCount ∧
      t.dev.boot.revoked = s.dev.boot.revoked) ∧
    (s.dev.boot.updates = [] → t.dev.boot.flashA = s.dev.boot.flashA ∧ t.dev.boot.flashB = s.dev.boot.flashB) ∧
    (s.dev.boot.updates = [] → s.dev.boot.strandQ = [] → t.dev.boot.strand = s.dev.boot.strand) ∧ t.dev.mem = {} ∧
    t.dev.regs = {} ∧ t.dev.shl = {} ∧ t.dev.ops = [] ∧ t.dev.clk = {}) ∧
  (∀ s src test (k : BitVec 2), s.dev.boot.inReset = true → Completes (.porstNRise src test k) s fun t =>
    t.pending = s.pending ∧ t.dev.boot = { s.dev.boot with inReset := false, bootSrc := src, testMode := test, oobAddr := k.toNat } ∧
    Becomes s { t with prev := s.prev } { s.dev with boot := t.dev.boot }) ∧
  (∀ s src test k, Live s → Completes (.porstNRise src test k) s fun t => t = s)

end Sys2Proof

/-- The erasing of keys, and PORST_N: KeysErased and PowerOnReset. -/
def Obligations.KeysAndPowerOnReset : Prop :=
  Rules.KeysErased ∧ Rules.PowerOnReset

/-! Ciphers -/

namespace Sys2Proof

/-- Every key slot but k keeps its state, its key and its count. -/
def OtherSlots (k : Nat) (s t : State) : Prop :=
  ∀ j, j ≠ k → t.dev.slotState j = s.dev.slotState j ∧ t.dev.slotKey j = s.dev.slotKey j ∧
    t.dev.rd (Reg.CRY_SLOT_COUNT j) = s.dev.rd (Reg.CRY_SLOT_COUNT j)

/-- A sealed channel takes a command: its owner writes it, it is not busy, and no self-test has failed. -/
def TakesCommand (ag : Agent) (c : Nat) (s : State) : Prop :=
  Live s ∧ s.dev.mayWrite ag (chanOff c 8) = true ∧ s.dev.ownsChannel ag c = true ∧ s.dev.rd (Reg.CRY_CHAN_BUSY c) = 0 ∧
  s.dev.cry.disabled = false

/-- A sealed channel's command has ended with a result: DATA is cleared and the channel is not busy. -/
def Ended (c res : Nat) (t : State) : Prop :=
  t.dev.rd (Reg.CRY_CHAN_RESULT c) = res ∧ t.dev.rd (Reg.CRY_CHAN_BUSY c) = 0 ∧ ∀ w, w < 8 → Tab.get 0 t.dev.cry.data (8 * c + w) = 0

/-- A command of a sealed channel: another agent's is discarded and logged, one while it is busy changes nothing, and after a failed self-test
it ends with result 4; else P holds, the other slots are as before, and only registers and the block's keys change, with memory where the
wrapped store is written and a free value drawn where a key is made. -/
def SealedCommand (c : Agent → BitVec 2 → BitVec 14 → BitVec 21 → Instr) (P : Nat → Nat → Nat → State → State → Prop) : Prop :=
  (∀ s ag ch k w, Live s → s.dev.mayWrite ag (chanOff ch.toNat 8) = false ∨ s.dev.ownsChannel ag ch.toNat = false →
    Completes (c ag ch k w) s (Discards ag (chanOff ch.toNat 8) s)) ∧
  (∀ s ag ch k w, Live s → s.dev.mayWrite ag (chanOff ch.toNat 8) = true → s.dev.ownsChannel ag ch.toNat = true →
    s.dev.rd (Reg.CRY_CHAN_BUSY ch.toNat) ≠ 0 → Completes (c ag ch k w) s fun t => t = s) ∧
  (∀ s ag ch k w, Live s → s.dev.mayWrite ag (chanOff ch.toNat 8) = true → s.dev.ownsChannel ag ch.toNat = true →
    s.dev.rd (Reg.CRY_CHAN_BUSY ch.toNat) = 0 → s.dev.cry.disabled = true → Completes (c ag ch k w) s fun t =>
      Ended ch.toNat 4 t ∧ t.dev.cry.keys = s.dev.cry.keys ∧ (∀ j, t.dev.slotState j = s.dev.slotState j)) ∧
  (∀ s ag (ch : BitVec 2) (k : BitVec 14) (w : BitVec 21), TakesCommand ag ch.toNat s → Completes (c ag ch k w) s fun t =>
    P ch.toNat k.toNat w.toNat s t ∧ t.dev.log = s.dev.log ∧ t.dev.shl = s.dev.shl ∧ t.dev.clk = s.dev.clk)

/-- The commands of sealed channels. GENERATE, LOAD and UNWRAP fill an EMPTY slot, which becomes READY; WRAP drains a READY slot, and stays busy
until it is empty; ZERO empties a slot at once. A slot in another state ends a command with result 1, a record that is not as it must be
with 2, a missing wrapping key with 4 (R373, R374). -/
def Rules.SealedChannels : Prop :=
  SealedCommand .generate (fun ch k _ s t =>
    (s.dev.slotState k = 0 → s.dev.slotMode k < 10 → Ended ch 0 t ∧ t.dev.slotState k = 1 ∧
      (t.dev.slotKey k).length = keyBytes (s.dev.slotMode k) (s.dev.on (Reg.CRY_SLOT_KEY_256 k)) ∧ OtherSlots k s t ∧
      Becomes s t { s.dev with regs := t.dev.regs, cry := t.dev.cry, free := s.dev.free + 1 }) ∧
    (s.dev.slotState k ≠ 0 → Ended ch 1 t ∧ t.dev.slotState k = s.dev.slotState k ∧ t.dev.cry.keys = s.dev.cry.keys)) ∧
  SealedCommand .load (fun ch k _ s t =>
    (s.dev.slotState k = 0 → s.dev.slotMode k < 10 → (∃ b ∈ s.dev.chanData ch, b ≠ 0) → Ended ch 0 t ∧ t.dev.slotState k = 1 ∧
      t.dev.slotKey k = fitBytes (keyBytes (s.dev.slotMode k) (s.dev.on (Reg.CRY_SLOT_KEY_256 k))) (s.dev.chanData ch) ∧
      t.dev.rd Reg.HDL_STATUS_APPROVED = (if s.dev.rd (Reg.CRY_CHAN_STEWARD ch) = 0 then s.dev.rd Reg.HDL_STATUS_APPROVED else 0) ∧
      OtherSlots k s t ∧ Becomes s t { s.dev with regs := t.dev.regs, cry := t.dev.cry }) ∧
    (s.dev.slotState k ≠ 0 → Ended ch 1 t ∧ t.dev.slotState k = s.dev.slotState k ∧ t.dev.cry.keys = s.dev.cry.keys)) ∧
  SealedCommand .unwrap (fun ch k w s t =>
    (∀ key r, s.dev.slotState k = 0 → s.dev.recordFull w = true → s.dev.cry.wrapKey = some key →
      Tab.get none s.dev.cry.records w = some r → r.under = key → s.dev.bytes (recordAddr w) 64 = recordBytes r →
      Ended ch 0 t ∧ t.dev.slotState k = 1 ∧ Tab.get none t.dev.cry.records w = none ∧
      (∀ i, i < 64 → t.dev.byte (recordAddr w + i) = 0) ∧
      (∀ a, (∀ i, i < 64 → a ≠ recordAddr w + i) → t.dev.byte a = s.dev.byte a)) ∧
    (s.dev.slotState k ≠ 0 → Ended ch 1 t ∧ t.dev.mem = s.dev.mem) ∧
    (s.dev.slotState k = 0 → s.dev.recordFull w = false → Ended ch 2 t ∧ t.dev.mem = s.dev.mem) ∧
    (s.dev.slotState k = 0 → s.dev.recordFull w = true → s.dev.cry.wrapKey = none → Ended ch 4 t ∧ t.dev.mem = s.dev.mem)) ∧
  SealedCommand .wrap (fun ch k w s t => t.dev.mem = s.dev.mem ∧
    (s.dev.slotState k = 1 → s.dev.recordFull w = false → s.dev.cry.wrapKey ≠ none → (s.dev.slotKey k).length ≤ 32 →
      t.dev.slotState k = 2 ∧ t.dev.rd (Reg.CRY_CHAN_BUSY ch) = 1 ∧ t.dev.cry.wraps = s.dev.cry.wraps ++ [(k, ch, w)] ∧
      t.dev.slotKey k = s.dev.slotKey k ∧ OtherSlots k s t) ∧
    (s.dev.slotState k ≠ 1 → Ended ch 1 t) ∧
    (s.dev.slotState k = 1 → s.dev.recordFull w = true → Ended ch 2 t) ∧
    (s.dev.slotState k = 1 → s.dev.recordFull w = false → s.dev.cry.wrapKey = none → Ended ch 4 t)) ∧
  (∀ s ag (ch : BitVec 2) (k : BitVec 14) w, TakesCommand ag ch.toNat s → Completes (.zero ag ch k w) s fun t =>
    Ended ch.toNat 0 t ∧ t.dev.slotState k.toNat = 0 ∧ t.dev.slotKey k.toNat = [] ∧ t.dev.rd (Reg.CRY_SLOT_COUNT k.toNat) = 0)

/-- SLOT_DRAIN, SLOT_EMPTY, CHANNEL_LOCK and TAMPER_ALARM: a READY or RETIRED slot drains; a drained slot that nothing names is empty, and its
key has gone into its record where a WRAP waits; the first lock of a channel fixes its owner; an alarm erases every key (R372, R373, R376). -/
def Rules.KeySlots : Prop :=
  (∀ s ag, Live s → s.dev.mayWrite ag 0x700048 = false → Completes (.slotDrain ag) s (Discards ag 0x700048 s)) ∧
  (∀ s ag, Live s → s.dev.mayWrite ag 0x700048 = true →
    let k := s.dev.inF Reg.CRY_SLOT_SELECT_SLOT
    s.dev.slotState k = 1 ∨ s.dev.slotState k = 3 → Completes (.slotDrain ag) s fun t =>
      t.dev.slotState k = 2 ∧ OnlyFields [Reg.CRY_SLOT_STATE k] s t) ∧
  (∀ s (k : BitVec 14), Live s → s.dev.slotState k.toNat = 2 → s.dev.slotNamed k.toNat = false →
    (∀ w ∈ s.dev.cry.wraps, w.1 ≠ k.toNat) → Completes (.slotEmpty k) s fun t =>
      t.dev.slotState k.toNat = 0 ∧ t.dev.slotKey k.toNat = [] ∧ OtherSlots k.toNat s t ∧
      Becomes s t { s.dev with regs := t.dev.regs, cry := { s.dev.cry with keys := t.dev.cry.keys } }) ∧
  (∀ s (k : BitVec 14) c w l key, Live s → s.dev.slotState k.toNat = 2 → s.dev.slotNamed k.toNat = false →
    s.dev.cry.wraps = (k.toNat, c, w) :: l → s.dev.cry.wrapKey = some key → Completes (.slotEmpty k) s fun t =>
      t.dev.slotState k.toNat = 0 ∧ t.dev.slotKey k.toNat = [] ∧ OtherSlots k.toNat s t ∧ Ended c 0 t ∧
      (∃ r, Tab.get none t.dev.cry.records w = some r ∧ r.key = s.dev.slotKey k.toNat ∧ r.under = key ∧
        t.dev.bytes (recordAddr w) 64 = recordBytes r) ∧
      (∀ a, (∀ i, i < 64 → a ≠ recordAddr w + i) → t.dev.byte a = s.dev.byte a)) ∧
  (∀ s (k : BitVec 14), Live s → s.dev.slotState k.toNat ≠ 2 ∨ s.dev.slotNamed k.toNat = true → Completes (.slotEmpty k) s fun t => t = s) ∧
  (∀ s ag (c : BitVec 2), Live s → s.dev.mayWrite ag (chanOff c.toNat 0) = true →
    (s.dev.rd (Reg.CRY_CHAN_HEADLAND c.toNat) = 0 → Completes (.channelLock ag c true false) s fun t =>
      t.dev.rd (Reg.CRY_CHAN_STEWARD c.toNat) = 1 ∧ OnlyFields [Reg.CRY_CHAN_STEWARD c.toNat] s t) ∧
    (s.dev.rd (Reg.CRY_CHAN_STEWARD c.toNat) = 0 → Completes (.channelLock ag c false true) s fun t =>
      t.dev.rd (Reg.CRY_CHAN_HEADLAND c.toNat) = 1 ∧ OnlyFields [Reg.CRY_CHAN_HEADLAND c.toNat] s t) ∧
    (s.dev.rd (Reg.CRY_CHAN_HEADLAND c.toNat) ≠ 0 → Completes (.channelLock ag c true false) s (Discards ag (chanOff c.toNat 0) s)) ∧
    (s.dev.rd (Reg.CRY_CHAN_STEWARD c.toNat) ≠ 0 → Completes (.channelLock ag c false true) s (Discards ag (chanOff c.toNat 0) s))) ∧
  (∀ s (src : Fin 5), Live s → Completes (.tamperAlarm src) s fun t =>
    t.dev.cry.keys = [] ∧ t.dev.cry.wrapKey = none ∧ t.dev.cry.data = [] ∧ t.dev.cry.runs = [] ∧
    (t.dev.rd Reg.CRY_STATUS_TAMPER).testBit src.val = true ∧
    ∃ r ∈ t.dev.log.reports, r.kind = 0x22 ∧ r.source = 0x050 ∧ r.detail = 2 ^ src.val)

end Sys2Proof

/-- Sealed channels and key slots: SealedChannels and KeySlots. -/
def Obligations.ChannelsOfKeys : Prop :=
  Rules.SealedChannels ∧ Rules.KeySlots

/-- LOOKASIDE_REQUEST_START, SUSPEND, RESUME, LOOKASIDE_REQUEST_DONE and RX_OPEN_CHECK: an idle engine starts the next request, whose slot
counts an invocation; the running one gives way to a tighter one at the next block's end, and its context is saved in 32 bytes' time, 2.5 ns; it
goes on when none waits, once its context is restored in as much; one whose bytes have been processed, 64 in 5 ns, leaves its engine, and no
other does; opening of received frames is in force once every policer's inline amounts are booked (R358 to R364, R367, R371). -/
def Obligations.CipherEngines : Prop :=
  (∀ s (e : BitVec 5) o r h, Live s → s.dev.boot.thermTrip = false → s.dev.running e.toNat = none → s.dev.pickRequest e.toNat = some o →
    s.dev.suspendedOn e.toNat = [] → s.dev.op? o.id = some o → o.fetched = true → o.reads = 0 → o.req.kind = 7 → o.req.org = .ring r h →
    blockOk (s.dev.slotMode o.req.desc.keySlot.toNat) o.req.code o.req.desc.length.toNat (o.data.take 128) = true →
    s.dev.slotState o.req.desc.keySlot.toNat = 1 → Completes (.lookasideRequestStart e) s fun t =>
      t.dev.cry.runs = s.dev.cry.runs ++ [{ op := o.id, engine := e.toNat, started := s.dev.clk.tide, from_ := s.dev.clk.tide * 65536, total := o.req.desc.length.toNat }] ∧
      t.dev.rd (Reg.CRY_SLOT_COUNT o.req.desc.keySlot.toNat) = (s.dev.rd (Reg.CRY_SLOT_COUNT o.req.desc.keySlot.toNat) + 1) % 2 ^ 48 ∧
      t.dev.mem = s.dev.mem ∧ t.dev.log = s.dev.log ∧ t.dev.cry.keys = s.dev.cry.keys) ∧
  (∀ s (e : BitVec 5) (pos : BitVec 32) r o, Live s → s.dev.running e.toNat = some r → s.dev.op? r.op = some o → o.req.kind = 7 →
    s.dev.tighterWaits e.toNat o.laClass = true → s.dev.laPos r ≤ pos.toNat →
    (∀ x, s.dev.laPos r ≤ x → x ≤ pos.toNat →
      suspendable (s.dev.slotMode o.req.desc.keySlot.toNat) o.req.desc.length.toNat o.aadLen (leNat ((o.data.drop 4).take 4)) x =
        decide (x = pos.toNat)) →
    Completes (.suspend e pos) s fun t =>
      t.dev.cry.runs = s.dev.cry.runs.map (fun (x : LaRun) => if x.op = r.op then
        { x with suspended := true, pos := pos.toNat, done := pos.toNat, from_ := x.from_ + (pos.toNat - x.done) * 5120 + 163840 } else x) ∧
      Becomes s t { s.dev with regs := t.dev.regs, cry := { s.dev.cry with runs := t.dev.cry.runs } } ∧ FieldsKept [Reg.CRY_CNT_COUNT 6] s t) ∧
  (∀ s (e : BitVec 5) r, Live s → s.dev.running e.toNat = none → s.dev.suspendedOn e.toNat = [r] →
    s.dev.tighterWaits e.toNat (((s.dev.op? r.op).map Op.laClass).getD 4) = false → Completes (.resume e) s fun t =>
      t.dev.cry.runs = s.dev.cry.runs.map (fun (x : LaRun) => if x.op = r.op then
        { x with suspended := false, from_ := max (s.dev.clk.tide * 65536) r.from_ + 163840 } else x) ∧
      Becomes s t { s.dev with cry := { s.dev.cry with runs := t.dev.cry.runs } }) ∧
  (∀ s (e : BitVec 5) r, Live s → s.dev.running e.toNat = some r → s.dev.laEnds r = false → Completes (.lookasideRequestDone e) s fun t => t = s) ∧
  (∀ s (e : BitVec 5) r, Live s → s.dev.running e.toNat = some r → s.dev.laEnds r = true → Completes (.lookasideRequestDone e) s fun t =>
    t.dev.cry.runs = s.dev.cry.runs.filter (fun x => x.op != r.op) ∧ t.dev.cry.keys = s.dev.cry.keys) ∧
  (∀ s (tid : BitVec 9), Live s → .rxOpen tid.toNat ∈ s.dev.clk.due → Completes (.rxOpenCheck tid) s fun t =>
    .rxOpen tid.toNat ∉ t.dev.clk.due ∧
    (s.dev.inF (Reg.CRY_TENANT_RX_OPEN tid.toNat) = 0 → t.dev.rd (Reg.CRY_TENANT_RX_OPEN_IN_FORCE tid.toNat) = 0) ∧
    (s.dev.inF (Reg.CRY_TENANT_RX_OPEN tid.toNat) ≠ 0 → s.dev.rd (Reg.CRY_TENANT_RX_OPEN_IN_FORCE tid.toNat) = 0 →
      s.dev.tenantPolicers tid.toNat = [] → t.dev.rd (Reg.CRY_TENANT_RX_OPEN_IN_FORCE tid.toNat) = 1) ∧
    Becomes s t { s.dev with regs := t.dev.regs, cal := t.dev.cal, clk := t.dev.clk } ∧
    FieldsKept [Reg.CRY_TENANT_RX_OPEN_IN_FORCE tid.toNat, Reg.CRY_STATUS_OPEN_REFUSED] s t)

/-! Monitors, pins and out-of-band access -/

namespace Sys2Proof

/-- The block interrupt bit of a cause is set in HST_MGMT_CAUSE. -/
def Interrupts (c : Cause) (t : State) : Prop := (t.dev.rd Reg.HST_MGMT_CAUSE).testBit c.bit = true

/-- SNAP, SNAP_CLEAR, QUEUE_MONITOR_BIND, BIST_START and BIST_DONE. A snapshot waits for the end of the tick, its buffer not ready; there the
set is copied with the short time, and CLEAR resets it. A changed binding resets its monitor. The steward's BIST starts where its condition
holds, and is refused and logged where not; at its end each signature is compared, TESTED and PASS show it, and a tested shoal's SRAM is zero
and its threads are OFF (R466, R468, R470, R471). -/
def Rules.Monitors : Prop :=
  (∀ s ag (b : BitVec 2), Live s → s.dev.mayWrite ag 0xC00008 = true → ∀ c clear,
    (c = .snap ag b ∧ clear = false) ∨ (c = .snapClear ag b ∧ clear = true) → Completes c s fun t =>
      t.dev.mon.snaps = s.dev.mon.snaps ++ [⟨b.toNat, s.dev.inF Reg.MON_SET_SELECT_SET_TYPE, s.dev.inF Reg.MON_SET_SELECT_SET_INDEX, clear⟩] ∧
      (t.dev.bufAt b.toNat).ready = false ∧ (∀ k, k ≠ b.toNat → t.dev.bufAt k = s.dev.bufAt k) ∧
      Becomes s t { s.dev with mon := { s.dev.mon with snaps := t.dev.mon.snaps, bufs := t.dev.mon.bufs } }) ∧
  (∀ s ag (b : BitVec 2), Live s → s.dev.mayWrite ag 0xC00008 = false →
    Completes (.snap ag b) s (Discards ag 0xC00008 s) ∧ Completes (.snapClear ag b) s (Discards ag 0xC00008 s)) ∧
  (∀ (d : Dev) (r : SnapReq),
    let k := setKey r.setType r.setIndex
    (d.landSnap r).bufAt r.buf =
      { ready := true, setType := r.setType, setIndex := r.setIndex, at_ := d.clk.tide % 2 ^ 32, set := Tab.get {} d.mon.sets k } ∧
    Tab.get {} (d.landSnap r).mon.sets k = (if r.clear then {} else Tab.get {} d.mon.sets k) ∧
    ∀ j, j ≠ k → Tab.get {} (d.landSnap r).mon.sets j = Tab.get {} d.mon.sets j) ∧
  (∀ s ag (m : BitVec 10) en (q : BitVec 4) (x : BitVec 24), Live s → s.dev.mayWrite ag 0xC00068 = true →
    Completes (.queueMonitorBind ag m en q x) s fun t =>
      t.dev.rd (Reg.MON_QMON_ENABLE m.toNat) = (if en then 1 else 0) ∧ t.dev.rd (Reg.MON_QMON_QTYPE m.toNat) = q.toNat ∧
      t.dev.rd (Reg.MON_QMON_QINDEX m.toNat) = x.toNat ∧
      ((s.dev.rd (Reg.MON_QMON_ENABLE m.toNat) ≠ (if en then 1 else 0) ∨ s.dev.rd (Reg.MON_QMON_QTYPE m.toNat) ≠ q.toNat ∨
        s.dev.rd (Reg.MON_QMON_QINDEX m.toNat) ≠ x.toNat) → Tab.get {} t.dev.mon.sets (setKey 2 m.toNat) = {}) ∧
      (∀ j, j ≠ setKey 2 m.toNat → Tab.get {} t.dev.mon.sets j = Tab.get {} s.dev.mon.sets j) ∧
      Becomes s t { s.dev with regs := t.dev.regs, mon := { s.dev.mon with sets := t.dev.mon.sets } } ∧
      FieldsKept [Reg.MON_QMON_ENABLE m.toNat, Reg.MON_QMON_QTYPE m.toNat, Reg.MON_QMON_QINDEX m.toNat] s t) ∧
  (∀ s ag k, Live s → ag ≠ .steward → Completes (.bistStart ag k) s (Discards ag 0xC00080 s)) ∧
  (∀ s (k : BitVec 5), Live s → s.dev.mon.bist = none → s.dev.bistAllowed k.toNat = true → Completes (.bistStart .steward k) s fun t =>
    t.dev.mon = { s.dev.mon with bist := some k.toNat } ∧ t.dev.rd Reg.MON_BIST_BUSY = 1 ∧ t.dev.rd Reg.MON_BIST_RUNNING_TARGET = k.toNat ∧
    Becomes s t { s.dev with regs := t.dev.regs, mon := t.dev.mon } ∧
    FieldsKept [Reg.MON_BIST_BUSY, Reg.MON_BIST_RUNNING_TARGET, Reg.MON_BIST_TARGET] s t) ∧
  (∀ s (k : BitVec 5), Live s → s.dev.mon.bist ≠ none ∨ s.dev.bistAllowed k.toNat = false → Completes (.bistStart .steward k) s fun t =>
    t.dev.rd Reg.MON_BIST_BIST_REFUSED = 1 ∧ t.dev.mon = s.dev.mon ∧
    LogsAnd [Reg.MON_BIST_TARGET, Reg.MON_BIST_BIST_REFUSED] (ctlRecord .steward 0x15 0xC00080 0x80) s t) ∧
  (∀ s k sig l, Live s → s.dev.mon.bist = some k → k < 24 → Completes (.bistDone (sig :: l)) s fun t =>
    t.dev.mon.bist = none ∧ t.dev.rd Reg.MON_BIST_BUSY = 0 ∧ t.dev.rd Reg.MON_BIST_DONE = 1 ∧ Interrupts .mon t ∧
    (t.dev.rd Reg.MON_BIST_TESTED).testBit k = true ∧ (t.dev.rd Reg.MON_BIST_PASS).testBit k = decide (sig = Config.bistExpect k) ∧
    (k < 16 → ∀ j, j < 64 → (t.dev.thr (64 * k + j)).st = 0) ∧
    (s.dev.boot.running = [] → ∀ a,
      t.dev.byte a = if k < 16 ∧ sramBase k ≤ a ∧ a < sramBase (k + 1) then 0 else s.dev.byte a))

/-- A pin check's result: where the pin is watched and the result differs, FAULT takes it, SEEN sets and the interrupt rises; else nothing
changes. -/
def PinShows (i r : Nat) (s t : State) : Prop :=
  (s.dev.inF (Reg.MON_PIN_ENABLE i) ≠ 0 → s.dev.rd (Reg.MON_PIN_FAULT i) ≠ r →
    t.dev.rd (Reg.MON_PIN_FAULT i) = r ∧ t.dev.rd (Reg.MON_PIN_SEEN i) = 1 ∧ Interrupts .mon t ∧
    OnlyFields [Reg.MON_PIN_FAULT i, Reg.MON_PIN_SEEN i, Reg.HST_MGMT_CAUSE, Reg.HST_MGMT_PENDING_EVENTS] s t) ∧
  (s.dev.inF (Reg.MON_PIN_ENABLE i) = 0 ∨ s.dev.rd (Reg.MON_PIN_FAULT i) = r → t = s)

/-- PIN_DRIVE_MISMATCH, PIN_BIAS_TEST, REFCLK_POLARITY_CHECK and SENSOR_READ: an output that does not show its level is shorted to the other
one; a bias test finds an open pin or a short; a lagging reference pair is reversed; a sensor shows its reading, TEMP_MAX rises with it, and
the fourth reading in a row of 115 °C or more trips the device (R472, R474, R494). -/
def Rules.PinsAndSensors : Prop :=
  (∀ s (i : BitVec 7) high, Live s → pinKind i.toNat = .output →
    Completes (.pinDriveMismatch i high) s (PinShows i.toNat (if high then 2 else 3) s)) ∧
  (∀ s (i : BitVec 7) low high, Live s → pinKind i.toNat = .toggling →
    Completes (.pinBiasTest i low high) s (PinShows i.toNat (if low then 2 else if high then 3 else 1) s)) ∧
  (∀ s (i : BitVec 7) low high, Live s → pinKind i.toNat = .idleHigh → i ≠ 5 →
    Completes (.pinBiasTest i low high) s (PinShows i.toNat (if low then 2 else if high then 0 else 1) s)) ∧
  (∀ s (i : BitVec 7) low high, Live s → pinKind i.toNat = .present →
    Completes (.pinBiasTest i low high) s (PinShows i.toNat (if low ∨ high then 0 else 1) s)) ∧
  (∀ s (p : BitVec 2) rev, Live s → Completes (.refclkPolarityCheck p rev) s (PinShows (80 + p.toNat) (if rev then 4 else 0) s)) ∧
  (∀ s (i : BitVec 5) (v : BitVec 16), Live s → i.toNat < 24 → v.toInt < 460 ∨ Tab.get 0 s.dev.mon.trips i.toNat < 3 →
    Completes (.sensorRead i v) s fun t =>
      t.dev.rd (Reg.MON_TEMP_TEMP i.toNat) = v.toNat ∧
      t.dev.rd (Reg.MON_TEMP_TEMP_MAX i.toNat) = wrap 16 (Max.max (sgn 16 (s.dev.rd (Reg.MON_TEMP_TEMP_MAX i.toNat))) v.toInt) ∧
      Tab.get 0 t.dev.mon.trips i.toNat = (if v.toInt < 460 then 0 else Tab.get 0 s.dev.mon.trips i.toNat + 1) ∧
      Becomes s t { s.dev with regs := t.dev.regs, mon := { s.dev.mon with tMax := t.dev.mon.tMax, trips := t.dev.mon.trips } } ∧
      FieldsKept [Reg.MON_TEMP_TEMP i.toNat, Reg.MON_TEMP_TEMP_MAX i.toNat] s t) ∧
  (∀ s (i : BitVec 5) (v : BitVec 16), Live s → i.toNat < 24 → 460 ≤ v.toInt → 3 ≤ Tab.get 0 s.dev.mon.trips i.toNat →
    s.dev.boot.thermTrip = false → Completes (.sensorRead i v) s fun t =>
      t.dev.boot.thermTrip = true ∧ t.dev.rd Reg.ERR_STATUS_FATAL = 1)

end Sys2Proof

/-- Snapshots, self-test, pins and sensors: Monitors and PinsAndSensors. -/
def Obligations.MonitorsPinsSensors : Prop :=
  Rules.Monitors ∧ Rules.PinsAndSensors

namespace Sys2Proof

/-- The TAP takes an instruction, and in functional mode BYPASS in place of one that needs test mode; nothing else changes. -/
def TapTakes (c : Instr) (i : TapInstr) (test : Bool) : Prop :=
  ∀ s, Live s → Completes c s fun t =>
    Becomes s t { s.dev with mon := { s.dev.mon with tap := { s.dev.mon.tap with
      instr := if test = true ∧ s.dev.boot.testMode = false then .bypass else i } } }

end Sys2Proof

/-- The TAP's instructions, CTLACC, and the management endpoint: identifiers and addresses are taken once self-test is over; a read answers code
0 with the value, code 2 for an offset that names no register, which is logged; a write answers 0 where it may be made, 1 where not; CTLACC reads or writes with
DEBUG_EN, and else its next capture shows a refusal (R475 to R478). -/
def Obligations.OutOfBand : Prop :=
  TapTakes .extest .extest true ∧ TapTakes .clamp .clamp true ∧ TapTakes .highz .highz true ∧ TapTakes .extestPulse .extestPulse true ∧
  TapTakes .extestTrain .extestTrain true ∧ TapTakes .idcode .idcode false ∧ TapTakes .bypass .bypass false ∧ TapTakes .tapReset .idcode false ∧
  (∀ s pins pre, Live s → Completes (.samplePreload pins pre) s fun t =>
    Becomes s t { s.dev with mon := { s.dev.mon with tap := { s.dev.mon.tap with instr := .samplePreload, boundary := pre, sampled := pins } } }) ∧
  (∀ s (b : Fin 3) (e : BitVec 8), Live s → s.dev.rd Reg.HDL_STATUS_STAGE ≠ 1 → Completes (.setEndpointId b e) s fun t =>
    Tab.get 0 t.dev.mon.eids b.val = e.toNat ∧ (∀ k, k ≠ b.val → Tab.get 0 t.dev.mon.eids k = Tab.get 0 s.dev.mon.eids k) ∧
    Becomes s t { s.dev with mon := { s.dev.mon with eids := t.dev.mon.eids } }) ∧
  (∀ s (a : BitVec 7), Live s → s.dev.rd Reg.HDL_STATUS_STAGE ≠ 1 → Completes (.entdaa a) s fun t =>
    Becomes s t { s.dev with mon := { s.dev.mon with i3c := some a.toNat } }) ∧
  (∀ s, Live s → Completes .rstdaa s fun t => Becomes s t { s.dev with mon := { s.dev.mon with i3c := none } }) ∧
  (∀ s (a : BitVec 32), Live s → s.dev.rd Reg.HDL_STATUS_STAGE ≠ 1 → a.toNat % 8 ≠ 0 ∨ 0xE00000 ≤ a.toNat →
    let bad (detail : Nat) (t : State) : Prop := t.dev.out = s.dev.out ++ [.oob 2 0] ∧
      LogsAnd [] (if a.toNat % 8 ≠ 0 then ctlRecord .oob 0x12 a.toNat 8 else ctlRecord .oob 0x13 a.toNat detail) s
        { t with dev := { t.dev with out := s.dev.out } }
    Completes (.oobRegisterRead a) s (bad 0) ∧ (∀ v, Completes (.oobRegisterWrite a v) s (bad 1))) ∧
  (∀ s, Live s → s.dev.rd Reg.HDL_STATUS_STAGE ≠ 1 → Completes (.oobRegisterRead 0x10000) s fun t =>
    Becomes s t { s.dev with out := s.dev.out ++ [.oob 0 (s.dev.clk.tide % 2 ^ 64)] }) ∧
  (∀ s (v : BitVec 64), Live s → s.dev.rd Reg.HDL_STATUS_STAGE ≠ 1 → s.dev.mayWrite .oob 0x10020 = true →
    Completes (.oobRegisterWrite 0x10020 v) s fun t =>
      t.dev.rd Reg.TIDE_LIMITS_STEP_LIMIT = v.toNat % 65536 ∧ t.dev.out = s.dev.out ++ [.oob 0 0] ∧
      Becomes s t { s.dev with regs := t.dev.regs, out := t.dev.out }) ∧
  (∀ s (a : BitVec 32) v, Live s → s.dev.rd Reg.HDL_STATUS_STAGE ≠ 1 → a.toNat % 8 = 0 → a.toNat < 0xB00000 → s.dev.reservedAt a.toNat = false →
    s.dev.mayWrite .oob a.toNat = false →
    Completes (.oobRegisterWrite a v) s fun t =>
      t.dev.out = s.dev.out ++ [.oob 1 0] ∧ Discards .oob a.toNat s { t with dev := { t.dev with out := s.dev.out } }) ∧
  (∀ s wr a v, Live s → s.dev.inF Reg.MON_DEBUG_EN = 0 → Completes (.ctlacc wr a v) s fun t =>
    Becomes s t { s.dev with mon := { s.dev.mon with tap := { s.dev.mon.tap with instr := .ctlacc, ctlStatus := 1, ctlData := 0 } } }) ∧
  (∀ s v, Live s → s.dev.inF Reg.MON_DEBUG_EN ≠ 0 → Completes (.ctlacc false 0x10000 v) s fun t =>
    t.dev.mon.tap = { s.dev.mon.tap with instr := .ctlacc, ctlStatus := 0, ctlData := s.dev.clk.tide % 2 ^ 64 } ∧
    t.dev.rd Reg.MON_TAP_ACCESS_SEEN = 1 ∧ Becomes s t { s.dev with regs := t.dev.regs, mon := { s.dev.mon with tap := t.dev.mon.tap } } ∧
    FieldsKept [Reg.MON_TAP_ACCESS_SEEN] s t)

/-! Memory -/

namespace Sys2Proof

/-- MEM_TRAIN_GO, MEM_TRAIN_DONE, MEM_SOURCE_DONE, FIREWALL_REGION_CHECK, PATROL_SCRUB and ERROR_RING_WRITE: training starts once and ends with
what it found; a source returns to CLEAR unless this tick escalated it; a region set is applied whole if it is sound, and else refused and
logged; the patrol reads PATROL_BURSTS bursts of every group once in a slot and wraps; up to 4 records of a tick move to the ring while it has room (R413, R418, R422, R426,
R427). -/
def Rules.MemoryControl : Prop :=
  (∀ s ag, Live s → s.dev.mayWrite ag 0x900008 = true → s.dev.mem.training = false → s.dev.rd Reg.MEM_TRAIN_DONE = 0 →
    s.dev.inF Reg.HDL_CONTROL_BWK_RELEASE = 0 → Completes (.memTrainGo ag) s fun t =>
      t.dev.mem = { s.dev.mem with training := true } ∧
      t.dev.rd Reg.HDL_STATUS_STAGE = (if s.dev.rd Reg.HDL_STATUS_STAGE = 1 then 2 else s.dev.rd Reg.HDL_STATUS_STAGE) ∧
      Becomes s t { s.dev with regs := t.dev.regs, mem := t.dev.mem }) ∧
  (∀ s ag, Live s → s.dev.mayWrite ag 0x900008 = true →
    s.dev.mem.training = true ∨ s.dev.rd Reg.MEM_TRAIN_DONE ≠ 0 ∨ s.dev.inF Reg.HDL_CONTROL_BWK_RELEASE ≠ 0 →
    Completes (.memTrainGo ag) s (Discards ag 0x900008 s)) ∧
  (∀ s (f : BitVec 8) (h : BitVec 2) (n : BitVec 42), Live s → s.dev.mem.training = true → Completes (.memTrainDone f h n) s fun t =>
    t.dev.mem = { s.dev.mem with training := false } ∧ t.dev.rd Reg.MEM_TRAIN_DONE = 1 ∧ t.dev.rd Reg.MEM_TRAIN_DDR_FAIL = f.toNat ∧
    t.dev.rd Reg.MEM_TRAIN_HBM_FAIL = h.toNat ∧
    t.dev.rd Reg.MEM_DDR_BYTES = (if f.toNat % 2 ^ s.dev.ddrChannels = 0 then n.toNat % 2 ^ Reg.MEM_DDR_BYTES.width else 0) ∧
    t.dev.rd Reg.HDL_STATUS_STAGE = (if h ≠ 0 then 0x0F else if s.dev.rd Reg.HDL_STATUS_STAGE = 2 then 3 else s.dev.rd Reg.HDL_STATUS_STAGE) ∧
    Becomes s t { s.dev with regs := t.dev.regs, mem := t.dev.mem } ∧
    FieldsKept [Reg.MEM_TRAIN_DONE, Reg.MEM_TRAIN_DDR_FAIL, Reg.MEM_TRAIN_HBM_FAIL, Reg.MEM_DDR_BYTES, Reg.HDL_STATUS_STAGE] s t) ∧
  (∀ s ag (i : BitVec 7), Live s → s.dev.mayWrite ag (0x901000 + 8 * i.toNat) = true → i.toNat ∉ s.dev.mem.escalated →
    Completes (.memSourceDone ag i) s fun t =>
      t.dev.rd (Reg.MEM_SOURCE_HANDLING i.toNat) = 0 ∧ OnlyFields [Reg.MEM_SOURCE_HANDLING i.toNat] s t) ∧
  (∀ s ag (i : BitVec 7), Live s → s.dev.mayWrite ag (0x901000 + 8 * i.toNat) = true → i.toNat ∈ s.dev.mem.escalated →
    Completes (.memSourceDone ag i) s fun t => t = s) ∧
  (∀ s, Live s → .fwCheck ∈ s.dev.clk.due → Completes .firewallRegionCheck s fun t =>
    .fwCheck ∉ t.dev.clk.due ∧
    (regionsOk s.dev.regionSet = true → Becomes s t { s.dev with clk := t.dev.clk, mem := { s.dev.mem with regions := s.dev.regionSet } }) ∧
    (regionsOk s.dev.regionSet = false → t.dev.mem = s.dev.mem ∧ t.dev.rd Reg.MEM_FW_FW_REFUSED = 1 ∧
      Becomes s t { s.dev with clk := t.dev.clk, regs := t.dev.regs, log := t.dev.log })) ∧
  (∀ s, Live s → s.dev.inF Reg.MEM_PATROL_EN ≠ 0 → s.dev.mem.scrubbed ≠ some (s.dev.clk.tide / 256) → Completes .patrolScrub s fun t =>
    (∀ g, g < 16 → Tab.get 0 t.dev.mem.patrolHbm g = (Tab.get 0 s.dev.mem.patrolHbm g + s.dev.inF Reg.MEM_PATROL_BURSTS) % 0x3000000) ∧
    Becomes s t { s.dev with mem := { s.dev.mem with patrolDdr := t.dev.mem.patrolDdr, patrolHbm := t.dev.mem.patrolHbm, scrubbed := some (s.dev.clk.tide / 256) } }) ∧
  (∀ s, Live s → s.dev.mem.scrubbed = some (s.dev.clk.tide / 256) → Completes .patrolScrub s fun t => t = s) ∧
  (∀ s, Live s → s.dev.inF Reg.ERR_CTRL_ENABLE = 0 ∨ 4 ≤ s.dev.log.moved ∨ (s.dev.rd Reg.ERR_RING_TAIL + 1) % 65536 = s.dev.inF Reg.ERR_RING_HEAD →
    Completes .errorRingWrite s fun t => t = s) ∧
  (∀ s r, Live s → s.dev.inF Reg.ERR_CTRL_ENABLE ≠ 0 → s.dev.log.fifo = [r] → s.dev.log.moved < 4 →
    (s.dev.rd Reg.ERR_RING_TAIL + 1) % 65536 ≠ s.dev.inF Reg.ERR_RING_HEAD → Completes .errorRingWrite s fun t =>
      t.dev.log = { s.dev.log with fifo := [], moved := s.dev.log.moved + 1 } ∧ t.dev.rd Reg.ERR_RING_TAIL = (s.dev.rd Reg.ERR_RING_TAIL + 1) % 65536 ∧
      t.dev.bytes (s.dev.inF Reg.ERR_RING_BASE * 2 ^ 21 + s.dev.rd Reg.ERR_RING_TAIL * 32) 32 = r.words.flatMap (natLe 8) ∧
      (∀ a, (∀ i, i < 32 → a ≠ s.dev.inF Reg.ERR_RING_BASE * 2 ^ 21 + s.dev.rd Reg.ERR_RING_TAIL * 32 + i) → t.dev.byte a = s.dev.byte a) ∧
      Becomes s t { s.dev with regs := t.dev.regs, log := t.dev.log, mem := t.dev.mem })

/-- MEMORY_READ_ERROR, by what the codeword of the line shows: good, nothing happens; a corrected byte is counted, logged and rewritten; an
uncorrectable line is counted, put in HANDLING at a level one higher than before, logged with it and poisoned; a poisoned line is logged and
its reader told. Level 2 drains the shoal charged, and a thread's access returns with MEMERR; an atomic that fails so takes back what it
wrote (R197, R416 to R420, R427, R428). -/
def Rules.ReadErrors : Prop :=
  ∀ s (a : BitVec 48) l who src, Live s → s.dev.readSource (a.toNat / 32 * 32) who = some src → src < 0x71 →
    (∀ th k, who = .thread th k ∨ who = .patrol → decodeLine (a.toNat / 32 * 32) l = .good →
      Completes (.memoryReadError a l who) s fun t => t = s) ∧
    (∀ th k p v, who = .thread th k ∨ who = .patrol → decodeLine (a.toNat / 32 * 32) l = .corrected p v → s.dev.rd (Reg.MEM_SOURCE_HANDLING src) = 0 →
      Completes (.memoryReadError a l who) s fun t =>
        t.dev.rd (Reg.MEM_SOURCE_CORRECTED src) = Min.min (s.dev.rd (Reg.MEM_SOURCE_CORRECTED src) + 1) (2 ^ 32 - 1) ∧
        t.dev.mem = { s.dev.mem with rewrites := s.dev.mem.rewrites ++ [⟨a.toNat / 32 * 32, correctedData l p v, false⟩] } ∧
        (∃ r, t.dev.log.reports = s.dev.log.reports ++ [r] ∧ r.kind = 1 ∧ r.subsrc = src ∧ r.addr = a.toNat / 32 * 32) ∧
        t.dev.shl = s.dev.shl) ∧
    (who = .patrol → decodeLine (a.toNat / 32 * 32) l = .uncorrectable → s.dev.rd (Reg.MEM_SOURCE_HANDLING src) = 0 →
      Completes (.memoryReadError a l who) s fun t =>
        t.dev.rd (Reg.MEM_SOURCE_UNCORRECTABLE src) = Min.min (s.dev.rd (Reg.MEM_SOURCE_UNCORRECTABLE src) + 1) (2 ^ 16 - 1) ∧
        t.dev.rd (Reg.MEM_SOURCE_HANDLING src) = 1 ∧ t.dev.rd (Reg.MEM_SOURCE_LEVEL src) = 1 ∧
        t.dev.mem.rewrites = s.dev.mem.rewrites ++ [⟨a.toNat / 32 * 32, l.take 32, true⟩] ∧ src ∈ t.dev.mem.escalated ∧
        t.dev.mem.mem = s.dev.mem.mem ∧
        (∃ r, t.dev.log.reports = s.dev.log.reports ++ [r] ∧ r.kind = 2 ∧ r.sev = 1 ∧ r.subsrc = src)) ∧
    (who = .patrol → decodeLine (a.toNat / 32 * 32) l = .uncorrectable → s.dev.rd (Reg.MEM_SOURCE_HANDLING src) = 1 →
      s.dev.rd (Reg.MEM_SOURCE_LEVEL src) = 1 → Completes (.memoryReadError a l who) s fun t =>
        let sh := if 0x60 ≤ src ∧ src < 0x70 then src - 0x60 else s.dev.inF Reg.ERR_CTRL_MEM_SHOAL
        t.dev.rd (Reg.MEM_SOURCE_LEVEL src) = 2 ∧ t.dev.rd (Reg.SHL_CTRL_DRAIN sh) = 1 ∧ t.dev.rd (Reg.SHL_FAULT_MEM sh) = 1) ∧
    (∀ th k, who = .thread th k → decodeLine (a.toNat / 32 * 32) l = .poisoned → Completes (.memoryReadError a l who) s fun t =>
      (∃ r, t.dev.log.reports = s.dev.log.reports ++ [r] ∧ r.kind = 4 ∧ r.thread = some th.toNat) ∧
      ((∀ x ∈ (s.dev.thr th.toNat).loads, x.undo = none) → t.dev.mem = s.dev.mem) ∧
      (∀ (x : MemAcc) old new, (s.dev.thr th.toNat).loads.find? (fun y => y.id == k) = some x → x.undo = some (old, new) →
        s.dev.bytes x.addr new.length = new → t.dev.bytes x.addr old.length = old) ∧
      (∀ u, u ≠ th.toNat → t.dev.thr u = s.dev.thr u) ∧
      (t.dev.thr th.toNat).loads = (s.dev.thr th.toNat).loads.map fun (x : MemAcc) =>
        if x.id = k then { x with fault := some (5, 1), back := some 0 } else x)

end Sys2Proof

/-- Memory training, sources, regions, scrub, the error ring and read errors: MemoryControl and ReadErrors. -/
def Obligations.MemoryRas : Prop :=
  Rules.MemoryControl ∧ Rules.ReadErrors

/-! Shoals -/

namespace Sys2Proof

/-- A write of a control bit of a shoal, core or thread: without the right it is discarded and logged; with it, where nothing stands against it,
the request waits for the boundary, and fields of fs may take values; where a booked thread of a shoal that is not drained stands against it,
the mark is set and the write is logged. -/
def ShoalRequest (c : Agent → Instr) (off : Nat) (a : Ask) (fs : List Fld) (stands : Dev → Bool) (mark : Fld) : Prop :=
  (∀ s ag, Live s → s.dev.mayWrite ag off = false → Completes (c ag) s (Discards ag off s)) ∧
  (∀ s ag, Live s → s.dev.mayWrite ag off = true → stands s.dev = false → Completes (c ag) s fun t =>
    t.dev.shl = { s.dev.shl with asks := s.dev.shl.asks ++ [a] } ∧ Becomes s t { s.dev with regs := t.dev.regs, shl := t.dev.shl } ∧
    FieldsKept fs s t) ∧
  (∀ s ag, Live s → s.dev.mayWrite ag off = true → stands s.dev = true → Completes (c ag) s fun t =>
    t.dev.rd mark = 1 ∧ LogsAnd [mark] (ctlRecord ag 0x14 off ((off - blockBase (blockOf off)) % 0x10000)) s t)

/-- A booked thread of a shoal that is not drained. -/
def Booked (t : Nat) (d : Dev) : Bool := d.protectedThread t

/-- THREAD_RESET, THREAD_START, THREAD_HALT, THREAD_RESUME, THREAD_STEP, CORE_RESET, CORE_RESET_RELEASE and SHOAL_RESET wait for the boundary that
ends the tick; resets, halts and steps of booked threads, and a reset of a shoal that is not drained, are refused, marked and logged
(R165 to R169). -/
def Rules.ShoalControl : Prop :=
  (∀ t : BitVec 10,
    let off := 0x100000 + t.toNat / 64 * 0x10000 + (0x800 + 0x20 * (t.toNat % 64))
    ShoalRequest (.threadReset · t) off (.reset t.toNat) [] (Booked t.toNat) (Reg.SHL_FAULT_RESET_REFUSED (t.toNat / 64)) ∧
    ShoalRequest (.threadHalt · t) off (.halt t.toNat) [] (Booked t.toNat) (Reg.SHL_FAULT_HALT_REFUSED (t.toNat / 64)) ∧
    ShoalRequest (.threadStep · t) off (.step t.toNat) [] (Booked t.toNat) (Reg.SHL_FAULT_HALT_REFUSED (t.toNat / 64)) ∧
    ShoalRequest (.threadStart · t) off (.start t.toNat) [] (fun _ => false) (Reg.SHL_FAULT_RESET_REFUSED 0) ∧
    ShoalRequest (.threadResume · t) off (.resume t.toNat) [] (fun _ => false) (Reg.SHL_FAULT_RESET_REFUSED 0)) ∧
  (∀ c : BitVec 7,
    let off := 0x100000 + c.toNat / 8 * 0x10000 + (0x408 + 0x20 * (c.toNat % 8))
    ShoalRequest (.coreReset · c) off (.coreReset c.toNat) [Reg.SHL_CORE_CORE_RESET (c.toNat / 8) (c.toNat % 8)]
      (fun d => (List.range 8).any fun k => d.protectedThread (c.toNat * 8 + k)) (Reg.SHL_FAULT_RESET_REFUSED (c.toNat / 8)) ∧
    (∀ s ag, Live s → s.dev.mayWrite ag off = true → s.dev.rd (Reg.SHL_CORE_CORE_RESET (c.toNat / 8) (c.toNat % 8)) ≠ 0 →
      Completes (.coreResetRelease ag c) s fun t =>
        t.dev.rd (Reg.SHL_CORE_CORE_RESET (c.toNat / 8) (c.toNat % 8)) = 0 ∧
        t.dev.shl = { s.dev.shl with asks := s.dev.shl.asks ++ [.coreRelease c.toNat] } ∧
        Becomes s t { s.dev with regs := t.dev.regs, shl := t.dev.shl } ∧
        FieldsKept [Reg.SHL_CORE_CORE_RESET (c.toNat / 8) (c.toNat % 8)] s t)) ∧
  (∀ sh : BitVec 4, ShoalRequest (.shoalReset · sh) (0x100000 + sh.toNat * 0x10000 + 8) (.shoalReset sh.toNat) []
    (fun d => d.rd (Reg.SHL_STATUS_DRAINED sh.toNat) == 0) (Reg.SHL_FAULT_RESET_REFUSED sh.toNat)) ∧
  (∀ s (sh : BitVec 4), Live s → s.dev.inF Reg.HDL_CONTROL_BWK_RELEASE ≠ 0 → s.dev.rd (Reg.SHL_STATUS_IN_RESET sh.toNat) ≠ 0 →
    Completes (.shoalRelease .headland sh) s fun t =>
      Becomes s t { s.dev with shl := { s.dev.shl with asks := s.dev.shl.asks ++ [.release sh.toNat] } }) ∧
  (∀ s ag sh, Live s → ag ≠ .headland → Completes (.shoalRelease ag sh) s (Discards ag 0xA00010 s))

/-- At the boundary: a halted thread keeps all but its waiting, a resumed one runs on with nothing parked, a reset thread has its reset values,
with its owed ticks and the count of its accesses; a started one runs privileged at its core's vector with its registers zero; a released
shoal shows RELEASED and not IN_RESET. No other thread changes (R165, R166, R169, R172). -/
def Rules.ThreadBoundary : Prop :=
  (∀ (d : Dev) th, (d.thr th).st = 1 →
    (d.applyAsk (.halt th)).thr th = { d.thr th with st := 2, waiting := false, waits := [], overrun := false, breaking := false } ∧
    ∀ u, u ≠ th → (d.applyAsk (.halt th)).thr u = d.thr u) ∧
  (∀ (d : Dev) th, (d.thr th).st = 2 → (d.thr th).parked = [] →
    (d.applyAsk (.resume th)).thr th = { d.thr th with st := 1 } ∧ ∀ u, u ≠ th → (d.applyAsk (.resume th)).thr u = d.thr u) ∧
  (∀ (d : Dev) th, (d.applyAsk (.reset th)).thr th =
      { nextLoad := (d.thr th).nextLoad, owed := (d.thr th).owed, credit := (d.thr th).credit } ∧
    ∀ u, u ≠ th → (d.applyAsk (.reset th)).thr u = d.thr u) ∧
  (∀ (d : Dev) th, (d.thr th).st = 0 → d.rd (Reg.SHL_STATUS_RELEASED (th / 64)) ≠ 0 →
    d.rd (Reg.SHL_CORE_CORE_RESET (th / 64) (th % 64 / 8)) = 0 →
    (d.applyAsk (.start th)).thr th =
      { nextLoad := (d.thr th).nextLoad, owed := (d.thr th).owed, credit := (d.thr th).credit, st := 1,
        pc := d.inF (Reg.SHL_CORE_VECTOR (th / 64) (th % 64 / 8)) * 4 } ∧
    ∀ u, u ≠ th → (d.applyAsk (.start th)).thr u = d.thr u) ∧
  (∀ (d : Dev) sh, sh < 16 → (d.applyAsk (.release sh)).rd (Reg.SHL_STATUS_RELEASED sh) = 1 ∧
    (d.applyAsk (.release sh)).rd (Reg.SHL_STATUS_IN_RESET sh) = 0 ∧
    (∀ u, u / 64 ≠ sh → (d.applyAsk (.release sh)).thr u = d.thr u)) ∧
  (∀ (d : Dev) ch, d.rd (Reg.SHL_CH_DISCARDED (ch / 512) (ch % 512)) < 2 ^ 32 →
    ((d.applyAsk (.chanOff ch)).chan ch).msgs = [] ∧ (∀ k, k ≠ ch → (d.applyAsk (.chanOff ch)).chan k = d.chan k) ∧
    (d.applyAsk (.chanOff ch)).rd (Reg.SHL_CH_DISCARDED (ch / 512) (ch % 512)) =
      Min.min (d.rd (Reg.SHL_CH_DISCARDED (ch / 512) (ch % 512)) + (d.chan ch).msgs.length) (2 ^ 32 - 1))

end Sys2Proof

/-- The control of shoals, cores and threads: ShoalControl and ThreadBoundary. -/
def Obligations.ShoalsAndThreads : Prop :=
  Rules.ShoalControl ∧ Rules.ThreadBoundary

/-- DEBUG_DATA_WRITE, CHANNEL_CONFIG, UNIT_POST, SHOAL_DRAINED and DEADLOCK: a halted thread's register takes a debug write; a channel that is
off takes endpoints and ENABLE, one that is on no endpoint, and a write of an invalid one is discarded and logged; a unit's messages that
no boundary has offered since their post enter their channel in order while it has room, and what finds none is offered again at the next; a draining idle shoal is drained; a stuck group is captured, marked and logged (R153, R154, R158,
R159, R163, R164, R169). -/
def Obligations.ShoalServices : Prop :=
  (∀ s ag (sh : BitVec 4) (v : BitVec 64), Live s →
    let off := 0x100000 + sh.toNat * 0x10000 + 0x70
    let th := sh.toNat * 64 + s.dev.inF (Reg.SHL_DBG_SELECT_THREAD sh.toNat)
    let item := s.dev.inF (Reg.SHL_DBG_SELECT_ITEM sh.toNat)
    (s.dev.mayWrite ag off = false → Completes (.debugDataWrite ag sh 2 v) s (Discards ag off s)) ∧
    (s.dev.mayWrite ag off = true → (s.dev.thr th).st = 2 → Completes (.debugDataWrite ag sh 2 v) s fun t =>
      (0 < item → item < 32 → t.dev.thr th = { s.dev.thr th with regs := Tab.set 0 (s.dev.thr th).regs item v }) ∧
      (item = 0x21 → t.dev.thr th = { s.dev.thr th with pc := v.toNat % 2 ^ 48 / 4 * 4 }) ∧
      (∀ u, u ≠ th → t.dev.thr u = s.dev.thr u) ∧ Becomes s t { s.dev with shl := { s.dev.shl with threads := t.dev.shl.threads } }) ∧
    (s.dev.mayWrite ag off = true → (s.dev.thr th).st ≠ 2 → Completes (.debugDataWrite ag sh 2 v) s fun t =>
      ∀ u, t.dev.thr u = s.dev.thr u)) ∧
  (∀ s ag (ch : BitVec 13) (v : BitVec 64), Live s →
    let sh := ch.toNat / 512
    let l := ch.toNat % 512
    let off := 0x100000 + sh * 0x10000 + (0x2000 + 0x10 * l)
    let en := v.toNat.testBit 31
    let prod := v.toNat / 2 ^ 12 % 2 ^ 12
    let cons := v.toNat % 2 ^ 12
    (s.dev.mayWrite ag off = false → Completes (.channelConfig ag ch 2 v) s (Discards ag off s)) ∧
    (s.dev.mayWrite ag off = true → s.dev.claimIndex ch.toNat ≠ none → Completes (.channelConfig ag ch 2 v) s fun t => t = s) ∧
    (s.dev.mayWrite ag off = true → s.dev.claimIndex ch.toNat = none → s.dev.rd (Reg.SHL_CH_ENABLE sh l) = 0 → validEnd prod = true →
      cons < 0x400 → Completes (.channelConfig ag ch 2 v) s fun t =>
        t.dev.rd (Reg.SHL_CH_ENABLE sh l) = (if en then 1 else 0) ∧ t.dev.rd (Reg.SHL_CH_PRODUCER sh l) = prod ∧
        t.dev.rd (Reg.SHL_CH_CONSUMER sh l) = cons ∧
        OnlyFields [Reg.SHL_CH_ENABLE sh l, Reg.SHL_CH_PRODUCER sh l, Reg.SHL_CH_CONSUMER sh l] s t) ∧
    (s.dev.mayWrite ag off = true → s.dev.claimIndex ch.toNat = none →
      prod ≠ s.dev.rd (Reg.SHL_CH_PRODUCER sh l) ∨ cons ≠ s.dev.rd (Reg.SHL_CH_CONSUMER sh l) →
      s.dev.rd (Reg.SHL_CH_ENABLE sh l) ≠ 0 ∨ validEnd prod = false ∨ 0x400 ≤ cons →
      Completes (.channelConfig ag ch 2 v) s (Discards ag off s)) ∧
    (s.dev.mayWrite ag off = true → s.dev.claimIndex ch.toNat = none → s.dev.rd (Reg.SHL_CH_ENABLE sh l) ≠ 0 →
      prod = s.dev.rd (Reg.SHL_CH_PRODUCER sh l) → cons = s.dev.rd (Reg.SHL_CH_CONSUMER sh l) → en = false →
      Completes (.channelConfig ag ch 2 v) s fun t =>
        t.dev.rd (Reg.SHL_CH_ENABLE sh l) = 0 ∧ t.dev.shl = { s.dev.shl with asks := s.dev.shl.asks ++ [.chanOff ch.toNat] } ∧
        Becomes s t { s.dev with regs := t.dev.regs, shl := t.dev.shl } ∧ FieldsKept [Reg.SHL_CH_ENABLE sh l] s t)) ∧
  (∀ s (ch : BitVec 13), Live s → s.dev.chanOn ch.toNat = true → (∀ m ∈ (s.dev.chan ch.toNat).held, m.unit = s.dev.chanProducer ch.toNat) →
    Completes (.unitPost ch) s fun t =>
      let c := s.dev.chan ch.toNat
      let due := c.held.filter fun m => m.next ≤ s.dev.clk.tick
      t.dev.chan ch.toNat =
        { msgs := c.msgs ++ (due.take (16 - c.msgs.length)).map (·.words),
          held := (due.drop (16 - c.msgs.length)).map (fun m => { m with next := s.dev.clk.tick + 1, tried := true }) ++
            c.held.filter (fun m => s.dev.clk.tick < m.next) } ∧
      (∀ k, k ≠ ch.toNat → t.dev.chan k = s.dev.chan k) ∧ Becomes s t { s.dev with chans := t.dev.chans, engOut := t.dev.engOut }) ∧
  (∀ s (ch : BitVec 13), Live s → s.dev.chanOn ch.toNat = false → Completes (.unitPost ch) s fun t =>
    t.dev.chan ch.toNat =
      { msgs := (s.dev.chan ch.toNat).msgs, held := (s.dev.chan ch.toNat).held.filter (fun m => s.dev.clk.tick < m.next) } ∧ (∀ k, k ≠ ch.toNat → t.dev.chan k = s.dev.chan k) ∧
    Becomes s t { s.dev with chans := t.dev.chans, engOut := t.dev.engOut }) ∧
  (∀ s (sh : BitVec 4), Live s → s.dev.rd (Reg.SHL_STATUS_DRAIN_ACTIVE sh.toNat) ≠ 0 → s.dev.shoalIdle sh.toNat = true →
    Completes (.shoalDrained sh) s fun t =>
      t.dev.rd (Reg.SHL_STATUS_DRAINED sh.toNat) = 1 ∧ OnlyFields [Reg.SHL_STATUS_DRAINED sh.toNat] s t) ∧
  (∀ s (sh : BitVec 4) (g : BitVec 3), Live s → s.dev.dlDue sh.toNat g.toNat = true → Completes (.deadlock sh g) s fun t =>
    (t.dev.rd (Reg.SHL_FAULT_DEADLOCK sh.toNat)).testBit g.toNat = true ∧ Interrupts .shl t ∧
    (s.dev.rd (Reg.SHL_FAULT_DEADLOCK sh.toNat) = 0 → t.dev.rd (Reg.SHL_DL_INFO_GROUP sh.toNat) = g.toNat ∧
      t.dev.rd (Reg.SHL_DL_INFO_CAPTURED_AT sh.toNat) = s.dev.clk.tide % 2 ^ 32 ∧ t.dev.rd (Reg.SHL_DL_INFO_LATER_LOST sh.toNat) = 0) ∧
    (s.dev.rd (Reg.SHL_FAULT_DEADLOCK sh.toNat) ≠ 0 → t.dev.rd (Reg.SHL_DL_INFO_LATER_LOST sh.toNat) = 1) ∧
    (∃ r, t.dev.log.reports = s.dev.log.reports ++ [r] ∧ r.kind = 0x19 ∧ r.source = 0x020 + sh.toNat ∧ r.detail = g.toNat) ∧
    Tab.get 0 t.dev.shl.counts (sh.toNat * 8 + g.toNat) = 0 ∧
    Becomes s t { s.dev with regs := t.dev.regs, log := t.dev.log, shl := { s.dev.shl with counts := t.dev.shl.counts } })

/-! Contracts, the governor, gate lists and policers -/

namespace Sys2Proof

/-- What a boundary made due is taken, and asked for no more. -/
def taken (x : Due) (s : State) : State :=
  { s with dev := { s.dev with clk := { s.dev.clk with due := s.dev.clk.due.filter (· != x) } } }

/-- A command that does what a boundary has made due, once; where it is not due, nothing happens. -/
def WhenDue (c : Instr) (x : Due) (P : State → State → Prop) : Prop :=
  (∀ s, Live s → s.dev.clk.due.contains x = true → Completes c s (P (taken x s))) ∧
  (∀ s, Live s → s.dev.clk.due.contains x = false → Completes c s fun t => t = s)

/-- Something waits for the next epoch boundary, beside what waited before. -/
def AsksEpoch (x : Due) (s t : State) : Prop :=
  ∀ y, t.dev.clk.reqEpoch.contains y = (y == x || s.dev.clk.reqEpoch.contains y)

/-- A write of BWK_CT_DATA or BWK_BUDGET_DATA that the function's frozen interface or the agent's right, or its check, stands against. -/
def RefusesContract (ag : Agent) (off : Nat) (s t : State) : Prop :=
  t.dev.rd (Reg.BWK_CT_DATA_WRITE_REFUSED 0) = 1 ∧
  LogsAnd [Reg.BWK_CT_DATA_WRITE_REFUSED 0] (ctlRecord ag 0x14 off ((off - blockBase (blockOf off)) % 0x10000)) s t

/-- BWK_CT_DATA, BWK_BUDGET_DATA and GOV_APPLY: a write without the right is discarded and logged; a contract of kind 0 or Slack, or an enabled
one whose bound is below its floor or above the horizon, and a budget of Slack, are refused, marked and logged; the contract or budget of a
function whose interface is frozen does not change; else the fields take their values, to be in force from the epoch boundary. A governor
write is limited to the policy in force, and CLAMPED shows it (R79, R93, R98, R99). -/
def Rules.ContractWrites : Prop :=
  (∀ s ag (v : BitVec 64), Live s →
    let tid := s.dev.inF Reg.BWK_CT_SELECT_TID
    let kind := s.dev.inF Reg.BWK_CT_SELECT_KIND
    let cls := s.dev.inF Reg.BWK_CT_SELECT_CLASS
    let k := tid * 32 + kind * 4 + cls
    let en := v.toNat.testBit 63
    let bound := v.toNat % 2 ^ 23
    let valid : Prop := kind ≠ 0 ∧ cls ≠ 3 ∧ (en = true → floorOf kind cls ≤ bound ∧ bound ≤ 4194048)
    let frozen : Prop := ag = .steward ∧ s.dev.rd (Reg.HST_TEN_TDI_STATE tid) ≠ 0
    (s.dev.mayWrite ag 0x20010 = false → Completes (.bwkCtData ag 2 v) s (Discards ag 0x20010 s)) ∧
    (s.dev.mayWrite ag 0x20010 = true → ¬ valid → Completes (.bwkCtData ag 2 v) s (RefusesContract ag 0x20010 s)) ∧
    (s.dev.mayWrite ag 0x20010 = true → valid → ¬ frozen → Completes (.bwkCtData ag 2 v) s fun t =>
      t.dev.rd (Reg.BWK_CT_DATA_ENABLE k) = (if en then 1 else 0) ∧ t.dev.rd (Reg.BWK_CT_DATA_BOUND k) = bound ∧
      (v.toNat.testBit 62 = true → Tab.get 0 s.dev.regs.hot (Reg.BWK_CT_DATA_WRITE_REFUSED 0).key = 0 →
        t.dev.rd (Reg.BWK_CT_DATA_WRITE_REFUSED 0) = 0) ∧
      (v.toNat.testBit 62 = false → t.dev.rd (Reg.BWK_CT_DATA_WRITE_REFUSED 0) = s.dev.rd (Reg.BWK_CT_DATA_WRITE_REFUSED 0)) ∧
      OnlyFields [Reg.BWK_CT_DATA_ENABLE k, Reg.BWK_CT_DATA_BOUND k, Reg.BWK_CT_DATA_WRITE_REFUSED 0] s t ∧
      ∀ f, t.dev.inF f = s.dev.inF f) ∧
    (s.dev.mayWrite ag 0x20010 = true → valid → frozen →
      s.dev.rd (Reg.BWK_CT_DATA_ENABLE k) < 2 → s.dev.rd (Reg.BWK_CT_DATA_BOUND k) < 2 ^ 23 →
      s.dev.rd (Reg.BWK_CT_DATA_BOUND k) ≠ bound → Completes (.bwkCtData ag 2 v) s (Discards ag 0x20010 s))) ∧
  (∀ s ag (v : BitVec 64), Live s →
    let tid := s.dev.inF Reg.BWK_BUDGET_SELECT_TID
    let cls := s.dev.inF Reg.BWK_BUDGET_SELECT_CLASS
    let k := tid * 4 + cls
    let frozen : Prop := ag = .steward ∧ s.dev.rd (Reg.HST_TEN_TDI_STATE tid) ≠ 0
    (s.dev.mayWrite ag 0x20020 = false → Completes (.bwkBudgetData ag 2 v) s (Discards ag 0x20020 s)) ∧
    (s.dev.mayWrite ag 0x20020 = true → cls = 3 → Completes (.bwkBudgetData ag 2 v) s (RefusesContract ag 0x20020 s)) ∧
    (s.dev.mayWrite ag 0x20020 = true → cls ≠ 3 → ¬ frozen → Completes (.bwkBudgetData ag 2 v) s fun t =>
      t.dev.rd (Reg.BWK_BUDGET_DATA_DEPTH k) = v.toNat / 2 ^ 32 ∧ t.dev.rd (Reg.BWK_BUDGET_DATA_RATE k) = v.toNat / 2 ^ 8 % 2 ^ 24 ∧
      OnlyFields [Reg.BWK_BUDGET_DATA_DEPTH k, Reg.BWK_BUDGET_DATA_RATE k] s t ∧ ∀ f, t.dev.inF f = s.dev.inF f) ∧
    (s.dev.mayWrite ag 0x20020 = true → cls ≠ 3 → frozen → s.dev.rd (Reg.BWK_BUDGET_DATA_DEPTH k) ≠ v.toNat / 2 ^ 32 →
      Completes (.bwkBudgetData ag 2 v) s (Discards ag 0x20020 s))) ∧
  (∀ s ag (v : BitVec 64), Live s →
    let fMin := s.dev.inF Reg.BWK_GOV_POLICY_F_MIN
    let fMax := Min.min 0xF0 (s.dev.inF Reg.BWK_GOV_POLICY_F_MAX)
    let hMin := s.dev.inF Reg.BWK_GOV_POLICY_H_MIN
    let hMax := s.dev.inF Reg.BWK_GOV_POLICY_H_MAX
    let b (lo : Nat) := v.toNat / 2 ^ lo % 256
    let f := Min.min fMax (Max.max fMin (b 56))
    let h (lo : Nat) := Min.min hMax (Max.max hMin (b lo))
    (s.dev.mayWrite ag 0x20038 = false → Completes (.govApply ag 2 v) s (Discards ag 0x20038 s)) ∧
    (s.dev.mayWrite ag 0x20038 = true → hMax < 256 → Completes (.govApply ag 2 v) s fun t =>
      t.dev.rd Reg.BWK_GOV_APPLY_F = f ∧ t.dev.rd Reg.BWK_GOV_APPLY_H_SPRING = h 40 ∧ t.dev.rd Reg.BWK_GOV_APPLY_H_FLOOD = h 32 ∧
      t.dev.rd Reg.BWK_GOV_APPLY_H_NEAP = h 24 ∧
      (f ≠ b 56 ∨ h 40 ≠ b 40 ∨ h 32 ≠ b 32 ∨ h 24 ≠ b 24 → (t.dev.rd Reg.BWK_GOV_STATUS_CLAMPED) = 1) ∧
      (f = b 56 → h 40 = b 40 → h 32 = b 32 → h 24 = b 24 → t.dev.rd Reg.BWK_GOV_STATUS_CLAMPED = s.dev.rd Reg.BWK_GOV_STATUS_CLAMPED) ∧
      Becomes s t { s.dev with regs := t.dev.regs, clk := { s.dev.clk with govWritten := true } } ∧ (∀ f, t.dev.inF f = s.dev.inF f) ∧
      FieldsKept [Reg.BWK_GOV_APPLY_F, Reg.BWK_GOV_APPLY_H_SPRING, Reg.BWK_GOV_APPLY_H_FLOOD, Reg.BWK_GOV_APPLY_H_NEAP,
        Reg.BWK_GOV_STATUS_CLAMPED] s t))

/-- GOV_STALE: without a governor write for 64 epochs the fraction falls to F_MIN, and at most F_HW, and every headroom is H_MAX; at each
epoch boundary F_HW follows the highest temperature of the epoch: F_MAX up to T_START, none from T_LIMIT on, in a line between, which at
T_LIMIT would meet F_MIN (R94, R96). -/
def Rules.Governor : Prop :=
  WhenDue .govStale .govStale (fun s t =>
    let hMax := s.dev.inF Reg.BWK_GOV_POLICY_H_MAX % 256
    t.dev.rd Reg.BWK_GOV_STATUS_GOV_STALE = 1 ∧
    t.dev.rd Reg.BWK_GOV_STATUS_F_EFF = Min.min (s.dev.inF Reg.BWK_GOV_POLICY_F_MIN) (s.dev.rd Reg.BWK_GOV_STATUS_F_HW) % 256 ∧
    t.dev.rd Reg.BWK_GOV_STATUS_H_SPRING_EFF = hMax ∧ t.dev.rd Reg.BWK_GOV_STATUS_H_FLOOD_EFF = hMax ∧
    t.dev.rd Reg.BWK_GOV_STATUS_H_NEAP_EFF = hMax ∧
    OnlyFields [Reg.BWK_GOV_STATUS_GOV_STALE, Reg.BWK_GOV_STATUS_F_EFF, Reg.BWK_GOV_STATUS_H_SPRING_EFF, Reg.BWK_GOV_STATUS_H_FLOOD_EFF,
      Reg.BWK_GOV_STATUS_H_NEAP_EFF] s t) ∧
  (∀ (d : Dev) q, d.mon.tMax = some q → d.inF Reg.BWK_GOV_POLICY_F_MIN ≤ d.fMax → d.inF Reg.BWK_GOV_POLICY_T_START < d.inF Reg.BWK_GOV_POLICY_T_LIMIT →
    let deg : Int := q / 4
    let lo : Int := d.inF Reg.BWK_GOV_POLICY_T_START
    let hi : Int := d.inF Reg.BWK_GOV_POLICY_T_LIMIT
    let fHw : Int := d.governorEpoch.rd Reg.BWK_GOV_STATUS_F_HW
    (deg ≤ lo → fHw = d.fMax) ∧ (hi ≤ deg → fHw = 0) ∧
    (lo < deg → deg < hi →
      fHw * (hi - lo) ≤ d.fMax * (hi - lo) - (d.fMax - d.inF Reg.BWK_GOV_POLICY_F_MIN) * (deg - lo) ∧
      d.fMax * (hi - lo) - (d.fMax - d.inF Reg.BWK_GOV_POLICY_F_MIN) * (deg - lo) < (fHw + 1) * (hi - lo)) ∧
    d.governorEpoch.mon.tMax = none)

end Sys2Proof

/-- Contracts, budgets and the governor: ContractWrites and Governor. -/
def Obligations.ContractsAndGovernor : Prop :=
  Rules.ContractWrites ∧ Rules.Governor

namespace Sys2Proof

/-- GATE_COMMIT, GATE_LIST_PEND, GATE_LIST_OPERATIONAL and GATE_TRANSITION: a commit by right stores the fields and asks for the list at the
epoch boundary; there a list that fails its check is refused, marked and logged, and one that passes is pending, to stand for the slots of the
epoch after; there it governs, and the registers show it; a gate takes what its list says of the time (R116 to R118). -/
def Rules.GateLists : Prop :=
  (∀ s ag (v : BitVec 64), Live s →
    let p := s.dev.inF Reg.CAL_GATE_SELECT_PORT
    (s.dev.mayWrite ag 0x40068 = false → Completes (.gateCommit ag 2 v) s (Discards ag 0x40068 s)) ∧
    (s.dev.mayWrite ag 0x40068 = true → v.toNat.testBit 63 = true → Completes (.gateCommit ag 2 v) s fun t =>
      t.dev.rd (Reg.CAL_GATE_CTRL_ADMIN_ENABLE p) = v.toNat / 2 ^ 62 % 2 ∧ t.dev.rd (Reg.CAL_GATE_CTRL_ADMIN_LEN p) = v.toNat % 2 ^ 11 ∧
      AsksEpoch (.gatePend p) s t ∧ t.dev.asker (.gatePend p) = ag ∧
      Becomes s t { s.dev with
        regs := t.dev.regs
        clk := { s.dev.clk with reqEpoch := t.dev.clk.reqEpoch, askers := t.dev.clk.askers } } ∧
      FieldsKept [Reg.CAL_GATE_CTRL_ADMIN_ENABLE p, Reg.CAL_GATE_CTRL_ADMIN_LEN p] s t) ∧
    (s.dev.mayWrite ag 0x40068 = true → v.toNat.testBit 63 = false → Completes (.gateCommit ag 2 v) s fun t =>
      t.dev.rd (Reg.CAL_GATE_CTRL_ADMIN_ENABLE p) = v.toNat / 2 ^ 62 % 2 ∧ t.dev.rd (Reg.CAL_GATE_CTRL_ADMIN_LEN p) = v.toNat % 2 ^ 11 ∧
      OnlyFields [Reg.CAL_GATE_CTRL_ADMIN_ENABLE p, Reg.CAL_GATE_CTRL_ADMIN_LEN p] s t)) ∧
  (∀ p : BitVec 4, WhenDue (.gateListPend p) (.gatePend p.toNat) fun s t =>
    let en := s.dev.inF (Reg.CAL_GATE_CTRL_ADMIN_ENABLE p.toNat)
    let n := s.dev.inF (Reg.CAL_GATE_CTRL_ADMIN_LEN p.toNat)
    let g : GateList := if en = 0 then {} else
      ⟨s.dev.inF (Reg.CAL_GATE_ADMIN_BASE p.toNat), (List.range n).map fun e => s.dev.inF (Reg.CAL_GATE_ENTRY_W p.toNat e)⟩
    let valid : Prop := en = 0 ∨ (1 ≤ n ∧ n ≤ 1024 ∧ g.base % 8 = 0 ∧ g.cycle < 2 ^ 32 ∧
      ∀ w ∈ g.entries, gateNs w % 8 = 0 ∧ 8 ≤ gateNs w)
    (valid → Tab.get none t.dev.cal.pend p.toNat = some g ∧ (∀ q, q ≠ p.toNat → Tab.get none t.dev.cal.pend q = Tab.get none s.dev.cal.pend q) ∧
      (∀ k, (s.dev.calTide / epochNs + 1) * epochNs ≤ s.dev.slotStart k → t.dev.gateListAt p.toNat k = some g) ∧ t.dev.rd (Reg.CAL_GATE_CTRL_PENDING p.toNat) = 1 ∧
      AsksEpoch (.gateOper p.toNat) s t ∧
      Becomes s t { s.dev with
        regs := t.dev.regs
        cal := { s.dev.cal with pend := t.dev.cal.pend }
        clk := { s.dev.clk with reqEpoch := t.dev.clk.reqEpoch } } ∧
      FieldsKept [Reg.CAL_GATE_CTRL_PENDING p.toNat] s t) ∧
    (¬ valid → t.dev.rd Reg.CAL_STATUS_GATE_REFUSED = 1 ∧
      LogsAnd [Reg.CAL_STATUS_GATE_REFUSED] (ctlRecord (s.dev.asker (.gatePend p.toNat)) 0x15 0x40068 0x68) s t)) ∧
  (∀ p : BitVec 4, WhenDue (.gateListOperational p) (.gateOper p.toNat) fun s t =>
    (∀ g, Tab.get none s.dev.cal.pend p.toNat = some g →
      Tab.get none t.dev.cal.oper p.toNat = (if g.entries.isEmpty then none else some g) ∧ Tab.get none t.dev.cal.pend p.toNat = none ∧
      t.dev.rd (Reg.CAL_GATE_CTRL_PENDING p.toNat) = 0 ∧
      t.dev.rd (Reg.CAL_GATE_CTRL_OPER_ENABLE p.toNat) = (if g.entries.isEmpty then 0 else 1) ∧
      t.dev.rd (Reg.CAL_GATE_CTRL_OPER_LEN p.toNat) = g.entries.length % 2 ^ 11 ∧
      t.dev.rd (Reg.CAL_GATE_CYCLE_OPER_CYCLE_NS p.toNat) = g.cycle % 2 ^ 32 ∧
      (∀ q, q ≠ p.toNat → Tab.get none t.dev.cal.oper q = Tab.get none s.dev.cal.oper q ∧
        Tab.get none t.dev.cal.pend q = Tab.get none s.dev.cal.pend q ∧ Tab.get 0xFFFF t.dev.cal.gates q = Tab.get 0xFFFF s.dev.cal.gates q) ∧
      Becomes s t { s.dev with
        regs := t.dev.regs
        cal := { s.dev.cal with oper := t.dev.cal.oper, pend := t.dev.cal.pend, gates := t.dev.cal.gates } } ∧
      FieldsKept [Reg.CAL_GATE_CTRL_PENDING p.toNat, Reg.CAL_GATE_CTRL_OPER_ENABLE p.toNat, Reg.CAL_GATE_CTRL_OPER_LEN p.toNat,
        Reg.CAL_GATE_CYCLE_OPER_CYCLE_NS p.toNat] s t) ∧
    (Tab.get none s.dev.cal.pend p.toNat = none → t = s)) ∧
  (∀ s (p : BitVec 4), Live s → Completes (.gateTransition p) s fun t =>
    let now := s.dev.clk.tide
    (Tab.get none s.dev.cal.oper p.toNat = none → Tab.get 0xFFFF t.dev.cal.gates p.toNat = 0xFFFF) ∧
    (∀ g, Tab.get none s.dev.cal.oper p.toNat = some g →
      (now < g.base → Tab.get 0xFFFF t.dev.cal.gates p.toNat = 0xFFFF) ∧
      (g.base ≤ now → ∀ before w after, g.entries = before ++ w :: after → (before.map gateNs).sum ≤ (now - g.base) % g.cycle →
        (now - g.base) % g.cycle < (before.map gateNs).sum + gateNs w →
        Tab.get 0xFFFF t.dev.cal.gates p.toNat = w / 2 ^ 32 % 2 ^ 16 + if w.testBit 63 then 65536 else 0)) ∧
    (∀ q, q ≠ p.toNat → Tab.get 0xFFFF t.dev.cal.gates q = Tab.get 0xFFFF s.dev.cal.gates q) ∧
    Becomes s t { s.dev with cal := { s.dev.cal with gates := t.dev.cal.gates } })

/-- POLICER_CHECK: a disabled policer is inactive; one whose settings stay keeps its tokens; one whose burst its contract's bound does not
allow is refused, marked and logged; one that finds no room in some slot of the horizon is marked, and the old settings stay; another is
active, with full buckets, or with those it had as far as its bursts allow (R124). -/
def Rules.PolicerCheck : Prop :=
  ∀ i : BitVec 12, WhenDue (.policerCheck i) (.policer i.toNat) fun s t =>
    let p := s.dev.policerSet i.toNat
    let old := Tab.get {} s.dev.cal.policers i.toNat
    let on := s.dev.inF (Reg.CAL_POL_ENABLE i.toNat) ≠ 0
    let kept := old.active = true ∧ samePolicer old p = true
    let fits := p.cbs ≤ ceilDiv p.cir 256 * (s.dev.contractBound p.tid 2 p.cls / 256 - 2)
    let without : Dev := s.dev.setPolicer i.toNat {}
    let room := ∀ n ∈ mergeNeeds (s.dev.policerNeeds p), ∀ k, k < 16384 → n.amt ≤ without.room n.res (s.dev.clk.slotSeq + 1 + k) p.cls
    let only := (∀ j, j ≠ i.toNat → Tab.get {} t.dev.cal.policers j = Tab.get {} s.dev.cal.policers j) ∧
      Becomes s t { s.dev with regs := t.dev.regs, cal := { s.dev.cal with policers := t.dev.cal.policers } } ∧
      FieldsKept [Reg.CAL_POL_ACTIVE i.toNat] s t
    (¬ on → Tab.get {} t.dev.cal.policers i.toNat = {} ∧ t.dev.rd (Reg.CAL_POL_ACTIVE i.toNat) = 0 ∧ only) ∧
    (on → kept → Tab.get {} t.dev.cal.policers i.toNat = { p with tc := old.tc, te := old.te, inline := old.inline } ∧
      t.dev.regs = s.dev.regs ∧ only) ∧
    (on → ¬ kept → ¬ fits → t.dev.rd Reg.CAL_STATUS_POL_REFUSED = 1 ∧
      LogsAnd [Reg.CAL_STATUS_POL_REFUSED] (ctlRecord (s.dev.asker (.policer i.toNat)) 0x15 0x40088 0x88) s t) ∧
    (on → ¬ kept → fits → ¬ room → t.dev.rd Reg.CAL_STATUS_POL_NO_ROOM = 1 ∧ OnlyFields [Reg.CAL_STATUS_POL_NO_ROOM] s t) ∧
    (on → ¬ kept → fits → room → t.dev.rd (Reg.CAL_POL_ACTIVE i.toNat) = 1 ∧
      Tab.get {} t.dev.cal.policers i.toNat = { p with
        tc := if old.active then Min.min old.tc (p.cbs * 256) else p.cbs * 256
        te := if old.active then Min.min old.te (p.ebs * 256) else p.ebs * 256 } ∧ only)

end Sys2Proof

/-- Gate lists and policers: GateLists and PolicerCheck. -/
def Obligations.GatesAndPolicers : Prop :=
  Rules.GateLists ∧ Rules.PolicerCheck

/-! The Breakwater pair -/

namespace Sys2Proof

/-- An alert of a unit sets, and the management interrupt rises. -/
def Alerts (f : Fld) (t : State) : Prop := t.dev.rd f = 1 ∧ Interrupts .bwk t

/-- A unit enters FAILED with a cause: it alerts, and BWK_FAILED is logged. -/
def UnitFails (u cause : Nat) (s t : State) : Prop :=
  t.dev.rd (Reg.BWK_UNIT_STATUS_STATE u) = 6 ∧ t.dev.rd (Reg.BWK_UNIT_STATUS_FAIL_CAUSE u) = cause ∧
  Alerts (Reg.BWK_UNIT_ALERT_FAILED u) t ∧
  LogsAnd [Reg.BWK_UNIT_STATUS_STATE u, Reg.BWK_UNIT_STATUS_FAIL_CAUSE u, Reg.BWK_UNIT_ALERT_FAILED u, Reg.HST_MGMT_CAUSE,
    Reg.HST_MGMT_PENDING_EVENTS] { source := 0x030, subsrc := u, kind := 0x20, sev := 2, detail := cause } s t

/-- A unit starts to copy. -/
def UnitCopies (u : Nat) (s t : State) : Prop :=
  t.dev.rd (Reg.BWK_UNIT_STATUS_STATE u) = 2 ∧ t.dev.rd (Reg.BWK_UNIT_STATUS_COPY_PROGRESS u) = 0 ∧
  OnlyFields [Reg.BWK_UNIT_STATUS_STATE u, Reg.BWK_UNIT_STATUS_COPY_PROGRESS u] s t

/-- The peer of the active unit lapses: LINK_ERRORS counts, it alerts, its copy is void, and it is to copy again at the epoch boundary. -/
def PeerLapses (p : Nat) (s t : State) : Prop :=
  t.dev.rd (Reg.BWK_UNIT_STATUS_STATE p) = 7 ∧
  t.dev.rd (Reg.BWK_UNIT_COUNTS_LINK_ERRORS p) = Min.min (s.dev.rd (Reg.BWK_UNIT_COUNTS_LINK_ERRORS p) + 1) 65535 ∧
  Alerts (Reg.BWK_UNIT_ALERT_LAPSED p) t ∧
  t.dev.pair = { s.dev.pair with other := {}, acked := false, lapses := (p, s.dev.clk.epochs) :: s.dev.pair.lapses } ∧
  t.dev.rd (Reg.BWK_UNIT_STATUS_LAPSES p) =
    Min.min 255 (1 + (s.dev.pair.lapses.filter fun x => x.1 == p && s.dev.clk.epochs < x.2 + 64).length) ∧
  AsksEpoch (.recopy p) s t ∧
  Becomes s t { s.dev with regs := t.dev.regs, pair := t.dev.pair, clk := { s.dev.clk with reqEpoch := t.dev.clk.reqEpoch } } ∧
  FieldsKept [Reg.BWK_UNIT_STATUS_STATE p, Reg.BWK_UNIT_COUNTS_LINK_ERRORS p, Reg.BWK_UNIT_ALERT_LAPSED p, Reg.HST_MGMT_CAUSE,
    Reg.HST_MGMT_PENDING_EVENTS, Reg.BWK_UNIT_STATUS_LAPSES p] s t

/-- JOURNAL_APPLY, STANDBY_LAPSE, LAPSED_RECOPY, ACTIVE_CHECK_FAIL and DRAINING_UNIT_CHECK_FAIL. A journal that is whole makes a standby's
copy the active unit's state, and is acknowledged; a unit that catches up follows without. A code error or a missing acknowledgement makes a
standing, copying or catching-up peer lapse; it copies again at the epoch boundary, unless it lapsed three times in 64 epochs, when it fails.
A fault of the active unit makes the tick's journal void: nothing of the tick stands, and its inputs wait. As the next tick begins the unit
fails, and the standby decides; without one the device is in breakwater lost, the releases stand and the requests are refused (R130 to R137,
R139). Which of two causes of one tick stands is the model's choice (log 185). -/
def Rules.JournalAndTakeover : Prop :=
  (∀ s a, Live s → s.dev.activeUnit = some a → s.dev.pair.void = none →
    let p := peerOf a
    let now := s.dev.clk.tide % 2 ^ 32
    (s.dev.unitState p = 4 → Completes (.journalApply false) s fun t =>
      t.dev.pair = { s.dev.pair with other := s.dev.adm, acked := true } ∧ t.dev.rd (Reg.BWK_UNIT_JOURNAL_LAST_TICK a) = now ∧
      t.dev.rd (Reg.BWK_UNIT_JOURNAL_LAST_TICK p) = now ∧ Becomes s t { s.dev with regs := t.dev.regs, pair := t.dev.pair } ∧
      FieldsKept [Reg.BWK_UNIT_JOURNAL_LAST_TICK a, Reg.BWK_UNIT_JOURNAL_LAST_TICK p] s t) ∧
    (s.dev.unitState p = 3 → Completes (.journalApply false) s fun t =>
      t.dev.pair = { s.dev.pair with other := s.dev.adm } ∧ t.dev.rd (Reg.BWK_UNIT_JOURNAL_LAST_TICK a) = now ∧
      Becomes s t { s.dev with regs := t.dev.regs, pair := t.dev.pair } ∧ FieldsKept [Reg.BWK_UNIT_JOURNAL_LAST_TICK a] s t) ∧
    (s.dev.unitState p ≠ 3 → s.dev.unitState p ≠ 4 → Completes (.journalApply false) s fun t =>
      t.dev.rd (Reg.BWK_UNIT_JOURNAL_LAST_TICK a) = now ∧ OnlyFields [Reg.BWK_UNIT_JOURNAL_LAST_TICK a] s t) ∧
    (∀ c, c = .standbyLapse ∨ c = .journalApply true →
      (s.dev.unitState p = 2 ∨ s.dev.unitState p = 3 ∨ s.dev.unitState p = 4 → Completes c s (PeerLapses p s)) ∧
      (s.dev.unitState p ≠ 2 → s.dev.unitState p ≠ 3 → s.dev.unitState p ≠ 4 → Completes c s fun t => t = s))) ∧
  (∀ s c, Live s → s.dev.pair.void.isSome = true → c = .standbyLapse ∨ c = .journalApply true ∨ c = .journalApply false →
    Completes c s fun t => t = s) ∧
  (∀ u : BitVec 1, WhenDue (.lapsedRecopy u) (.recopy u.toNat) fun s t =>
    let n := (s.dev.pair.lapses.filter fun x => x.1 == u.toNat && s.dev.clk.epochs - 1 < x.2 + 64).length
    (s.dev.unitState u.toNat = 7 → n < 3 → UnitCopies u.toNat s t) ∧ (s.dev.unitState u.toNat = 7 → 3 ≤ n → UnitFails u.toNat 6 s t) ∧
    (s.dev.unitState u.toNat ≠ 7 → t = s)) ∧
  (∀ s (cause : BitVec 3), Live s →
    (s.dev.activeUnit ≠ none → 1 ≤ cause.toNat → cause.toNat ≤ 4 → Completes (.activeCheckFail cause) s fun t =>
      Becomes s t { s.dev with pair := { s.dev.pair with void := some cause.toNat } }) ∧
    (s.dev.activeUnit = none ∨ cause = 0 ∨ 4 < cause.toNat → Completes (.activeCheckFail cause) s fun t => t = s)) ∧
  (∀ (d : Dev) before cause, d.pair.void = some cause → d.activeUnit ≠ none →
    d.voidTick before = { d with
      adm := before
      pair := { d.pair with
        inputs := [], decisions := [], void := none, acked := false, failing := some cause, replay := d.pair.inputs } }) ∧
  (∀ (d : Dev) a cause, d.pair.failing = some cause → d.activeUnit = some a → cause < 8 →
    d.takeOver.pair.failing = none ∧ d.takeOver.unitState a = 6 ∧ d.takeOver.rd (Reg.BWK_UNIT_STATUS_FAIL_CAUSE a) = cause) ∧
  (∀ (d : Dev) a cause, d.pair.failing = some cause → d.activeUnit = some a → d.unitState (peerOf a) = 4 →
    d.takeOver.unitState (peerOf a) = 5 ∧ d.takeOver.adm = d.adm ∧ d.takeOver.pair.replay = d.pair.replay ∧
    d.takeOver.rd (Reg.BWK_UNIT_COUNTS_TAKEOVERS (peerOf a)) = Min.min (d.rd (Reg.BWK_UNIT_COUNTS_TAKEOVERS (peerOf a)) + 1) 65535 ∧
    d.takeOver.lost = d.lost) ∧
  (∀ (d : Dev) a cause, d.pair.failing = some cause → d.activeUnit = some a → d.unitState (peerOf a) ≠ 4 → d.unitState (peerOf a) ≠ 5 →
    d.takeOver.lost = true ∧ d.takeOver.pair.draining = some a ∧ d.takeOver.activeUnit = none ∧
    d.takeOver.adm = { d.adm with waiting := [] } ∧ d.takeOver.pair.replay = releasesOf d.pair.replay ∧
    d.takeOver.pair.refuse = d.adm.waiting ++ requestsOf d.pair.replay) ∧
  (∀ s (cause : BitVec 3) u, Live s → s.dev.pair.draining = some u → 1 ≤ cause.toNat → cause.toNat ≤ 3 →
    Completes (.drainingUnitCheckFail cause) s fun t => Interrupts .bwk t ∧
      LogsAnd [Reg.HST_MGMT_CAUSE, Reg.HST_MGMT_PENDING_EVENTS]
        { source := 0x030, subsrc := u, kind := 0x20, sev := 2, detail := cause.toNat } s t) ∧
  (∀ s (cause : BitVec 3), Live s → s.dev.pair.draining = none ∨ cause = 0 ∨ 3 < cause.toNat →
    Completes (.drainingUnitCheckFail cause) s fun t => t = s)

/-- SWAP, SWAP_EXCHANGE, RESET_UNIT, UNIT_BIST_DONE, UNIT_COPY_DONE, UNIT_STANDBY_ENTER, RECOVER, RECOVER_ACTIVATE and
BREAKWATER_LOST_CLEAR. A swap is taken in the active unit while its peer stands by, and exchanges the roles at the slot boundary. A failed or
lapsed unit can be reset into BIST, but the draining one only when nothing is in flight; BIST that passes leads to COPY, that to CATCHUP, and
the next epoch boundary to STANDBY. A unit in OFF recovers a lost device at the epoch boundary, with empty tables; the epoch boundary after
ends breakwater lost while that unit decides (R129, R138, R140, R141). Which of two RECOVERs before one boundary takes effect, and how long a
unit catches up, are the model's choice (logs 186 and 187). -/
def Rules.SwapAndRepair : Prop :=
  (∀ s ag (u : BitVec 1), Live s →
    let off := 0x20208 + 0x10000 * u.toNat
    let alert (f : Fld) (t : State) : Prop := Alerts f t ∧ OnlyFields [f, Reg.HST_MGMT_CAUSE, Reg.HST_MGMT_PENDING_EVENTS] s t
    let recovers : Prop := s.dev.lost = true ∧ s.dev.unitState u.toNat = 0 ∧ s.dev.adm.entries = [] ∧ s.dev.activeUnit = none ∧
      s.dev.rd Reg.ERR_STATUS_FATAL = 0
    (s.dev.mayWrite ag off = false → ∀ c, c = .swap ag u ∨ c = .resetUnit ag u ∨ c = .recover ag u → Completes c s (Discards ag off s)) ∧
    (s.dev.mayWrite ag off = true → s.dev.activeUnit = some u.toNat → s.dev.unitState (peerOf u.toNat) = 4 →
      Completes (.swap ag u) s fun t => (∀ y, t.dev.clk.reqSlot.contains y = (y == .swap || s.dev.clk.reqSlot.contains y)) ∧
        Becomes s t { s.dev with clk := { s.dev.clk with reqSlot := t.dev.clk.reqSlot } }) ∧
    (s.dev.mayWrite ag off = true → ¬ (s.dev.activeUnit = some u.toNat ∧ s.dev.unitState (peerOf u.toNat) = 4) →
      Completes (.swap ag u) s (alert (Reg.BWK_UNIT_ALERT_SWAP_REFUSED u.toNat))) ∧
    (s.dev.mayWrite ag off = true → s.dev.unitState u.toNat = 6 ∨ s.dev.unitState u.toNat = 7 →
      s.dev.pair.draining ≠ some u.toNat ∨ s.dev.adm.entries = [] → Completes (.resetUnit ag u) s fun t =>
        t.dev.unitState u.toNat = 1 ∧
        t.dev.pair = { s.dev.pair with draining := if s.dev.pair.draining = some u.toNat then none else s.dev.pair.draining } ∧
        Becomes s t { s.dev with regs := t.dev.regs, pair := t.dev.pair } ∧ FieldsKept [Reg.BWK_UNIT_STATUS_STATE u.toNat] s t) ∧
    (s.dev.mayWrite ag off = true → (s.dev.unitState u.toNat ≠ 6 ∧ s.dev.unitState u.toNat ≠ 7) ∨
      (s.dev.pair.draining = some u.toNat ∧ s.dev.adm.entries ≠ []) → Completes (.resetUnit ag u) s (Discards ag off s)) ∧
    (s.dev.mayWrite ag off = true → recovers → Completes (.recover ag u) s fun t =>
      AsksEpoch (.recover u.toNat) s t ∧ Becomes s t { s.dev with clk := { s.dev.clk with reqEpoch := t.dev.clk.reqEpoch } }) ∧
    (s.dev.mayWrite ag off = true → ¬ recovers → Completes (.recover ag u) s (alert (Reg.BWK_UNIT_ALERT_RECOVER_REFUSED u.toNat)))) ∧
  WhenDue .swapExchange .swap (fun s t => ∀ a, s.dev.activeUnit = some a →
    (s.dev.unitState (peerOf a) = 4 → t.dev.unitState a = 4 ∧ t.dev.unitState (peerOf a) = 5 ∧
      OnlyFields [Reg.BWK_UNIT_STATUS_STATE a, Reg.BWK_UNIT_STATUS_STATE (peerOf a)] s t) ∧
    (s.dev.unitState (peerOf a) ≠ 4 → Alerts (Reg.BWK_UNIT_ALERT_SWAP_REFUSED a) t)) ∧
  (∀ s (u : BitVec 1) pass, Live s →
    let w (s : State) : State := { s with dev := { s.dev with boot :=
      if u = 0 then { s.dev.boot with bistA := some pass } else { s.dev.boot with bistB := some pass } } }
    (s.dev.released = false → Completes (.unitBistDone u pass) s fun t =>
      (pass = true → t.dev.unitState u.toNat = 0 ∧ OnlyFields [Reg.BWK_UNIT_STATUS_STATE u.toNat] (w s) t) ∧
      (pass = false → UnitFails u.toNat 5 (w s) t)) ∧
    (s.dev.released = true → s.dev.unitState u.toNat = 1 → Completes (.unitBistDone u pass) s fun t =>
      (pass = false → UnitFails u.toNat 5 s t) ∧
      (pass = true → s.dev.lost = true → t.dev.unitState u.toNat = 0 ∧ OnlyFields [Reg.BWK_UNIT_STATUS_STATE u.toNat] s t) ∧
      (pass = true → s.dev.lost = false → UnitCopies u.toNat s t)) ∧
    (s.dev.released = true → s.dev.unitState u.toNat ≠ 1 → Completes (.unitBistDone u pass) s fun t => t = s)) ∧
  (∀ s (u : BitVec 1), Live s → s.dev.unitState u.toNat = 2 → s.dev.activeUnit = some (peerOf u.toNat) →
    Completes (.unitCopyDone u) s fun t =>
      t.dev.unitState u.toNat = 3 ∧ t.dev.rd (Reg.BWK_UNIT_STATUS_COPY_PROGRESS u.toNat) = 256 ∧
      t.dev.pair = { s.dev.pair with other := s.dev.adm } ∧ AsksEpoch (.standbyEnter u.toNat) s t ∧
      Becomes s t { s.dev with
        regs := t.dev.regs, pair := t.dev.pair
        clk := { s.dev.clk with reqEpoch := t.dev.clk.reqEpoch } } ∧
      FieldsKept [Reg.BWK_UNIT_STATUS_STATE u.toNat, Reg.BWK_UNIT_STATUS_COPY_PROGRESS u.toNat] s t) ∧
  (∀ s (u : BitVec 1), Live s → s.dev.unitState u.toNat ≠ 2 ∨ s.dev.activeUnit ≠ some (peerOf u.toNat) →
    Completes (.unitCopyDone u) s fun t => t = s) ∧
  (∀ u : BitVec 1, WhenDue (.unitStandbyEnter u) (.standbyEnter u.toNat) fun s t =>
    (s.dev.unitState u.toNat = 3 → t.dev.unitState u.toNat = 4 ∧ Alerts (Reg.BWK_UNIT_ALERT_SYNC_DONE u.toNat) t ∧
      t.dev.pair = { s.dev.pair with other := s.dev.adm } ∧ Becomes s t { s.dev with regs := t.dev.regs, pair := t.dev.pair } ∧
      FieldsKept [Reg.BWK_UNIT_STATUS_STATE u.toNat, Reg.BWK_UNIT_ALERT_SYNC_DONE u.toNat, Reg.HST_MGMT_CAUSE, Reg.HST_MGMT_PENDING_EVENTS] s t) ∧
    (s.dev.unitState u.toNat ≠ 3 → t = s)) ∧
  (∀ u : BitVec 1, WhenDue (.recoverActivate u) (.recover u.toNat) fun s t =>
    (s.dev.lost = true → s.dev.unitState u.toNat = 0 → s.dev.activeUnit = none →
      t.dev.unitState u.toNat = 5 ∧ t.dev.adm = { counts := s.dev.adm.counts } ∧
      t.dev.pair = { s.dev.pair with draining := none, other := {} } ∧ t.dev.cal = { s.dev.cal with policers := [] } ∧
      (s.dev.unitState (peerOf u.toNat) = 0 → t.dev.unitState (peerOf u.toNat) = 2) ∧ AsksEpoch .lostClear s t ∧
      (∀ i, i < 4096 → s.dev.inF (Reg.CAL_POL_ENABLE i) ≠ 0 →
        t.dev.clk.due.contains (.policer i) = true ∧ t.dev.rd (Reg.CAL_POL_ACTIVE i) = 0) ∧
      Becomes s t { s.dev with
        regs := t.dev.regs, adm := t.dev.adm, pair := t.dev.pair, cal := t.dev.cal
        clk := { s.dev.clk with reqEpoch := t.dev.clk.reqEpoch, due := t.dev.clk.due } }) ∧
    (s.dev.lost = false ∨ s.dev.unitState u.toNat ≠ 0 ∨ s.dev.activeUnit ≠ none → t = s)) ∧
  WhenDue .breakwaterLostClear .lostClear (fun s t =>
    (s.dev.activeUnit ≠ none → t.dev.rd Reg.DEV_STATUS_BREAKWATER_LOST = 0 ∧ OnlyFields [Reg.DEV_STATUS_BREAKWATER_LOST] s t) ∧
    (s.dev.activeUnit = none → t = s))

end Sys2Proof

/-- The Breakwater pair: JournalAndTakeover and SwapAndRepair. -/
def Obligations.BreakwaterPair : Prop :=
  Rules.JournalAndTakeover ∧ Rules.SwapAndRepair

/-! Admission and work -/

namespace Sys2Proof

/-- What stands against a request of any class, in the order of the test: whether it holds, and the status and detail it gives. -/
def anyRefusal (d : Dev) (q : Req) : List (Bool × Nat × Nat) :=
  [(d.lost, 5, 0), (d.admitHeld, 4, 1), (d.rd Reg.HDL_STATUS_HOLDUP_STOP != 0, 4, 2), (!d.wellFormed q, 3, 4), (!d.featurePresent q, 3, 2),
   ((d.namedSlot q).any (fun p => d.rd (Reg.CRY_SLOT_STATE p.1) == 3), 0x31, 1)]

/-- What stands against a booking beside that. -/
def bookingRefusal (d : Dev) (q : Req) : List (Bool × Nat × Nat) :=
  [(d.inF (Reg.BWK_CT_DATA_ENABLE (ctKey q.tid q.kind q.cls)) == 0, 3, 1),
   (q.cls == 0 && d.readsHost q && decide (1500 < d.inF Reg.BWK_ENV_HOST_READ_BOUND), 4, 3), (d.envDown q != 0, 4, d.envDown q),
   (decide (4194048 < d.bound q), 3, 3), (decide (Tab.get 0 d.adm.tokens (q.tid * 4 + q.cls) < cost q), 1, 0),
   (decide (65536 ≤ d.adm.entries.length), 2, 0x1000),
   (decide (d.inF Reg.CAL_RESERVES_PKT_BOOKED_MIB * 1048576 < d.adm.space + d.spaceOf q), 2, 0x200)]

/-- What stands against a Slack request beside that: a backend that is not available, or a connection that has failed (log 183). -/
def slackRefusal (d : Dev) (q : Req) : List (Bool × Nat × Nat) := [(d.peerDown q != 0, 4, d.peerDown q)]

/-- The first of the grounds that holds gives status st and detail k. -/
def FirstGround (l : List (Bool × Nat × Nat)) (st k : Nat) : Prop :=
  ∃ before after, l = before ++ (true, st, k) :: after ∧ ∀ y ∈ before, y.1 = false

/-- No ground holds. -/
def NoGround (l : List (Bool × Nat × Nat)) : Prop := ∀ y ∈ l, y.1 = false

/-- The slots in which a booking is searched, and what the search answers. -/
def searched (d : Dev) (q : Req) : Except Nat (List Hold) :=
  takeStages (fun r t => d.room r t q.cls) (d.lastSlot (q.time + d.bound q) q.cls) (Max.max (d.clk.slotSeq + 1) (d.orderedFrom q)) (d.planOf q)

/-- A request is decided by the state before it, d; z is the decision, and a the admission state after it. -/
def Decided (d : Dev) (q : Req) (z : Decision) (a : Adm) : Prop :=
  let cls := if q.cls = 3 then 2 else q.cls
  let counted (n : Nat) := (∀ k, k < 1000 → Tab.get 0 a.counts k = Tab.get 0 d.adm.counts k + if k = cls * 8 + n then 1 else 0)
  (∀ st k, FirstGround (anyRefusal d q ++ if q.cls = 3 then slackRefusal d q else bookingRefusal d q) st k →
    z.status = st ∧ z.detail = k ∧ z.entry = none ∧ z.slack = false ∧ a.entries = d.adm.entries ∧ a.tokens = d.adm.tokens ∧
    (st ≤ 5 → counted st) ∧ (5 < st → a.counts = d.adm.counts)) ∧
  (q.cls = 3 → NoGround (anyRefusal d q ++ slackRefusal d q) → z.status = 0 ∧ z.slack = true ∧ z.entry = none ∧ z.promise = 0 ∧
    a.entries = d.adm.entries ∧ a.tokens = d.adm.tokens ∧ a.counts = d.adm.counts) ∧
  (q.cls ≠ 3 → NoGround (anyRefusal d q ++ bookingRefusal d q) →
    (∀ k, searched d q = .error k → z.status = 2 ∧ z.detail = k ∧ z.entry = none ∧ a.entries = d.adm.entries ∧ a.tokens = d.adm.tokens ∧
      counted 2) ∧
    (∀ h, searched d q = .ok h → z.status = 0 ∧ z.slack = false ∧ z.promise = q.time + d.bound q ∧ counted 0 ∧
      a.tokens = Tab.upd 0 d.adm.tokens (q.tid * 4 + q.cls) (· - cost q) ∧
      ∃ e, a.entries = d.adm.entries ++ [e] ∧ z.entry = some e.ix ∧ e.ix < 65536 ∧ (∀ x ∈ d.adm.entries, x.ix < 65536 → x.ix ≠ e.ix) ∧
        e.op = q.id ∧ e.kind = q.kind ∧ e.cls = q.cls ∧ e.tid = q.tid ∧ e.src = q.src ∧ e.tag = q.desc.tag.toNat ∧ e.admitted = q.time ∧
        e.promise = z.promise ∧ e.holds = h ∧ e.space = d.spaceOf q))

/-- A request as it is sampled takes HOST_READ_BOUND, and a storage command its namespace's backend, size and STRICT, and that backend's
declared bound and timeout (R13, R338, R354). -/
def sampled (d : Dev) (q : Req) : Req :=
  let q := { q with readBound := d.inF Reg.BWK_ENV_HOST_READ_BOUND }
  let k := q.tid * 32 + (d.reqNs q - 1)
  let b := d.inF (Reg.STG_NS_BACKEND k)
  if q.kind = 6 then { q with
    backend := b, bound := d.inF (Reg.STG_BE_BOUND_NS b), strict := d.inF (Reg.STG_NS_STRICT k) != 0, lbas := d.inF (Reg.STG_NS_SIZE_LBAS k)
    timeout := Max.max 1 (Min.min 10000 (d.inF (Reg.STG_BE_TIMEOUT_MS b))) * 1000000 } else q

/-- A command makes a request: with a decision of the tick left and none waiting it is decided at once; with none left it waits. -/
def Asks (c : Instr) (s : State) (asked : Req) : Prop :=
  let q := sampled s.dev asked
  (s.dev.deciding = true → s.dev.adm.waiting = [] → s.dev.adm.decided < 32 → Completes c s fun t =>
    ∃ z, t.dev.pair = { s.dev.pair with decisions := s.dev.pair.decisions ++ [z], inputs := s.dev.pair.inputs ++ [.request q] } ∧
      z.req = q ∧ Decided s.dev q z t.dev.adm ∧ t.dev.nextOp = s.dev.nextOp + 1 ∧ t.dev.adm.waiting = [] ∧
      t.dev.adm.decided = s.dev.adm.decided + 1 ∧
      Becomes s t { s.dev with free := t.dev.free, nextOp := t.dev.nextOp, adm := t.dev.adm, pair := t.dev.pair }) ∧
  (32 ≤ s.dev.adm.decided → Completes c s fun t =>
    Becomes s t { s.dev with
      nextOp := s.dev.nextOp + 1
      adm := { s.dev.adm with waiting := s.dev.adm.waiting ++ [q] }
      pair := { s.dev.pair with inputs := s.dev.pair.inputs ++ [.request q] } })

/-- A native descriptor that reaches Breakwater is the next operation's request. -/
def Samples (c : Instr) (kind code : Nat) (tid : BitVec 9) (ring : BitVec 6) (head : BitVec 16) (x : Desc) : Prop :=
  ∀ s, Live s → Asks c s
    { id := s.dev.nextOp, kind := kind, code := code, cls := x.cls.toNat, tid := tid.toNat, src := 0x010 + tid.toNat / 256,
      org := .ring ring.toNat head.toNat, desc := x, tick := s.dev.clk.tick, time := s.dev.clk.tide }

/-- TX, SWW, SWR, the storage commands and the cipher commands of a submission ring are put through the admission test in its order; a booking
that finds room in time for its promise has its entry, its tokens are paid, and its promise is its admission time with its bound; a refusal
says why; Slack is taken without a booking (R78, R80, R82, R83, R304, R337, R344, R359). -/
def Rules.Submissions : Prop :=
  ∀ tid ring head x,
    Samples (.tx tid ring head x) 1 0 tid ring head x ∧ Samples (.sww tid ring head x) 3 0 tid ring head x ∧
    Samples (.swr tid ring head x) 5 0 tid ring head x ∧ Samples (.stFlush tid ring head x) 6 0 tid ring head x ∧
    Samples (.stWrite tid ring head x) 6 1 tid ring head x ∧ Samples (.stRead tid ring head x) 6 2 tid ring head x ∧
    Samples (.stWriteZeroes tid ring head x) 6 8 tid ring head x ∧ Samples (.stDatasetManagement tid ring head x) 6 9 tid ring head x ∧
    Samples (.cyEncrypt tid ring head x) 7 0 tid ring head x ∧ Samples (.cyDecrypt tid ring head x) 7 1 tid ring head x ∧
    Samples (.cyMacGenerate tid ring head x) 7 2 tid ring head x ∧ Samples (.cyMacVerify tid ring head x) 7 3 tid ring head x

/-- The amount that bookings hold of a resource in a slot. -/
def holding (h : List Hold) (r : Res) (slot : Nat) : Nat := ((h.filter fun x => x.res = r ∧ x.slot = slot).map (·.amt)).sum

end Sys2Proof

/-- What a search books, over any room: every stage has all it needs, in slots of the search; no slot of any resource is overdrawn; and a
stage books only after the stage before it, with that one's wait between (R74, R81, R82). -/
def Obligations.BookingsFit : Prop :=
  ∀ (room : Res → Nat → Nat) last first (plan : List Stage) h,
    (plan.map (·.no)).Nodup → (∀ st ∈ plan, (st.needs.map (·.res)).Nodup) → takeStages room last first plan = .ok h →
    (∀ x ∈ h, first ≤ x.slot ∧ x.slot ≤ last) ∧ (∀ r slot, holding h r slot ≤ room r slot) ∧
    (∀ st ∈ plan, ∀ n ∈ st.needs, ((h.filter fun x => x.res = n.res ∧ x.stage = st.no).map (·.amt)).sum = n.amt) ∧
    (∀ before a b after, plan = before ++ a :: b :: after → ∀ x ∈ h, x.stage = a.no → ∀ y ∈ h, y.stage = b.no →
      x.slot + ceilDiv a.wait 256 < y.slot)

namespace Sys2Proof

/-- The operation that an accepted decision becomes, with what its entry has booked. -/
def opOf (a : Adm) (x : Decision) : Op :=
  { req := x.req, admitted := x.req.time, promise := x.promise, slack := x.slack, entry := x.entry, plan := x.plan,
    booked := ((a.entries.find? fun e => e.op == x.req.id).map (·.holds)).getD [],
    waiting := stWaits x.req.kind (x.plan.head?.map (·.no)) }

/-- Whether a decision answers a thread's BOOK. -/
def ofBook (x : Decision) : Bool :=
  match x.req.org with
  | .book _ _ _ => true
  | .ring _ _ | .nvme _ _ | .sub _ _ _ | .wire _ => false

/-- DECISION_TAKE_EFFECT and BOOK_DECISION: while inputs of the tick still wait, a standby has not acknowledged the journal, or it is void,
nothing shows. Else every accepted operation begins, in order, and no decision is left; a refusal of a ring is written there as its completion, with the boundary's time; a BOOK
is answered on its channel (R89, R131, R225). -/
def Rules.Decisions : Prop :=
  (∀ s c, Live s → c = .decisionTakeEffect ∨ c = .bookDecision →
    s.pending ≠ [] ∨ s.dev.pair.void ≠ none ∨ (s.dev.peerStandby = true ∧ s.dev.pair.acked = false) → Completes c s fun t => t = s) ∧
  (∀ s, Live s → s.pending = [] → s.dev.pair.void = none → s.dev.peerStandby = false ∨ s.dev.pair.acked = true →
    Completes .decisionTakeEffect s (fun t =>
      t.dev.ops = s.dev.ops ++ (s.dev.pair.decisions.filter (·.status == 0)).map (opOf s.dev.adm) ∧ t.dev.pair = { s.dev.pair with decisions := [] } ∧
      t.dev.adm = s.dev.adm ∧ t.dev.clk = s.dev.clk ∧ t.dev.mem = s.dev.mem) ∧
    Completes .bookDecision s (fun t =>
      t.dev.ops = s.dev.ops ++ ((s.dev.pair.decisions.filter ofBook).filter (·.status == 0)).map (opOf s.dev.adm) ∧
      t.dev.pair = { s.dev.pair with decisions := s.dev.pair.decisions.filter (!ofBook ·) } ∧ t.dev.adm = s.dev.adm ∧
      t.dev.clk = s.dev.clk ∧ t.dev.mem = s.dev.mem ∧ t.dev.regs = s.dev.regs ∧ t.dev.out = s.dev.out)) ∧
  (∀ s x th ch token, Live s → s.pending = [] → s.dev.pair.void = none → s.dev.peerStandby = false ∨ s.dev.pair.acked = true →
    s.dev.pair.decisions = [x] → x.req.org = .book th ch token → ∀ c, c = .decisionTakeEffect ∨ c = .bookDecision → Completes c s fun t =>
      t.dev.chan ch = { s.dev.chan ch with held := (s.dev.chan ch).held ++ [⟨unitEnd 0x030, bookWords x token, some th, s.dev.clk.tick + 1, false⟩] } ∧
      (∀ k, k ≠ ch → t.dev.chan k = s.dev.chan k) ∧
      Becomes s t { s.dev with
        chans := t.dev.chans, ops := t.dev.ops
        pair := { s.dev.pair with decisions := [] } }) ∧
  (∀ s x r head, Live s → s.pending = [] → s.dev.pair.void = none → s.dev.peerStandby = false ∨ s.dev.pair.acked = true →
    s.dev.pair.decisions = [x] → x.req.org = .ring r head → x.status ≠ 0 → x.req.desc.interrupt = false →
    let ring := s.dev.boundRing x.req.tid 0 r
    let k := qKey 1 ring
    let tail := s.dev.rd (Reg.TEN_Q_TAIL x.req.tid k)
    s.dev.ringLive x.req.tid ring = true → s.dev.ringBusy x.req.tid ring = false → Completes .decisionTakeEffect s fun t =>
      (∃ ws, t.dev.out = s.dev.out ++ [.hostWrite x.req.tid (s.dev.inF (Reg.TEN_Q_QBASE x.req.tid k) * 4096 + tail * 32) (wordBytes ws)] ∧
        ws.length = 8 ∧
        ws.getD 0 0 = x.req.desc.tag.toNat * 65536 + x.status % 256 * 256 + complKind x.req.kind % 16 * 16 + x.req.cls % 4 * 4 +
          (if s.dev.ringPhase x.req.tid k then 1 else 0) ∧
        ws.getD 1 0 = x.detail % 65536 ∧ ws.getD 2 0 = x.req.time % 2 ^ 32 ∧ ws.getD 3 0 = 0 ∧ ws.getD 4 0 = (s.dev.clk.tide + 8) % 2 ^ 32 ∧
        ws.getD 5 0 = 0 ∧ ws.getD 6 0 = x.req.tid % 512 * 2 ^ 23 + head % 65536 ∧ ws.getD 7 0 = 0) ∧
      t.dev.rd (Reg.TEN_Q_TAIL x.req.tid k) = (tail + 1) % s.dev.ringSize x.req.tid k % 65536 ∧
      FieldsKept [Reg.TEN_Q_TAIL x.req.tid k] s t ∧ t.dev.ops = s.dev.ops)

end Sys2Proof

/-- Submissions and their decisions: Submissions and Decisions. -/
def Obligations.Admission : Prop :=
  Rules.Submissions ∧ Rules.Decisions

namespace Sys2Proof

/-- An operation as an engine takes n units of its current stage; the engine holds them until stop. -/
def onEngine (r : Res) (n stop : Nat) (o : Op) : Op :=
  { o.serve r n with going := o.going ++ [r], ends := Tab.set 0 o.ends (resSched r) stop, fetched := true }

/-- The engine takes an operation's next portion: it is busy for the time that the portion takes at its rate, and what the operation still
needs falls by it; with mark, the Slack scheduler has picked the operation. -/
def EngineTakes (r : Res) (o : Op) (mark : Bool) (w : Wfq) (s t : State) : Prop :=
  let n := s.dev.portion o r
  let stop := s.dev.freeAt r + ceilDiv (n * 16744448) (s.dev.engineRate r)
  let begins (p : Op) : Op := onEngine r n stop (if mark then { p with picked := p.picked ++ [resSched r] } else p)
  t.dev.ops = s.dev.ops.map (fun p => if p.req.id = o.req.id then begins p else p) ∧
  Tab.get 0 t.dev.cal.busy (resSched r) = stop ∧
  (∀ n, n ≠ resSched r → Tab.get 0 t.dev.cal.busy n = Tab.get 0 s.dev.cal.busy n ∧ Tab.get {} t.dev.cal.wfq n = Tab.get {} s.dev.cal.wfq n) ∧
  Tab.get {} t.dev.cal.wfq (resSched r) = w ∧
  Becomes s t { s.dev with ops := t.dev.ops, cal := { s.dev.cal with wfq := t.dev.cal.wfq, busy := t.dev.cal.busy } }

/-- WORK_ITEM_START: after a thermal trip, on an engine that is not free in the tick, or where nothing is ready, nothing starts. Booked work
that is due goes first, then late, then early, by promise, admission, source and tag; then Slack that was begun, and then what the scheduler
picks. The engine takes what is booked up to this slot, or of other work what ends in the slot, for the time it takes at the engine's rate; an
operation that has nothing to read is fetched by it. The moment in the slot is the model's choice (log 98) (R102, R107, R108, R109, R494, R504,
R507). -/
def Rules.WorkStarts : Prop :=
  (∀ s (kind inst : BitVec 8) rx, Live s →
    let r : Res := ⟨kind.toNat, inst.toNat, rx⟩
    let begun (o : Op) : Bool := o.slack && o.readyFor r && o.picked.contains (resSched r)
    let next (o : Op) (mark : Bool) (w : Wfq) : Prop :=
      (s.dev.pickBooked r = some o ∧ mark = false ∧ w = Tab.get {} s.dev.cal.wfq (resSched r)) ∨
      (s.dev.pickBooked r = none ∧ s.dev.ops.find? begun = some o ∧ mark = false ∧ w = Tab.get {} s.dev.cal.wfq (resSched r)) ∨
      (s.dev.pickBooked r = none ∧ s.dev.ops.find? begun = none ∧ s.dev.pickSlack r = some (o, w) ∧ mark = true)
    (s.dev.boot.thermTrip = true ∨ r.general = false ∨ (s.dev.clk.tide + 8) * 65536 ≤ Tab.get 0 s.dev.cal.busy (resSched r) ∨
      (s.dev.pickBooked r = none ∧ s.dev.ops.find? begun = none ∧ s.dev.pickSlack r = none) →
      Completes (.workItemStart kind inst rx) s fun t => t = s) ∧
    (s.dev.boot.thermTrip = false → r.general = true → Tab.get 0 s.dev.cal.busy (resSched r) < (s.dev.clk.tide + 8) * 65536 →
      ∀ o mark w, next o mark w → 0 < s.dev.portion o r ∨ o.needOf r = 0 →
      (o.fetched = true ∨ (o.req.kind ≠ 7 ∧ o.source.2 = 0) → Completes (.workItemStart kind inst rx) s (EngineTakes r o mark w s)) ∧
      Completes (.workItemStart kind inst rx) s fun t => ∀ p, t.dev.op? o.req.id = some p → r ∈ p.going ∧ p.fetched = true) ∧
    (∀ o mark w, next o mark w → s.dev.portion o r = 0 → 0 < o.needOf r → Completes (.workItemStart kind inst rx) s fun t => t = s)) ∧
  (∀ (d : Dev) r o, d.pickBooked r = some o →
    o ∈ d.ops ∧ o.slack = false ∧ o.readyFor r = true ∧ ∀ p ∈ d.ops, p.slack = false → p.readyFor r = true →
      d.claimOf o r ≤ d.claimOf p r ∧ (d.claimOf o r = d.claimOf p r → deadlineBefore p o = false)) ∧
  (∀ (d : Dev) r o w, d.pickSlack r = some (o, w) → o ∈ d.ops ∧ o.slack = true ∧ o.readyFor r = true ∧
    ∀ p ∈ d.ops, p.unpicked r = true → p.req.tid = o.req.tid →
      o.req.time < p.req.time ∨ (o.req.time = p.req.time ∧ o.req.src ≤ p.req.src)) ∧
  (∀ (d : Dev) o r, (d.due o r = 0 → d.portion o r = Min.min (o.needOf r) (d.unitsLeft r)) ∧
    (o.slack = false → d.due o r ≠ 0 → d.portion o r = Min.min (o.needOf r) (d.due o r)))

/-- Whether an item has taken its time on its engine: the last part of a host read also waits for the data outstanding. -/
def ItemEnds (d : Dev) (o : Op) (r : Res) : Prop :=
  r.general = true ∧ r ∈ o.going ∧ Tab.get 0 o.ends (resSched r) ≤ d.clk.tide * 65536 ∧
    ¬ (o.ended = false ∧ r.kind = 1 ∧ r.rx = true ∧ o.reads ≠ 0 ∧ o.needOf r = 0)

/-- WORK_ITEM_FINISH and HOST_READ_BOUND_EXPIRY: an item that has not taken its time on its engine, or a host read with data outstanding, does
not finish; a part only leaves the engine, and an operation that has ended leaves with it; an item of a stage with others left leaves only it;
the last one ends its stage, releases the stage's bookings, and, with the wire behind it, its packet-buffer space, and the next stage stands. A
host read within the bound that its operation was sampled under, or known to be late, changes nothing; past it, it is late, and the assumption
of its booked operation has failed, whose slots that have not passed are released (R13, R76, R81, R84, R105). -/
def Rules.WorkFinishes : Prop :=
  (∀ s op (kind inst : BitVec 8) rx, Live s →
    let r : Res := ⟨kind.toNat, inst.toNat, rx⟩
    let n := resSched r
    (s.dev.op? op = none ∨ (∃ o, s.dev.op? op = some o ∧ ¬ ItemEnds s.dev o r) →
      Completes (.workItemFinish op kind inst rx) s fun t => t = s) ∧
    (∀ o, s.dev.op? op = some o → ItemEnds s.dev o r → o.ended = true → (∀ p ∈ s.dev.ops, p.req.id = op → p = o) → (∀ q ∈ o.going, q = r) →
      Completes (.workItemFinish op kind inst rx) s fun t => t.dev.op? op = none ∧ Becomes s t { s.dev with ops := t.dev.ops }) ∧
    (∀ o, s.dev.op? op = some o → ItemEnds s.dev o r → o.ended = false → o.needOf r ≠ 0 →
      Completes (.workItemFinish op kind inst rx) s fun t =>
        t.dev.ops = s.dev.ops.map (fun p => if p.req.id = op then
          { p with going := p.going.filter (· != r), ends := Tab.erase p.ends n } else p) ∧
        Becomes s t { s.dev with ops := t.dev.ops }) ∧
    (∀ o st rest, s.dev.op? op = some o → ItemEnds s.dev o r → o.ended = false → o.needOf r = 0 → o.plan = st :: rest →
      (∀ p ∈ s.dev.ops, p.req.id = op → p = o) →
      ((∃ n ∈ st.needs, n.res ≠ r) → Completes (.workItemFinish op kind inst rx) s fun t =>
        t.dev.ops = s.dev.ops.map (fun p => if p.req.id = op then
          { p with going := p.going.filter (· != r), ends := Tab.erase p.ends n, picked := p.picked.filter (· != n),
                   plan := { st with needs := st.needs.filter (·.res != r) } :: rest } else p) ∧
        Becomes s t { s.dev with ops := t.dev.ops }) ∧
      (∀ next after, rest = next :: after → next.needs ≠ [] → (∀ n ∈ st.needs, n.res = r) → (∀ q ∈ o.going, q = r) → o.reads = 0 →
        o.waiting = false → Completes (.workItemFinish op kind inst rx) s fun t =>
          let space : Prop := (∃ e ∈ s.dev.adm.entries, e.op = op ∧ e.space ≠ 0) ∧ ∀ x ∈ rest, x.wire = false
          (∃ p, t.dev.op? op = some p ∧ p.plan = rest ∧ p.going = [] ∧ p.waiting = stWaits o.req.kind (some next.no) ∧
            (next.wire = true → p.queued = s.dev.nextOp ∧ p.since = s.dev.clk.tide)) ∧
          (space → t.dev.adm = { s.dev.adm with entries := s.dev.adm.entries.map fun e =>
              if e.op = op then { e with holds := e.holds.filter (·.stage != st.no), space := 0 } else e } ∧
            t.dev.pair = { s.dev.pair with inputs := s.dev.pair.inputs ++ [.releaseStage op st.no, .releaseSpace op] }) ∧
          (¬ space → t.dev.adm = { s.dev.adm with entries := s.dev.adm.entries.map fun e =>
              if e.op = op then { e with holds := e.holds.filter (·.stage != st.no) } else e } ∧
            t.dev.pair = { s.dev.pair with inputs := s.dev.pair.inputs ++ [.releaseStage op st.no] }) ∧
          Becomes s t { s.dev with ops := t.dev.ops, adm := t.dev.adm, pair := t.dev.pair, nextOp := t.dev.nextOp }))) ∧
  (∀ s (l : BitVec 1) (tag : BitVec 14) (r : HostRead), Live s →
    s.dev.host.reads.find? (fun r => r.link == l.toNat && r.tag == tag.toNat) = some r →
    let late := s.dev.host.reads.map fun x => if x.link = r.link ∧ x.tag = r.tag then { x with late := true } else x
    (s.dev.clk.tide ≤ r.time + s.dev.readBound r ∨ r.late = true →
      Completes (.hostReadBoundExpiry l tag) s fun t => t = s) ∧
    (r.time + s.dev.readBound r < s.dev.clk.tide → r.late = false →
      (∀ id n o, r.use = .data id n → s.dev.op? id = some o → o.ended = false → o.slack = false →
        Completes (.hostReadBoundExpiry l tag) s fun t =>
          t.dev.ops = s.dev.ops.map (fun p => if p.req.id = id then
            { p with envFail := true, booked := [] } else p) ∧
          t.dev.adm = { s.dev.adm with entries := s.dev.adm.entries.map fun e =>
            if e.op = id then { e with holds := e.holds.filter (fun h => h.slot < s.dev.clk.slotSeq) } else e } ∧
          t.dev.pair = { s.dev.pair with inputs := s.dev.pair.inputs ++ [.releaseFuture id] } ∧
          Becomes s t { s.dev with
            ops := t.dev.ops, adm := t.dev.adm, pair := t.dev.pair
            host := { s.dev.host with reads := late } }) ∧
      ((∀ id n, r.use ≠ .data id n) → Completes (.hostReadBoundExpiry l tag) s fun t =>
        Becomes s t { s.dev with host := { s.dev.host with reads := late } }))) ∧
  (∀ (d : Dev) (r : HostRead), (∀ id n o, r.use = .data id n → d.op? id = some o → d.readBound r = o.req.readBound) ∧
    ((∀ id n, r.use ≠ .data id n) → d.readBound r = d.inF Reg.BWK_ENV_HOST_READ_BOUND)) ∧
  (∀ s (l : BitVec 1) (tag : BitVec 14), Live s →
    s.dev.host.reads.find? (fun r => r.link == l.toNat && r.tag == tag.toNat) = none →
    Completes (.hostReadBoundExpiry l tag) s fun t => t = s)

end Sys2Proof

/-- Work items and their ends: WorkStarts and WorkFinishes. -/
def Obligations.Work : Prop :=
  Rules.WorkStarts ∧ Rules.WorkFinishes

/-- PAT_REPLY and MOV_REPLY: a shoal's engine without a command does nothing. The oldest command leaves with its reply, which waits for its
channel: status 3 where the block breaks its layout; for a scan the patterns found in the range; for a copy in device memory the length, with
every byte of the source at the destination, and no other byte changed; a copy to a host whose function may issue no requests writes nothing
and ends with HOST_ABORT (R222, R230, R231). -/
def Obligations.PatternsAndMover : Prop :=
  (∀ s (sh : BitVec 4), Live s →
    ((∀ j ∈ s.dev.shl.scans, j.shoal ≠ sh.toNat) → Completes (.patReply sh) s fun t => t = s) ∧
    ((∀ j ∈ s.dev.shl.movers, j.shoal ≠ sh.toNat) → Completes (.movReply sh) s fun t => t = s)) ∧
  (∀ s (sh : BitVec 4) (j : EngJob) later, Live s → s.dev.shl.scans = j :: later → j.shoal = sh.toNat →
    let w (n : Nat) : Nat := j.words.getD n 0
    let n := w 2 % 2 ^ 32
    let found := scanSet s.dev.net.pats (w 0 / 2 ^ 56 % 256) (s.dev.bytes (w 1) n)
    let reply (l : List Nat) (t : State) : Prop :=
      t.dev.chan j.channel = { s.dev.chan j.channel with
        held := (s.dev.chan j.channel).held ++ [⟨0xA20 + sh.toNat, l.map (· % 2 ^ 64), some j.thread, s.dev.clk.tick + 1, false⟩] } ∧
      (∀ k, k ≠ j.channel → t.dev.chan k = s.dev.chan k) ∧
      Becomes s t { s.dev with
        chans := t.dev.chans
        shl := { s.dev.shl with scans := later } }
    (s.dev.scanOk j = false → Completes (.patReply sh) s (reply [replyHeader j.token 3 0 4 0])) ∧
    (s.dev.scanOk j = true → s.dev.anyPoison (w 1) n = false → s.dev.cleanBytes (w 1) n = n → j.bad = none →
      Completes (.patReply sh) s (reply (replyHeader j.token 0 (Min.min 255 found.length) 4 n ::
        pairHalves (matchWords found (w 0 / 2 ^ 52 % 16)))))) ∧
  (∀ s (sh : BitVec 4) (j : EngJob) later, Live s → s.dev.shl.movers = j :: later → j.shoal = sh.toNat →
    let src := j.words.getD 0 0
    let dst := j.words.getD 1 0
    let n := j.words.getD 2 0
    let reply (st arg : Nat) (t : State) : Prop :=
      t.dev.chan j.channel = { s.dev.chan j.channel with
        held := (s.dev.chan j.channel).held ++ [⟨0xB20 + sh.toNat, [replyHeader j.token st 0 5 arg], some j.thread, s.dev.clk.tick + 1, false⟩] } ∧
      (∀ k, k ≠ j.channel → t.dev.chan k = s.dev.chan k) ∧
      Becomes s t { s.dev with
        chans := t.dev.chans, mem := t.dev.mem
        shl := { s.dev.shl with movers := later } }
    (n = 0 ∨ 16777216 < n → Completes (.movReply sh) s fun t => reply 3 0 t ∧ t.dev.mem = s.dev.mem) ∧
    (moveBad j = false → s.dev.moveRefusal j = 0 → (∀ u x, s.dev.place src ≠ .host u x) → (∀ u x, s.dev.place dst ≠ .host u x) →
      s.dev.cleanBytes src n = n → s.dev.partialPoison dst n = none → j.bad = none → Completes (.movReply sh) s fun t =>
        reply 0 n t ∧ ∀ a, t.dev.byte a = if dst ≤ a ∧ a < dst + n then s.dev.byte (src + (a - dst)) else s.dev.byte a) ∧
    (∀ u x, moveBad j = false → s.dev.moveRefusal j = 0 → (∀ u x, s.dev.place src ≠ .host u x) → s.dev.place dst = .host u x →
      s.dev.mayIssue u = false → s.dev.cleanBytes src n = n → j.bad = none → Completes (.movReply sh) s fun t =>
        reply 0x21 0 t ∧ t.dev.mem = s.dev.mem))

/-! Reef -/

namespace Sys2Proof

/-- The steward's command that the fields of a REEF_CMD write and the key and action registers in force make. -/
def stewardReef (d : Dev) (op : Nat) (static : Bool) (table keyLen plen : Nat) (reserved : Bool) : RCmd :=
  { by_ := .steward static, op := op, table := table, key := d.cmdKey.take keyLen, plen := plen, act0 := d.inF (Reg.REEF_CMD_ACT 0)
    act1 := d.inF (Reg.REEF_CMD_ACT 1)
    bad := !reefFieldsOk op table keyLen plen d.cmdKey (if op = 2 then d.inF (Reg.REEF_CMD_ACT 0) else 0)
      (if op = 2 then d.inF (Reg.REEF_CMD_ACT 1) else 0) reserved }

/-- A steward's command of Reef is taken: its fields are stored, BUSY shows it, and beside registers only the log, the counters and Reef
change. -/
def ReefTakes (op : Nat) (static : Bool) (table keyLen plen : Nat) (s t : State) : Prop :=
  t.dev.rd Reg.REEF_CMD_BUSY = 1 ∧ t.dev.rd Reg.REEF_CMD_OP = op ∧ t.dev.rd Reg.REEF_CMD_STATIC = (if static then 1 else 0) ∧
  t.dev.rd Reg.REEF_CMD_TABLE = table ∧ t.dev.rd Reg.REEF_CMD_KEY_LEN = keyLen ∧ t.dev.rd Reg.REEF_CMD_PREFIX_LEN = plen ∧
  Becomes s t { s.dev with regs := t.dev.regs, reef := t.dev.reef, log := t.dev.log } ∧
  FieldsKept ([Reg.REEF_CMD_BUSY, Reg.REEF_CMD_OP, Reg.REEF_CMD_STATIC, Reg.REEF_CMD_TABLE, Reg.REEF_CMD_KEY_LEN, Reg.REEF_CMD_PREFIX_LEN,
    Reg.ERR_KIND_COUNT 0x04] ++ (List.range 16).map Reg.REEF_CNT_COUNT) s t

/-- Whether an entry of the exact-match table has a key. -/
def hasKey (key : List Byte) (e : Option REntry) : Bool := e.any fun x => x.key == key

/-- REEF_CMD_LOOK, REEF_CMD_INS and REEF_CMD_DEL: without the right, or while another runs, a command is discarded and logged. Before Breakwater
is released it waits; a field outside its range answers status 3. A lookup of the exact-match table answers the entry with the key and makes
it young, or a miss; one of the prefix memory answers the first matching entry. An insert replaces the entry with the key, or takes the first
free candidate position, or starts a path, or finds no room; a delete clears every copy; each answers POISON where a tag line of its buckets
cannot be read (R227, R280, R281, R285 to R287, R296 to R298, R300). -/
def Rules.ReefCommands : Prop :=
  ∀ s (table : BitVec 2) (keyLen plen : BitVec 8) static reserved, Live s →
    let cmd (op : Nat) : RCmd := stewardReef s.dev op static table.toNat keyLen.toNat plen.toNat reserved
    let takes (op : Nat) := ReefTakes op static table.toNat keyLen.toNat plen.toNat s
    let ins : Agent → Instr := fun ag => .reefCmdIns ag static table keyLen plen reserved
    let del : Agent → Instr := fun ag => .reefCmdDel ag static table keyLen plen reserved
    let look : Agent → Instr := fun ag => .reefCmdLook ag static table keyLen plen reserved
    let key := s.dev.cmdKey.take keyLen.toNat
    let places := s.dev.places key
    let answers (l : List Nat) (t : State) : Prop := t.dev.reef.result = some l
    let free : Prop := s.dev.released = true ∧ s.dev.reef.writes = [] ∧ s.dev.reef.emPath = none ∧ s.dev.reef.pfxPath = none ∧
      s.dev.reef.emStepped = false ∧ s.dev.rd Reg.REEF_CMD_BUSY = 0
    let sound : Prop := (∀ p ∈ places, s.dev.emBad p = false) ∧ s.dev.tagBad (s.dev.bucketsOf key).1 = false ∧
      s.dev.tagBad (s.dev.bucketsOf key).2 = false
    (∀ ag, s.dev.mayWrite ag 0x400100 = false ∨ s.dev.rd Reg.REEF_CMD_BUSY ≠ 0 →
      ∀ c, c = look ag ∨ c = ins ag ∨ c = del ag → Completes c s (Discards ag 0x400100 s)) ∧
    (∀ c op, (c = look .steward ∧ op = 1) ∨ (c = ins .steward ∧ op = 2) ∨ (c = del .steward ∧ op = 3) → s.dev.rd Reg.REEF_CMD_BUSY = 0 →
      (s.dev.released = false → Completes c s fun t => takes op t ∧ t.dev.reef = { s.dev.reef with cmds := s.dev.reef.cmds ++ [cmd op] }) ∧
      (s.dev.released = true → (cmd op).bad = true → Completes c s fun t =>
        takes op t ∧ t.dev.reef = { s.dev.reef with result := some [3, 0, 0, 0, 0] })) ∧
    (free → table = 0 → ∀ c op, (c = look .steward ∧ op = 1) ∨ (c = ins .steward ∧ op = 2) ∨ (c = del .steward ∧ op = 3) →
      (cmd op).bad = false → s.dev.cmdFits (cmd op) = true →
      s.dev.tagBad (s.dev.bucketsOf key).1 = true ∨ s.dev.tagBad (s.dev.bucketsOf key).2 = true →
      Completes c s fun t => answers [0x61, 0, 0, 0, 0] t ∧ t.dev.reef.em = s.dev.reef.em ∧ t.dev.reef.writes = []) ∧
    (free → table = 0 → sound → (cmd 1).bad = false → s.dev.cmdFits (cmd 1) = true → Completes (look .steward) s fun t => takes 1 t ∧
        ((∀ p ∈ places, ¬ hasKey key (s.dev.em p)) → answers [0, 0, 0, 0, 0] t ∧ t.dev.reef.em = s.dev.reef.em) ∧
        (∀ before p after e, places = before ++ p :: after → (∀ q ∈ before, ¬ hasKey key (s.dev.em q)) → s.dev.em p = some e → e.key = key →
          answers [0, 1, s.dev.clk.tide / 4194304 % 65536, e.act0, e.act1] t ∧
          ∀ q, t.dev.em q = if q ∈ places ∧ hasKey key (s.dev.em q)
            then (s.dev.em q).map (fun x => { x with age := s.dev.clk.tide / 4194304 % 65536 }) else s.dev.em q)) ∧
    (free → table = 1 → (cmd 1).bad = false → Completes (look .steward) s fun t => takes 1 t ∧ t.dev.reef.pfx = s.dev.reef.pfx ∧
      ((∀ x ∈ s.dev.reef.pfx, s.dev.pfxBad x.1 = false ∧ ∀ e, x.2 = some e → e.matches (beNat key) = false) →
        answers [0, 0, 0, 0, 0] t) ∧
      (∀ before i e after, s.dev.reef.pfx = before ++ (i, some e) :: after → s.dev.pfxBad i = false →
        (∀ x ∈ before, s.dev.pfxBad x.1 = false ∧ ∀ e, x.2 = some e → e.matches (beNat key) = false) →
        e.matches (beNat key) = true → answers [0, 1, e.len, e.act0, e.act1] t)) ∧
    (free → table = 0 → sound → (cmd 2).bad = false → s.dev.cmdFits (cmd 2) = true → Completes (ins .steward) s fun t => takes 2 t ∧
      let e : REntry := { key := key, act0 := s.dev.inF (Reg.REEF_CMD_ACT 0), act1 := s.dev.inF (Reg.REEF_CMD_ACT 1), static := static
                          age := s.dev.clk.tide / 4194304 % 65536 }
      let absent := ∀ p ∈ places, ¬ hasKey key (s.dev.em p)
      t.dev.reef.em = s.dev.reef.em ∧
      (∀ before p after old, places = before ++ p :: after → (∀ q ∈ before, ¬ hasKey key (s.dev.em q)) → s.dev.em p = some old → old.key = key →
        answers [0, 3, 0, old.act0, old.act1] t ∧
        ∀ q, RWrite.em q (some { old with
          act0 := e.act0, act1 := e.act1, age := e.age, learned := false, owner := 0, port := 0 }) ∈ t.dev.reef.writes ↔
          (∃ x, q ∈ places ∧ s.dev.em q = some x ∧ x.key = key ∧ { x with act0 := 0, act1 := 0, age := 0, learned := false, owner := 0, port := 0 } =
            { old with act0 := 0, act1 := 0, age := 0, learned := false, owner := 0, port := 0 })) ∧
      (absent → ∀ before p after, places = before ++ p :: after → (∀ q ∈ before, s.dev.em q ≠ none) → s.dev.em p = none →
        answers [0, 2, 0, 0, 0] t ∧ t.dev.reef.writes = [.em p (some e)]) ∧
      (absent → (∀ p ∈ places, s.dev.em p ≠ none) → s.dev.findPath key = none → answers [0, 6, 0, 0, 0] t ∧ t.dev.reef.writes = []) ∧
      (absent → (∀ p ∈ places, s.dev.em p ≠ none) → ∀ l, s.dev.findPath key = some l →
        t.dev.reef.emPath = some ⟨(movesOf l).tail, l.headD 0, some e, some (cmd 2), l⟩ ∧ t.dev.reef.result = s.dev.reef.result ∧
        t.dev.reef.writes = ((movesOf l).head?.map fun m => RWrite.em m.2 (s.dev.em m.1)).toList)) ∧
    (free → table = 0 → sound → (cmd 3).bad = false → s.dev.cmdFits (cmd 3) = true → Completes (del .steward) s fun t => takes 3 t ∧
      t.dev.reef.em = s.dev.reef.em ∧
      ((∀ p ∈ places, ¬ hasKey key (s.dev.em p)) → answers [0, 5, 0, 0, 0] t ∧ t.dev.reef.writes = []) ∧
      ((∃ p ∈ places, hasKey key (s.dev.em p)) → answers [0, 4, 0, 0, 0] t ∧
        ∀ q, RWrite.em q none ∈ t.dev.reef.writes ↔ q ∈ places ∧ hasKey key (s.dev.em q)))

/-- REEF_REPLY, REEF_PATH_STEP, PFX_MOVE, LEARN_COMMIT and AGEING_SWEEP_VISIT: replies are posted one by one; a path moves one entry in a tick,
from its free end, so that each is found all the time, and ends with the new entry and the answer, or waits for a burst; a learn request waits
for its bursts, or refreshes its key, or takes a free position, or is counted as without room; the sweep visits one position of each group in a slot and removes what is stale or poisoned,
but not what a path holds (R227, R283, R286, R287, R290, R291, R294, R297, R299). -/
def Rules.ReefUpkeep : Prop :=
  (∀ s, Live s →
    (s.dev.reef.replies = [] → Completes .reefReply s fun t => t = s) ∧
    (∀ th ch ws later, s.dev.reef.replies = (th, ch, ws) :: later → Completes .reefReply s fun t =>
      t.dev.chan ch = { s.dev.chan ch with held := (s.dev.chan ch).held ++ [⟨0x832, ws.map (· % 2 ^ 64), some th, s.dev.clk.tick + 1, false⟩] } ∧
      (∀ k, k ≠ ch → t.dev.chan k = s.dev.chan k) ∧
      Becomes s t { s.dev with
        chans := t.dev.chans
        reef := { s.dev.reef with replies := later } })) ∧
  (∀ s, Live s →
    (s.dev.reef.emStepped = true ∨ s.dev.reef.emPath = none ∨ s.dev.burstsFit s.dev.stepGroup = false →
      Completes .reefPathStep s fun t => t = s) ∧
    (∀ p a b later, s.dev.reef.emStepped = false → s.dev.reef.emPath = some p → p.moves = (a, b) :: later →
      s.dev.burstsFit s.dev.stepGroup = true → Completes .reefPathStep s fun t =>
      t.dev.em b = s.dev.em a ∧ (∀ q, q ≠ b → t.dev.em q = s.dev.em q) ∧ t.dev.reef.emPath = some { p with moves := later } ∧
      t.dev.reef.emStepped = true ∧ Becomes s t { s.dev with reef := { s.dev.reef with
        em := t.dev.reef.em, emPoison := t.dev.reef.emPoison, aged := t.dev.reef.aged, ageDue := t.dev.reef.ageDue, hot := t.dev.reef.hot
        used := t.dev.reef.used, emPath := t.dev.reef.emPath, emStepped := true } }) ∧
    (∀ p st, s.dev.reef.emStepped = false → s.dev.reef.emPath = some p → p.moves = [] → p.cmd.map (·.by_) = some (.steward st) →
      s.dev.burstsFit s.dev.stepGroup = true → Completes .reefPathStep s fun t =>
        t.dev.em p.last = p.entry ∧ (∀ q, q ≠ p.last → t.dev.em q = s.dev.em q) ∧ t.dev.reef.emPath = none ∧
        t.dev.reef.result = some [0, 2, 0, 0, 0] ∧ Becomes s t { s.dev with reef := t.dev.reef })) ∧
  (∀ s, Live s →
    (s.dev.reef.pfxStepped = true ∨ s.dev.reef.pfxPath = none → Completes .pfxMove s fun t => t = s) ∧
    (∀ p a b later, s.dev.reef.pfxStepped = false → s.dev.reef.pfxPath = some p → p.moves = (a, b) :: later → Completes .pfxMove s fun t =>
      Tab.get none t.dev.reef.pfx b = Tab.get none s.dev.reef.pfx a ∧
      (∀ q, q ≠ b → Tab.get none t.dev.reef.pfx q = Tab.get none s.dev.reef.pfx q) ∧
      Becomes s t { s.dev with reef := { s.dev.reef with
        pfx := t.dev.reef.pfx, pfxPoison := t.dev.reef.pfxPoison, pfxPath := some { p with moves := later }, pfxStepped := true } }) ∧
    (∀ p, s.dev.reef.pfxStepped = false → s.dev.reef.pfxPath = some p → p.moves = [] → Completes .pfxMove s fun t =>
      Tab.get none t.dev.reef.pfx p.last = p.entry ∧ t.dev.reef.pfxPath = none ∧
      (∀ q, q ≠ p.last → Tab.get none t.dev.reef.pfx q = Tab.get none s.dev.reef.pfx q) ∧ Becomes s t { s.dev with reef := t.dev.reef })) ∧
  (∀ s, Live s →
    (s.dev.reef.committed = true → Completes .learnCommit s fun t => t = s) ∧
    (∀ l, s.dev.reef.committed = false → s.dev.reef.learnQ = [l] → s.dev.reef.writes = [] → s.dev.reef.emPath = none →
      s.dev.reef.pfxPath = none → s.dev.reef.emStepped = false →
      let present : Bool := (s.dev.places l.key).any fun p => hasKey l.key (s.dev.em p)
      let fits : Bool := s.dev.burstsFit (s.dev.coldGroups (s.dev.readsOf l.key) ++ (if present then [] else s.dev.insWrites l.key).map emGroup)
      (fits = false → Completes .learnCommit s fun t =>
        Becomes s t { s.dev with reef := { s.dev.reef with committed := true } }) ∧
      (fits = true → Completes .learnCommit s fun t =>
        let now := s.dev.clk.tide / 4194304 % 65536
        let places := s.dev.places l.key
        let absent := ∀ p ∈ places, ¬ hasKey l.key (s.dev.em p)
        t.dev.reef.learnQ = [] ∧ t.dev.reef.committed = true ∧ Becomes s t { s.dev with regs := t.dev.regs, reef := t.dev.reef } ∧
        FieldsKept [Reg.REEF_CNT_COUNT 7, Reg.REEF_CNT_COUNT 10, Reg.REEF_CNT_COUNT 13] s t ∧
        (¬ absent → ∀ q, t.dev.em q = if q ∈ places ∧ hasKey l.key (s.dev.em q) then (s.dev.em q).map (fun x => { x with age := now })
          else s.dev.em q) ∧
        (absent → ∀ before p after, places = before ++ p :: after → (∀ q ∈ before, s.dev.em q ≠ none) → s.dev.em p = none →
          t.dev.em p = some { key := l.key, act0 := l.act0, act1 := l.act1, learned := true, owner := l.owner, port := l.port, age := now } ∧
          ∀ q, q ≠ p → t.dev.em q = s.dev.em q) ∧
        (absent → (∀ p ∈ places, s.dev.em p ≠ none) → s.dev.findPath l.key = none → t.dev.reef.em = s.dev.reef.em ∧
          t.dev.rd (Reg.REEF_CNT_COUNT 13) = Min.min (s.dev.rd (Reg.REEF_CNT_COUNT 13) + 1) (2 ^ 64 - 1))))) ∧
  (∀ s, Live s →
    (s.dev.reef.swept = true → Completes .ageingSweepVisit s fun t => t = s) ∧
    (s.dev.reef.swept = false → s.dev.reef.writes = [] → Completes .ageingSweepVisit s fun t =>
      let limit := Max.max 1 (Min.min 0xFF80 (s.dev.inF Reg.REEF_AGE_AGE_LIMIT))
      let stale (e : REntry) : Prop := s.dev.inF Reg.REEF_AGE_AGE_ENABLE ≠ 0 ∧ e.static = false ∧
        limit ≤ (s.dev.clk.tide / 4194304 % 65536 + 65536 - e.age) % 65536
      (∀ p, (∃ g, g < 16 ∧ p = groupPos g s.dev.reef.sweep) → p ∉ s.dev.reserved →
        s.dev.emBad p = true ∨ (∃ e, s.dev.em p = some e ∧ stale e) → t.dev.em p = none) ∧
      (∀ p, (∀ g, g < 16 → p ≠ groupPos g s.dev.reef.sweep) ∨ p ∈ s.dev.reserved ∨
        (s.dev.emBad p = false ∧ ∀ e, s.dev.em p = some e → ¬ stale e) → t.dev.em p = s.dev.em p) ∧
      t.dev.reef.sweep = (s.dev.reef.sweep + 1) % 1048576 ∧ t.dev.reef.swept = true ∧
      (∀ g, g < 16 → Tab.get 0 t.dev.reef.used g = Tab.get 0 s.dev.reef.used g + 1) ∧
      Becomes s t { s.dev with regs := t.dev.regs, reef := t.dev.reef, log := t.dev.log } ∧
      FieldsKept [Reg.REEF_CNT_COUNT 9, Reg.REEF_CNT_COUNT 15, Reg.ERR_KIND_COUNT 0x04] s t))

end Sys2Proof

/-- Reef commands and upkeep: ReefCommands and ReefUpkeep. -/
def Obligations.Reef : Prop :=
  Rules.ReefCommands ∧ Rules.ReefUpkeep

/-! Swash -/

namespace Sys2Proof

/-- OPEN, CONN_OPEN_CHECK, CLOSE, CONN_CLOSE_EFFECT, CONN_CLOSED, CC_PERIOD_STEP and CONN_RATE_WRITE: a CLOSED connection opens at the epoch
boundary if its template is right and its placements fit, afresh, and else is CLOSED again; a close takes effect at the epoch boundary, and a
drained connection is CLOSED. After CC_PERIOD slots each connection that sent unbooked bytes takes a step of its law, within its limits, and
every one's counts begin afresh; a written rate waits for the slot boundary (R305 to R308, R328, R329). -/
def Rules.Connections : Prop :=
  (∀ s ag, Live s →
    let c := s.dev.inF Reg.SWH_CONN_SELECT_CONN
    let asks (x : Due) (fs : List Fld) (t : State) : Prop := AsksEpoch x s t ∧ t.dev.asker x = ag ∧
      Becomes s t { s.dev with
        regs := t.dev.regs
        clk := { s.dev.clk with reqEpoch := t.dev.clk.reqEpoch, askers := t.dev.clk.askers } } ∧ FieldsKept fs s t
    (s.dev.mayWrite ag 0x500048 = false → Completes (.openConn ag) s (Discards ag 0x500048 s) ∧ Completes (.closeConn ag) s (Discards ag 0x500048 s)) ∧
    (s.dev.mayWrite ag 0x500048 = true → s.dev.connState c = 0 → Completes (.openConn ag) s (fun t =>
      t.dev.connState c = 1 ∧ asks (.connOpen c) [Reg.SWH_C_STATE c] t) ∧ Completes (.closeConn ag) s fun t => t = s) ∧
    (s.dev.mayWrite ag 0x500048 = true → s.dev.connState c ≠ 0 → Completes (.openConn ag) s (fun t =>
      t.dev.rd Reg.SWH_ALERT_CFG_REFUSED = 1 ∧ Interrupts .swh t ∧
      OnlyFields [Reg.SWH_ALERT_CFG_REFUSED, Reg.HST_MGMT_CAUSE, Reg.HST_MGMT_PENDING_EVENTS] s t) ∧
      Completes (.closeConn ag) s (asks (.connClose c) []))) ∧
  (∀ n : BitVec 20, WhenDue (.connOpenCheck n) (.connOpen n.toNat) fun s t =>
    let c := n.toNat
    let cls := s.dev.inF (Reg.SWH_C_PLACE_CLASS c)
    let first := s.dev.inF (Reg.SWH_C_INIT_PSN c) % 2 ^ 24
    let shut (f : Fld) : Prop := t.dev.connState c = 0 ∧ t.dev.rd f = 1 ∧ Interrupts .swh t ∧
      OnlyFields [Reg.SWH_C_STATE c, f, Reg.HST_MGMT_CAUSE, Reg.HST_MGMT_PENDING_EVENTS] s t
    (s.dev.connState c ≠ 1 → t = s) ∧
    (s.dev.connState c = 1 → s.dev.tmplOk c = false → t.dev.connState c = 0 ∧ OnlyFields [Reg.SWH_C_STATE c] s t) ∧
    (s.dev.connState c = 1 → s.dev.tmplOk c = true → cls ≠ 3 → s.dev.placeOk c = false → shut Reg.SWH_ALERT_PLACE_REFUSED) ∧
    (s.dev.connState c = 1 → s.dev.tmplOk c = true → cls ≠ 3 → s.dev.placeOk c = true → s.dev.standingRoom cls (s.dev.placeNeeds c) = false →
      shut Reg.SWH_ALERT_PLACE_NO_ROOM) ∧
    (s.dev.connState c = 1 → s.dev.tmplOk c = true → cls = 3 ∨ (s.dev.placeOk c = true ∧ s.dev.standingRoom cls (s.dev.placeNeeds c) = true) →
      t.dev.connState c = 2 ∧ t.dev.rd (Reg.SWH_C_PLACE_ACTIVE c) = (if cls = 3 then 0 else 1) ∧ t.dev.rd (Reg.SWH_C_NEXT_PSN c) = first ∧
      t.dev.rd (Reg.SWH_C_NEXT_MSN c) = first ∧
      t.dev.conn c = { bucket := s.dev.inF (Reg.SWH_C_PLACE_BURST c), rate := { tokens := (2 * s.dev.pmtu c : Nat) } } ∧
      (∀ psn, t.dev.ringAt c psn = none) ∧ (∀ k, k ≠ c → t.dev.conn k = s.dev.conn k ∧ ∀ psn, t.dev.ringAt k psn = s.dev.ringAt k psn) ∧
      Becomes s t { s.dev with
        regs := t.dev.regs
        sw := { s.dev.sw with conns := t.dev.sw.conns, ring := t.dev.sw.ring } } ∧
      FieldsKept [Reg.SWH_C_STATE c, Reg.SWH_C_PLACE_ACTIVE c, Reg.SWH_C_NEXT_PSN c, Reg.SWH_C_NEXT_MSN c, Reg.SWH_C_ALPHA c, Reg.SWH_C_SRTT c,
        Reg.SWH_C_RTTVAR c, Reg.SWH_C_RATE c, Reg.SWH_C_OUTSTANDING c] s t)) ∧
  (∀ n : BitVec 20, WhenDue (.connCloseEffect n) (.connClose n.toNat) fun s t =>
    let c := n.toNat
    (s.dev.connState c = 1 ∨ s.dev.connState c = 2 ∨ s.dev.connState c = 4 →
      t.dev.connState c = (if s.dev.connState c = 4 then 0 else 3) ∧
      t.dev.rd (Reg.SWH_C_PLACE_ACTIVE c) = 0 ∧ OnlyFields [Reg.SWH_C_STATE c, Reg.SWH_C_PLACE_ACTIVE c] s t) ∧
    (s.dev.connState c ≠ 1 → s.dev.connState c ≠ 2 → s.dev.connState c ≠ 4 → t = s)) ∧
  (∀ s (n : BitVec 20), Live s →
    let c := n.toNat
    (s.dev.connState c ≠ 3 ∨ (s.dev.conn c).out ≠ [] ∨ (∃ o ∈ s.dev.connOps c, o.plan ≠ []) → Completes (.connClosed n) s fun t => t = s) ∧
    (s.dev.connState c = 3 → (s.dev.conn c).out = [] → (∀ o ∈ s.dev.connOps c, o.plan = [] ∧ o.req.kind ≠ 5) →
      Completes (.connClosed n) s fun t =>
        t.dev.connState c = 0 ∧ t.dev.conn c = { s.dev.conn c with msgs := [], serves := [] } ∧
        (∀ i ∈ t.dev.net.items, i ∈ s.dev.net.items) ∧ (∀ k, k ≠ c → t.dev.conn k = s.dev.conn k) ∧
        Becomes s t { s.dev with
          regs := t.dev.regs
          sw := { s.dev.sw with conns := t.dev.sw.conns }
          net := { s.dev.net with items := t.dev.net.items } } ∧ FieldsKept [Reg.SWH_C_STATE c, Reg.SWH_C_OUTSTANDING c] s t)) ∧
  (∀ s, Live s → Tab.wf ({} : SwConn) s.dev.sw.conns = true →
    let period := Max.max 1 (s.dev.inF Reg.SWH_CTRL_CC_PERIOD)
    (s.dev.sw.period < period → Completes .ccPeriodStep s fun t => t = s) ∧
    (period ≤ s.dev.sw.period → Completes .ccPeriodStep s fun t => t.dev.sw.period = 0 ∧
      (∀ c, t.dev.conn c = { s.dev.conn c with rate := { (s.dev.conn c).rate with acked := 0, marked := 0, sent := false } }) ∧
      (∀ c, (s.dev.conn c).rate.sent = false → t.dev.rd (Reg.SWH_C_RATE c) = s.dev.rd (Reg.SWH_C_RATE c)) ∧
      ∀ c, (s.dev.conn c).rate.sent = true →
        let x := (s.dev.conn c).rate
        let r := s.dev.rd (Reg.SWH_C_RATE c)
        let up := r + s.dev.inF (Reg.SWH_C_AI c)
        let mode := s.dev.inF (Reg.SWH_C_CC_MODE c)
        let goal := s.dev.inF (Reg.SWH_C_DELAY_TARGET c)
        let held (n : Nat) : Nat := Min.min (s.dev.inF (Reg.SWH_C_RATE_MAX c)) (Max.max (s.dev.inF (Reg.SWH_C_RATE_MIN c)) n) % 2 ^ 24
        (mode ≠ 1 → mode ≠ 2 → t.dev.rd (Reg.SWH_C_RATE c) = s.dev.inF (Reg.SWH_C_RATE_MAX c) % 2 ^ 24) ∧
        (mode = 1 → x.marked = 0 → t.dev.rd (Reg.SWH_C_RATE c) = held up) ∧
        (mode = 1 → x.marked ≠ 0 → ∃ alpha : Int, alpha = (s.dev.rd (Reg.SWH_C_ALPHA c) : Int) +
          ((if x.acked = 0 then 0 else ((x.marked * 1024 / x.acked : Nat) : Int)) - s.dev.rd (Reg.SWH_C_ALPHA c)) / 16 ∧
          t.dev.rd (Reg.SWH_C_RATE c) = held (r - r * alpha.toNat / 2048)) ∧
        (mode = 2 → goal < x.last → x.last < 2 ^ 31 → t.dev.rd (Reg.SWH_C_RATE c) = held (Max.max (r / 2) (r * goal / x.last))) ∧
        (mode = 2 → x.last ≤ goal ∨ 2 ^ 31 ≤ x.last → t.dev.rd (Reg.SWH_C_RATE c) = held up))) ∧
  (∀ s ag (v : BitVec 64), Live s →
    let c := s.dev.inF Reg.SWH_CONN_SELECT_CONN
    (s.dev.mayWrite ag 0x500058 = false → Completes (.connRateWrite ag 2 v) s (Discards ag 0x500058 s)) ∧
    (s.dev.mayWrite ag 0x500058 = true → Completes (.connRateWrite ag 2 v) s fun t =>
      t.dev.rd (Reg.SWH_C_RATE c) = v.toNat % 2 ^ 24 ∧ (∀ f, t.dev.inF f = s.dev.inF f) ∧ OnlyFields [Reg.SWH_C_RATE c] s t))

/-- The item with which a connection answers a packet, or sends one again, at the end of what waits for its port. -/
def swItem (d : Dev) (c len : Nat) (w : TxWhat) : TxItem :=
  { id := d.nextOp, port := d.inF (Reg.SWH_C_PORT c), q := d.inF (Reg.SWH_C_QUEUE c), tid := d.inF (Reg.SWH_C_TID c), leaf := c, len := len
    what := w, since := d.clk.tide }

/-- A packet is answered: its receive ring entry takes a state, and an ACK or NAK joins its connection's port; of the device only these, what
else of Swash P names, and fields of fs change. -/
def SwAnswers (c psn st reason time : Nat) (ce : Bool) (fs : List Fld) (s t : State) : Prop :=
  t.dev.ringAt c psn = some ⟨st, psn / 4096 % 2, reason⟩ ∧
  (∀ k, k ≠ ringKey c psn → Tab.get none t.dev.sw.ring k = Tab.get none s.dev.sw.ring k) ∧
  t.dev.net = { s.dev.net with items := s.dev.net.items ++ [swItem s.dev c (s.dev.packetLen c 0 false) (.control c psn reason time ce)] } ∧
  FieldsKept fs s t

end Sys2Proof

/-- WRITE, READ_REQ, READ_RESP, ACK and NAK: a bad header, and a packet that is not for its connection, are counted and dropped. A duplicate is
answered as its original was, or dropped while that is pending. A write is metered; a write or read request that its window refuses is answered by
a NAK, and its message fails, as does one of a message begun under another generation; the later packets of a failed message have its reason. A
write that is allowed is tracked and on its way; a read request is answered at once; a response of no read is dropped. Every answer gives a
sample of the round trip, and takes its packet from what is outstanding (R309, R310, R314 to R320, R324 to R326). -/
def Obligations.SwashPackets : Prop :=
  ∀ s (k : SwPacket), Live s →
    let c := k.target.toNat
    let psn := pkPsn k
    let msn := pkMsn k
    let w := pkWindow k
    let cmd (i : Instr) : Prop := (i = .write k ∧ pkOp k = 1) ∨ (i = .readReq k ∧ pkOp k = 2) ∨ (i = .readResp k ∧ pkOp k = 3)
    let answer (i : Instr) : Prop := (i = .ack k ∧ pkOp k = 4) ∨ (i = .nak k ∧ pkOp k = 5)
    let cnt (n : Nat) (t : State) : Prop :=
      t.dev.rd (Reg.SWH_CNT_COUNT n) = Min.min (s.dev.rd (Reg.SWH_CNT_COUNT n) + 1) (2 ^ 64 - 1)
    let v := s.dev.window w
    let metered (cost : Nat) : Bool := k.port.toNat == s.dev.inF (Reg.SWH_C_PORT c) && cost ≤ (s.dev.conn c).bucket &&
      s.dev.memKind v.devMem (v.base + pkRem k + pkOff k) == s.dev.inF (Reg.SWH_C_PLACE_DEV c) % 3
    let green : Bool := metered (pkLen k + if pkFlag k 23 && pkFlag k 22 then 64 else 0)
    let asked : Option Nat × FwAnswer := if pkOp k = 1 then s.dev.windowCheck c w (pkKey k) (pkRem k) (pkOff k) (pkLen k) true
      else s.dev.windowCheck c w (pkKey k) (pkRem k) 0 (pkOff k) false
    let here : Prop := badHdr k = false ∧ s.dev.notForConn k = false
    let afresh : Prop := here ∧ ∀ e, s.dev.ringAt c psn = some e → e.lap ≠ psn / 4096 % 2
    ((∀ n, n < 6 → n ≠ pkOp k → ∀ i, (n, i) ∈ [(1, Instr.write k), (2, .readReq k), (3, .readResp k), (4, .ack k), (5, .nak k)] →
      Completes i s fun t => t = s)) ∧
    (∀ i, cmd i ∨ answer i →
      (badHdr k = true → Completes i s fun t => cnt 12 t ∧ OnlyFields [Reg.SWH_CNT_COUNT 12] s t) ∧
      (badHdr k = false → s.dev.notForConn k = true → Completes i s fun t => cnt 13 t ∧ OnlyFields [Reg.SWH_CNT_COUNT 13] s t)) ∧
    (∀ i e, cmd i → here → s.dev.ringAt c psn = some e → e.lap = psn / 4096 % 2 → Completes i s fun t => cnt 8 t ∧
      (e.st = 1 → OnlyFields [Reg.SWH_CNT_COUNT 8] s t) ∧
      (e.st = 2 ∨ e.st = 3 →
        t.dev.net = { s.dev.net with items := s.dev.net.items ++ [swItem s.dev c (s.dev.packetLen c 0 false)
          (if e.st = 2 then .control c psn 0 (pkTime k) k.ce else .control c psn e.reason (pkTime k) false)] } ∧
        Becomes s t { s.dev with regs := t.dev.regs, net := t.dev.net, nextOp := s.dev.nextOp + 1 } ∧ FieldsKept [Reg.SWH_CNT_COUNT 8] s t)) ∧
    (∀ i, (i = .write k ∧ pkOp k = 1) ∨ (i = .readReq k ∧ pkOp k = 2) → afresh →
      (∀ m r, s.dev.trackOf c msn = some m → m.failed = some r → Completes i s fun t =>
        SwAnswers c psn 3 r (pkTime k) false [Reg.SWH_CNT_COUNT 17, Reg.SWH_C_OUTSTANDING c] s t) ∧
      (∀ m, s.dev.trackOf c msn = some m → m.failed = none → asked = (none, .granted) → m.gen ≠ s.dev.winGen w → m.swp = none →
        Completes i s fun t => SwAnswers c psn 3 6 (pkTime k) false [Reg.SWH_CNT_COUNT 10, Reg.SWH_CNT_COUNT 17, Reg.SWH_C_OUTSTANDING c] s t) ∧
      (∀ r, s.dev.trackOf c msn = none → s.dev.sw.track.length < 262144 → asked = (some r, .granted) → Completes i s fun t =>
        SwAnswers c psn 3 r (pkTime k) false [Reg.SWH_CNT_COUNT 10, Reg.SWH_CNT_COUNT 17, Reg.SWH_C_OUTSTANDING c] s t ∧ cnt 10 t ∧
        t.dev.sw.track = s.dev.sw.track ++
          [{ conn := c, msn := msn, window := w, gen := s.dev.winGen w, failed := some r, seen := s.dev.clk.epochs }] ∧
        (pkOp k = 1 → green = false → cnt 17 t) ∧
        (t.dev.conn c).bucket = (if pkOp k = 1 ∧ green then
          (s.dev.conn c).bucket - (pkLen k + if pkFlag k 23 && pkFlag k 22 then 64 else 0) else (s.dev.conn c).bucket) ∧
        Becomes s t { s.dev with
          regs := t.dev.regs, net := t.dev.net, nextOp := s.dev.nextOp + 1
          sw := { s.dev.sw with ring := t.dev.sw.ring, track := t.dev.sw.track, conns := t.dev.sw.conns } })) ∧
    (pkOp k = 1 → afresh → s.dev.trackOf c msn = none → s.dev.sw.track.length < 262144 → pkSealed k = false → pkFlag k 22 = false →
      asked = (none, .granted) → Completes (.write k) s fun t =>
        let a := v.base + pkRem k + pkOff k
        t.dev.ringAt c psn = some ⟨1, psn / 4096 % 2, 0⟩ ∧
        t.dev.sw.placing = s.dev.sw.placing ++ [{
          conn := c, psn := psn, msn := msn, resp := false, window := w, addr := a, devMem := v.devMem, tid := s.dev.inF (Reg.SWH_C_TID c)
          data := k.body, time := pkTime k, ce := k.ce, green := green, tagBad := false
          last := if pkFlag k 23 then some (pkCount k) else none }] ∧
        t.dev.sw.track = s.dev.sw.track ++ [{
          conn := c, msn := msn, window := w, gen := s.dev.winGen w, count := if pkFlag k 23 then some (pkCount k) else none
          seen := s.dev.clk.epochs, green := green, tag := pkTag k }] ∧
        (t.dev.conn c).bucket = (if green then (s.dev.conn c).bucket - k.body.length else (s.dev.conn c).bucket) ∧
        (green = false → cnt 17 t) ∧ (∀ j, j ≠ c → t.dev.conn j = s.dev.conn j) ∧
        Becomes s t { s.dev with
          regs := t.dev.regs
          sw := { s.dev.sw with
            ring := t.dev.sw.ring, track := t.dev.sw.track, placing := t.dev.sw.placing, conns := t.dev.sw.conns } } ∧
        FieldsKept [Reg.SWH_CNT_COUNT 17, Reg.SWH_C_OUTSTANDING c] s t) ∧
    (pkOp k = 2 → afresh → s.dev.trackOf c msn = none → asked = (none, .granted) → Completes (.readReq k) s fun t =>
        t.dev.ringAt c psn = some ⟨2, psn / 4096 % 2, 0⟩ ∧
        swItem s.dev c (s.dev.packetLen c 0 false) (.control c psn 0 (pkTime k) k.ce) ∈ t.dev.net.items ∧
        (pkOff k ≠ 0 → (t.dev.conn c).serves.map (fun x => (x.msn, x.window, x.addr, x.len)) =
          (s.dev.conn c).serves.map (fun x => (x.msn, x.window, x.addr, x.len)) ++ [(msn, w, v.base + pkRem k, pkOff k)]) ∧
        (pkOff k = 0 → t.dev.conn c = s.dev.conn c)) ∧
    (pkOp k = 3 → afresh →
      (s.dev.readOf k = none → Completes (.readResp k) s fun t => cnt 13 t ∧ t.dev.ringAt c psn = none ∧
        Becomes s t { s.dev with
          regs := t.dev.regs
          sw := { s.dev.sw with ring := t.dev.sw.ring } } ∧ FieldsKept [Reg.SWH_CNT_COUNT 13] s t) ∧
      (∀ o, s.dev.readOf k = some o → pkSealed k = false → Completes (.readResp k) s fun t =>
        t.dev.ringAt c psn = some ⟨1, psn / 4096 % 2, 0⟩ ∧
        ∃ p, t.dev.sw.placing = s.dev.sw.placing ++ [p] ∧ p.conn = c ∧ p.psn = psn ∧ p.msn = msn ∧ p.resp = true ∧
          p.addr = o.req.desc.addr1.toNat + pkOff k ∧ p.devMem = o.req.desc.devMem ∧ p.tid = o.req.tid ∧ p.data = k.body ∧ p.tagBad = false ∧
          t.dev.ops = s.dev.ops ∧ t.dev.mem = s.dev.mem)) ∧
    (∀ i, answer i → here → Completes i s fun t => cnt (pkOp k + 1) t ∧
      (t.dev.conn c).out = (s.dev.conn c).out.filter (fun x => x.psn != psn) ∧
      ((∀ x ∈ (s.dev.conn c).out, x.psn ≠ psn) → (∀ j, j ≠ c → t.dev.conn j = s.dev.conn j) ∧
        Becomes s t { s.dev with
          regs := t.dev.regs
          sw := { s.dev.sw with conns := t.dev.sw.conns } } ∧
        FieldsKept [Reg.SWH_CNT_COUNT (pkOp k + 1), Reg.SWH_C_SRTT c, Reg.SWH_C_RTTVAR c, Reg.SWH_C_OUTSTANDING c] s t) ∧
      ((s.dev.conn c).rate.sampled = false →
        t.dev.rd (Reg.SWH_C_SRTT c) = wrap 32 (shortDiff (s.dev.clk.tide % 2 ^ 32) (pkTime k)) ∧
        t.dev.rd (Reg.SWH_C_RTTVAR c) = wrap 32 (shortDiff (s.dev.clk.tide % 2 ^ 32) (pkTime k) / 2)))

namespace Sys2Proof

/-- PLACEMENT_DONE, MSG_ABANDONED, REWRITE, REVOKE, WINDOW_INSTALL, RETX_TIMEOUT, SWASH_PACKET_TRANSMIT and TX_FRAME_END. A placement in host
memory is written there, counted and acknowledged; one whose tag fails leaves its packet to be sent again. A message without a packet for
PARTIAL_TIMEOUT epochs is given up. A window's command revokes it, and is installed once its packets have drained. A packet whose timer has
expired is sent again, and after the eighth time its connection fails. An ACK or NAK goes out as a frame of its connection as soon as the line is
free; a frame leaves, and is counted, with its last bit (R253, R311, R316, R318, R321, R322, R325). -/
def Rules.SwashWork : Prop :=
  (∀ s (c : BitVec 20) (psn : BitVec 24), Live s →
    let find := s.dev.sw.placing.find? fun p => p.conn == c.toNat && p.psn == psn.toNat
    (find = none → Completes (.placementDone c psn) s fun t => t = s) ∧
    (∀ p l, find = some p → p.resp = false → p.tagBad = false → p.data ≠ [] → s.dev.hostLinkOf p.tid p.devMem p.addr = some l →
      s.dev.mayIssue (s.dev.ioAt p.tid p.devMem p.addr).1 = true →
      (∀ m, s.dev.trackOf c.toNat p.msn = some m → m.failed ≠ none ∨ m.count ≠ some (m.placed + 1)) →
      Completes (.placementDone c psn) s fun t =>
        t.dev.out = s.dev.out ++ [.hostWrite (s.dev.ioAt p.tid p.devMem p.addr).1 (s.dev.ioAt p.tid p.devMem p.addr).2 p.data] ∧ t.dev.sw.placing = s.dev.sw.placing.erase p ∧
        SwAnswers c.toNat psn.toNat 2 0 p.time p.ce [Reg.SWH_CNT_COUNT 7] s t ∧
        t.dev.sw.track = s.dev.sw.track.map (fun m => if m.conn = c.toNat ∧ m.msn = p.msn then
          { m with placed := m.placed + 1, bytes := m.bytes + p.data.length } else m) ∧
        Becomes s t { s.dev with
          regs := t.dev.regs, net := t.dev.net, nextOp := s.dev.nextOp + 1, out := t.dev.out
          sw := { s.dev.sw with ring := t.dev.sw.ring, placing := t.dev.sw.placing, track := t.dev.sw.track } }) ∧
    (∀ p, find = some p → p.tagBad = true → Completes (.placementDone c psn) s fun t => t.dev.ringAt c.toNat psn.toNat = none ∧
      t.dev.sw.placing = s.dev.sw.placing.erase p ∧ t.dev.sw.track = s.dev.sw.track ∧ t.dev.net = s.dev.net ∧
      t.dev.rd (Reg.SWH_CNT_COUNT 14) = Min.min (s.dev.rd (Reg.SWH_CNT_COUNT 14) + 1) (2 ^ 64 - 1))) ∧
  (∀ (d : Dev) tid a, d.ioAt tid false a = (tid, a) ∧
    ∀ u off, d.place a = .host u off → d.ioAt tid true a = (u, d.inF (Reg.HST_TEN_IOVA_BASE u) * 4096 + off)) ∧
  (∀ s (c : BitVec 20) (msn : BitVec 24), Live s →
    let timeout := Max.max 16 (s.dev.inF Reg.SWH_CTRL_PARTIAL_TIMEOUT)
    (s.dev.trackOf c.toNat msn.toNat = none → Completes (.msgAbandoned c msn) s fun t => t = s) ∧
    (∀ m, s.dev.trackOf c.toNat msn.toNat = some m →
      (s.dev.clk.epochs < m.seen + timeout → Completes (.msgAbandoned c msn) s fun t => t = s) ∧
      (m.seen + timeout ≤ s.dev.clk.epochs → m.swp = none → Completes (.msgAbandoned c msn) s fun t =>
        t.dev.sw.track = s.dev.sw.track.filter (fun x => !(x.conn == c.toNat && x.msn == msn.toNat)) ∧
        t.dev.rd (Reg.SWH_CNT_COUNT 11) = Min.min (s.dev.rd (Reg.SWH_CNT_COUNT 11) + 1) (2 ^ 64 - 1) ∧
        Becomes s t { s.dev with
          regs := t.dev.regs
          sw := { s.dev.sw with track := t.dev.sw.track } } ∧ FieldsKept [Reg.SWH_CNT_COUNT 11] s t))) ∧
  (∀ s ag, Live s →
    let w := s.dev.inF Reg.SWH_WIN_SELECT_WINDOW
    let v := s.dev.stagedWin w
    let quota : Prop := s.dev.rd (Reg.SWH_W_STATE w) = 0 ∧ s.dev.inF (Reg.SWH_WIN_QUOTA v.owner) ≤ s.dev.rd (Reg.SWH_WIN_COUNT v.owner)
    let valid : Prop := 0 < v.len ∧ v.len ≤ 2 ^ 38 ∧ v.base + v.len ≤ 2 ^ 64
    let waits (n : Nat) (t : State) : Prop := t.dev.rd (Reg.SWH_W_STATE w) = 2 ∧ t.dev.rd (Reg.SWH_W_DONE w) = 0 ∧
      Tab.get 0 t.dev.sw.installs w = s.dev.clk.tick * 4 + n ∧ (∀ k, k ≠ w → Tab.get 0 t.dev.sw.installs k = Tab.get 0 s.dev.sw.installs k ∧
        t.dev.window k = s.dev.window k) ∧
      Becomes s t { s.dev with
        regs := t.dev.regs
        sw := { s.dev.sw with installs := t.dev.sw.installs, windows := t.dev.sw.windows } }
    (s.dev.mayWrite ag 0x500120 = false → Completes (.rewrite ag) s (Discards ag 0x500120 s) ∧ Completes (.revoke ag) s (Discards ag 0x500120 s)) ∧
    (s.dev.mayWrite ag 0x500120 = true → quota ∨ ¬ valid → Completes (.rewrite ag) s fun t =>
      t.dev.rd Reg.SWH_ALERT_WIN_REFUSED = 1 ∧ Interrupts .swh t ∧
      OnlyFields [Reg.SWH_ALERT_WIN_REFUSED, Reg.HST_MGMT_CAUSE, Reg.HST_MGMT_PENDING_EVENTS] s t) ∧
    (s.dev.mayWrite ag 0x500120 = true → ¬ quota → valid → Completes (.rewrite ag) s (waits 1)) ∧
    (s.dev.mayWrite ag 0x500120 = true → Completes (.revoke ag) s (waits 2))) ∧
  (∀ s (n : BitVec 22), Live s →
    let w := n.toNat
    let x := Tab.get 0 s.dev.sw.installs w
    let only (t : State) : Prop := Tab.get 0 t.dev.sw.installs w = 0 ∧ t.dev.rd (Reg.SWH_W_DONE w) = 1 ∧
      (∀ k, k ≠ w → t.dev.window k = s.dev.window k) ∧
      Becomes s t { s.dev with
        regs := t.dev.regs
        sw := { s.dev.sw with installs := t.dev.sw.installs, windows := t.dev.sw.windows } }
    (x = 0 ∨ s.dev.clk.tick ≤ x / 4 ∨ s.dev.winDrained w = false → Completes (.windowInstall n) s fun t => t = s) ∧
    (x % 4 = 2 → x / 4 < s.dev.clk.tick → s.dev.winDrained w = true → Completes (.windowInstall n) s fun t =>
      t.dev.rd (Reg.SWH_W_STATE w) = 0 ∧ t.dev.rd (Reg.SWH_W_GEN w) = s.dev.rd (Reg.SWH_W_GEN w) ∧ only t) ∧
    (x % 4 = 1 → x / 4 < s.dev.clk.tick → s.dev.winDrained w = true → Completes (.windowInstall n) s fun t =>
      t.dev.rd (Reg.SWH_W_STATE w) = 1 ∧ t.dev.window w = s.dev.stagedWin w ∧
      t.dev.rd (Reg.SWH_W_GEN w) = (s.dev.rd (Reg.SWH_W_GEN w) + 1) % 256 ∧ only t)) ∧
  (∀ s (c : BitVec 20) (psn : BitVec 24), Live s →
    let find := (s.dev.conn c.toNat).out.find? fun x => x.psn == psn.toNat
    (find = none → Completes (.retxTimeout c psn) s fun t => t = s) ∧
    (∀ x, find = some x →
      (s.dev.clk.tide < x.expiry ∨ x.again = true ∨ x.stopped ≠ none → Completes (.retxTimeout c psn) s fun t => t = s) ∧
      (x.expiry ≤ s.dev.clk.tide → x.again = false → x.stopped = none → x.tries < 7 → Completes (.retxTimeout c psn) s fun t =>
        (t.dev.conn c.toNat).out = (s.dev.conn c.toNat).out.map (fun y => if y.psn = psn.toNat then { y with again := true } else y) ∧
        t.dev.net = { s.dev.net with items := s.dev.net.items ++ [swItem s.dev c.toNat
          (s.dev.packetLen c.toNat x.data.length (x.hdr.headD 0 / 2 ^ 21 % 2 == 1)) (.again c.toNat psn.toNat)] } ∧
        Becomes s t { s.dev with
          regs := t.dev.regs, net := t.dev.net, nextOp := s.dev.nextOp + 1
          sw := { s.dev.sw with conns := t.dev.sw.conns } } ∧ FieldsKept [Reg.SWH_C_OUTSTANDING c.toNat] s t) ∧
      (x.expiry ≤ s.dev.clk.tide → x.again = false → x.stopped = none → 7 ≤ x.tries → Completes (.retxTimeout c psn) s fun t =>
        t.dev.connState c.toNat = 4 ∧ (t.dev.conn c.toNat).out = [] ∧ t.dev.rd Reg.SWH_ALERT_CONN_FAILED = 1 ∧ Interrupts .swh t))) ∧
  (∀ s (p : BitVec 4), Live s →
    (s.dev.boot.thermTrip = true ∨ s.dev.lineFree p.toNat = none ∨
      (∃ sub, s.dev.lineFree p.toNat = some sub ∧ s.dev.pickTx p.toNat sub false = none ∧ s.dev.pickTx p.toNat sub true = none) →
      Completes (.swashPacketTransmit p) s fun t => t = s) ∧
    (∀ sub x n psn r time ce, s.dev.boot.thermTrip = false → s.dev.lineFree p.toNat = some sub →
      s.dev.pickTx p.toNat sub false = some (x, s.dev) → s.dev.pickTx p.toNat sub true = some (x, s.dev) →
      x.what = .control n psn r time ce → Completes (.swashPacketTransmit p) s fun t =>
        let h := swWords (if r = 0 then 4 else 5) (if ce then 2 ^ 19 else 0) 0 (s.dev.inF (Reg.SWH_C_INC n)) (s.dev.inF (Reg.SWH_C_PEER_CONN n)) r
          psn 0 0 0 0 0 0
        let f := s.dev.swFrame n ((s.dev.conn n).path % s.dev.paths n) (h.set 10 time) []
        t.dev.out = s.dev.out ++ [.frame p.toNat (f ++ fcsOf f)] ∧
        Tab.get [] t.dev.net.wire p.toNat = Tab.get [] s.dev.net.wire p.toNat ++
          [{ what := x.what, len := (f ++ fcsOf f).length, start := s.dev.clk.tide * 65536 + sub }] ∧
        t.dev.net.items = s.dev.net.items.filter (fun i => i.id != x.num) ∧
        t.dev.rd (Reg.SWH_CNT_COUNT (if r = 0 then 3 else 4)) =
          Min.min (s.dev.rd (Reg.SWH_CNT_COUNT (if r = 0 then 3 else 4)) + 1) (2 ^ 64 - 1))) ∧
  (∀ s (p : BitVec 4), Live s →
    (Tab.get [] s.dev.net.wire p.toNat = [] → Completes (.txFrameEnd p) s fun t => t = s) ∧
    (∀ x later, Tab.get [] s.dev.net.wire p.toNat = x :: later →
      let stop := x.start + ceilDiv ((x.len + 8) * 65536) s.dev.portBytesPerNs
      ((s.dev.clk.tide + 8) * 65536 ≤ stop → Completes (.txFrameEnd p) s fun t => t = s) ∧
      (stop < (s.dev.clk.tide + 8) * 65536 → Completes (.txFrameEnd p) s fun t =>
        Tab.get [] t.dev.net.wire p.toNat = later ∧
        ((∀ id, x.what ≠ .op id) →
          t.dev.rd (Reg.MAC_CNT_COUNT p.toNat 2) = Min.min (s.dev.rd (Reg.MAC_CNT_COUNT p.toNat 2) + 1) (2 ^ 64 - 1) ∧
          t.dev.rd (Reg.MAC_CNT_COUNT p.toNat 3) = Min.min (s.dev.rd (Reg.MAC_CNT_COUNT p.toNat 3) + x.len) (2 ^ 64 - 1) ∧
          Becomes s t { s.dev with
            regs := t.dev.regs
            net := { s.dev.net with wire := t.dev.net.wire } } ∧
          FieldsKept [Reg.MAC_CNT_COUNT p.toNat 2, Reg.MAC_CNT_COUNT p.toNat 3] s t))))

end Sys2Proof

/-- Swash connections and their work: Connections and SwashWork. -/
def Obligations.SwashConnections : Prop :=
  Rules.Connections ∧ Rules.SwashWork

/-! Ethernet ports -/

namespace Sys2Proof

/-- The counter n of a port advances by k. -/
def MacCounts (p n k : Nat) (s t : State) : Prop :=
  t.dev.rd (Reg.MAC_CNT_COUNT p n) = Min.min (s.dev.rd (Reg.MAC_CNT_COUNT p n) + k) (2 ^ 64 - 1)

/-- A port enters a link state. -/
def LinkEnters (p st : Nat) (t : State) : Prop := t.dev.linkState p = st ∧ Tab.get 0 t.dev.net.since p = t.dev.clk.tick

end Sys2Proof

/-- LINK_TRAINED, TX_POLARITY_FLIP, TRAIN_FAIL, ALIGN_TIMEOUT, LINK_UP and LINK_DOWN: a port in TRAINING whose lanes have trained shows its
corrections and aligns; a flip inverts one lane, 2 ms after its training began (log 188); after 500 ms training fails and begins again, as it does after 50 ms of alignment; after 1 ms
of alignment the port is UP and the timers of its connections run on. A port that is not in the state it needs does nothing. Down, it trains
again, its drop is seen and counted, and the interrupt rises (R235 to R237, R327). -/
def Obligations.LinkStates : Prop :=
  (∀ s (p : BitVec 4) (inv : BitVec 8) (order : BitVec 24), Live s →
    (s.dev.portActive p.toNat = false ∨ s.dev.linkState p.toNat ≠ 1 → Completes (.linkTrained p inv order) s fun t => t = s) ∧
    (s.dev.portActive p.toNat = true → s.dev.linkState p.toNat = 1 → Completes (.linkTrained p inv order) s fun t =>
      let m := 2 ^ s.dev.lanes
      let rx := inv.toNat % m
      let tx := Tab.get 0 s.dev.net.txInv p.toNat % m
      let ord := order.toNat % 8 ^ s.dev.lanes
      let same : Prop := s.dev.rd (Reg.MAC_LANES_RX_POL_INV p.toNat) = rx ∧ s.dev.rd (Reg.MAC_LANES_TX_POL_INV p.toNat) = tx ∧
        s.dev.rd (Reg.MAC_LANES_RX_ORDER p.toNat) = ord
      LinkEnters p.toNat 2 t ∧ t.dev.rd (Reg.MAC_LANES_RX_POL_INV p.toNat) = rx ∧ t.dev.rd (Reg.MAC_LANES_TX_POL_INV p.toNat) = tx ∧
      t.dev.rd (Reg.MAC_LANES_RX_ORDER p.toNat) = ord ∧ t.dev.rd (Reg.MAC_LANES_LANE_LOCK p.toNat) = m - 1 ∧
      Tab.get false t.dev.net.trained p.toNat = true ∧
      (Tab.get false s.dev.net.trained p.toNat = true → ¬ same → t.dev.rd (Reg.MAC_STATUS_LANE_CHANGED p.toNat) = 1) ∧
      (Tab.get false s.dev.net.trained p.toNat = false ∨ same →
        t.dev.rd (Reg.MAC_STATUS_LANE_CHANGED p.toNat) = s.dev.rd (Reg.MAC_STATUS_LANE_CHANGED p.toNat)) ∧
      Becomes s t { s.dev with
        regs := t.dev.regs
        net := { s.dev.net with since := t.dev.net.since, trained := t.dev.net.trained } } ∧
      FieldsKept [Reg.MAC_LANES_RX_POL_INV p.toNat, Reg.MAC_LANES_TX_POL_INV p.toNat, Reg.MAC_LANES_RX_ORDER p.toNat,
        Reg.MAC_LANES_LANE_LOCK p.toNat, Reg.MAC_STATUS_LANE_CHANGED p.toNat, Reg.MAC_STATUS_LINK_STATE p.toNat] s t)) ∧
  (∀ s (p : BitVec 4) (lane : BitVec 3), Live s →
    let k := p.toNat * 8 + lane.toNat
    let may : Prop := s.dev.portActive p.toNat = true ∧ s.dev.linkState p.toNat = 1 ∧ lane.toNat < s.dev.lanes ∧
      Max.max (Tab.get 0 s.dev.net.since p.toNat) (Tab.get 0 s.dev.net.flipAt k) + 250000 ≤ s.dev.clk.tick
    (¬ may → Completes (.txPolarityFlip p lane) s fun t => t = s) ∧
    (may → Completes (.txPolarityFlip p lane) s fun t =>
      (∀ k, (Tab.get 0 t.dev.net.txInv p.toNat).testBit k =
        ((Tab.get 0 s.dev.net.txInv p.toNat).testBit k ^^ decide (k = lane.toNat))) ∧
      (∀ q, q ≠ p.toNat → Tab.get 0 t.dev.net.txInv q = Tab.get 0 s.dev.net.txInv q) ∧
      Tab.get 0 t.dev.net.flipAt k = s.dev.clk.tick ∧ (∀ j, j ≠ k → Tab.get 0 t.dev.net.flipAt j = Tab.get 0 s.dev.net.flipAt j) ∧
      Becomes s t { s.dev with net := { s.dev.net with txInv := t.dev.net.txInv, flipAt := t.dev.net.flipAt } })) ∧
  (∀ s (p : BitVec 4) lost, Live s →
    let since := Tab.get 0 s.dev.net.since p.toNat
    let fails : Prop := s.dev.linkState p.toNat = 1 ∧ 62500000 ≤ s.dev.clk.tick - since
    let slips : Prop := s.dev.linkState p.toNat = 2 ∧ (lost = true ∨ 6250000 ≤ s.dev.clk.tick - since)
    let again (fs : List Fld) (t : State) : Prop := LinkEnters p.toNat 1 t ∧ t.dev.rd (Reg.MAC_LANES_LANE_LOCK p.toNat) = 0 ∧
      Tab.get 0 t.dev.net.txInv p.toNat = 0 ∧
      Becomes s t { s.dev with
        regs := t.dev.regs
        net := { s.dev.net with since := t.dev.net.since, txInv := t.dev.net.txInv } } ∧
      FieldsKept (fs ++ [Reg.MAC_STATUS_LINK_STATE p.toNat, Reg.MAC_LANES_LANE_LOCK p.toNat]) s t
    (¬ fails → Completes (.trainFail p) s fun t => t = s) ∧ (¬ slips → Completes (.alignTimeout p lost) s fun t => t = s) ∧
    (fails → Completes (.trainFail p) s fun t => t.dev.rd (Reg.MAC_STATUS_TRAIN_FAIL p.toNat) = 1 ∧ again [Reg.MAC_STATUS_TRAIN_FAIL p.toNat] t) ∧
    (slips → Completes (.alignTimeout p lost) s (again []))) ∧
  (∀ s (p : BitVec 4), Live s →
    let may : Prop := s.dev.portActive p.toNat = true ∧ s.dev.linkState p.toNat = 2 ∧ 125000 ≤ s.dev.clk.tick - Tab.get 0 s.dev.net.since p.toNat
    (¬ may → Completes (.linkUp p) s fun t => t = s) ∧
    (may → Completes (.linkUp p) s fun t => LinkEnters p.toNat 3 t ∧
      t.dev.sw.conns = s.dev.sw.conns.map (fun x => if s.dev.inF (Reg.SWH_C_PORT x.1) = p.toNat then
        (x.1, { x.2 with out := x.2.out.map fun (o : OutPsn) => match o.stopped with
          | some n => { o with expiry := s.dev.clk.tide + n, stopped := none }
          | none => o }) else x) ∧
      Becomes s t { s.dev with
        regs := t.dev.regs
        net := { s.dev.net with since := t.dev.net.since }
        sw := { s.dev.sw with conns := t.dev.sw.conns } } ∧ FieldsKept [Reg.MAC_STATUS_LINK_STATE p.toNat] s t)) ∧
  (∀ s (p : BitVec 4) cut, Live s →
    (s.dev.linkState p.toNat ≠ 3 → Completes (.linkDown p cut) s fun t => t = s) ∧
    (s.dev.linkState p.toNat = 3 → Completes (.linkDown p cut) s fun t => LinkEnters p.toNat 1 t ∧
      t.dev.rd (Reg.MAC_STATUS_LINK_DOWN_SEEN p.toNat) = 1 ∧ Interrupts .mac t ∧ MacCounts p.toNat 16 1 s t ∧
      t.dev.rd (Reg.MAC_LANES_LANE_LOCK p.toNat) = 0 ∧ (∀ i ∈ t.dev.net.items, i.port = p.toNat → i.held = true)))

namespace Sys2Proof

/-- The number of the first failure's counter, as R241 orders them. -/
def faultCounter (align : Bool) (long short : Prop) [Decidable long] [Decidable short] : Nat :=
  if align then 7 else if long then 6 else if short then 5 else 4

/-- FRAME_RECEIVE, PFC_FRAME_RECEIVE, PFC_PAUSE_EXPIRY and PFC_SEND_REPEAT: a port that is not UP receives nothing. A bad frame is counted under
its first failure, and dropped unless bad frames are delivered; a good one is counted and passes to a pipeline; PAUSE is counted and ignored.
A PFC frame pauses, or sets free, each priority it names; a pause ends at its time. While a port pauses its peer it asks for the frame again, and for
the end of the pause at XON; a frame that was being received when the clearing of ENABLE took the port down is cut off (R237, R241, R242, R245 to R247). -/
def Rules.FramesIn : Prop :=
  (∀ s (p : BitVec 4) bytes align sfd, Live s →
    let long := Max.max 1518 (Min.min 9216 (s.dev.inF (Reg.MAC_PORT_CTL_MAX_FRAME p.toNat))) < bytes.length
    let short := bytes.length < 64
    let sound : Prop := align = false ∧ ¬ long ∧ ¬ short ∧ natLe 4 (crc32 (bytes.take (bytes.length - 4))) = bytes.drop (bytes.length - 4)
    let n := faultCounter align long short
    (s.dev.portUp p.toNat = false → (∀ c, Tab.get none s.dev.net.cutAt p.toNat = some c → c * 65536 ≤ sfd) →
      Completes (.frameReceive p bytes align sfd) s fun t => t = s) ∧
    (∀ c, s.dev.portUp p.toNat = false → Tab.get none s.dev.net.cutAt p.toNat = some c → sfd < c * 65536 →
      s.dev.inF (Reg.MAC_PORT_CTL_DELIVER_BAD p.toNat) = 0 → Completes (.frameReceive p bytes align sfd) s fun t =>
        MacCounts p.toNat 7 1 s t ∧ MacCounts p.toNat 8 1 s t ∧ Tab.get none t.dev.net.cutAt p.toNat = none ∧
        (∀ q, q ≠ p.toNat → Tab.get none t.dev.net.cutAt q = Tab.get none s.dev.net.cutAt q) ∧
        Becomes s t { s.dev with
          regs := t.dev.regs
          net := { s.dev.net with cutAt := t.dev.net.cutAt } } ∧ FieldsKept [Reg.MAC_CNT_COUNT p.toNat 7, Reg.MAC_CNT_COUNT p.toNat 8] s t) ∧
    (s.dev.portUp p.toNat = true → ¬ sound → s.dev.inF (Reg.MAC_PORT_CTL_DELIVER_BAD p.toNat) = 0 →
      Completes (.frameReceive p bytes align sfd) s fun t => MacCounts p.toNat n 1 s t ∧ MacCounts p.toNat 8 1 s t ∧
        OnlyFields [Reg.MAC_CNT_COUNT p.toNat n, Reg.MAC_CNT_COUNT p.toNat 8] s t) ∧
    (s.dev.portUp p.toNat = true → sound → isPfc bytes = false → isPause bytes = true →
      Completes (.frameReceive p bytes align sfd) s fun t => MacCounts p.toNat 0 1 s t ∧ MacCounts p.toNat 1 bytes.length s t ∧
        MacCounts p.toNat 13 1 s t ∧
        OnlyFields [Reg.MAC_CNT_COUNT p.toNat 0, Reg.MAC_CNT_COUNT p.toNat 1, Reg.MAC_CNT_COUNT p.toNat 13] s t) ∧
    (s.dev.portUp p.toNat = true → sound → isPfc bytes = false → isPause bytes = false → s.dev.pfcMode p.toNat = 0 →
      Completes (.frameReceive p bytes align sfd) s fun t => MacCounts p.toNat 0 1 s t ∧ MacCounts p.toNat 1 bytes.length s t ∧
        t.dev.net.frames = s.dev.net.frames ++ [{
          id := s.dev.nextOp, port := p.toNat, bytes := bytes, stamp := (sfd / 32768 * 32768 : Nat) - (s.dev.inF (Reg.MAC_PTP_RX_LATENCY p.toNat) : Int)
          event := (eventAt (bytes.take (bytes.length - 4))).isSome, tc := s.dev.inF (Reg.MAC_PORT_CTL_TC_ENABLE p.toNat) != 0, at_ := s.dev.clk.tide }] ∧
        Becomes s t { s.dev with
          regs := t.dev.regs, nextOp := s.dev.nextOp + 1
          net := { s.dev.net with frames := t.dev.net.frames } } ∧
        FieldsKept [Reg.MAC_CNT_COUNT p.toNat 0, Reg.MAC_CNT_COUNT p.toNat 1] s t) ∧
    (s.dev.portUp p.toNat = false ∨ isPfc bytes = false → Completes (.pfcFrameReceive p bytes) s fun t => t = s) ∧
    (s.dev.portUp p.toNat = true → sound → isPfc bytes = true → s.dev.pfcMode p.toNat = 0 → Completes (.pfcFrameReceive p bytes) s fun t =>
      MacCounts p.toNat 11 1 s t ∧
      OnlyFields [Reg.MAC_CNT_COUNT p.toNat 0, Reg.MAC_CNT_COUNT p.toNat 1, Reg.MAC_CNT_COUNT p.toNat 11] s t) ∧
    (s.dev.portUp p.toNat = true → sound → isPfc bytes = true → s.dev.pfcMode p.toNat = 1 → Completes (.pfcFrameReceive p bytes) s fun t =>
      MacCounts p.toNat 11 1 s t ∧
      (∀ x, x < 8 →
        let quanta := be16 bytes (18 + 2 * x)
        let pause (t : State) := Tab.get none t.dev.net.pauses (p.toNat * 8 + x)
        let bit (t : State) := (t.dev.rd (Reg.MAC_STATUS_PAUSED p.toNat)).testBit x
        ((be16 bytes 16).testBit x = true → quanta ≠ 0 → pause t = some (s.dev.clk.tide + s.dev.quantaNs quanta) ∧ bit t = true) ∧
        ((be16 bytes 16).testBit x = true → quanta = 0 → pause t = none ∧ bit t = false) ∧
        ((be16 bytes 16).testBit x = false → pause t = pause s ∧ bit t = bit s)) ∧
      Becomes s t { s.dev with
        regs := t.dev.regs
        net := { s.dev.net with pauses := t.dev.net.pauses } })) ∧
  (∀ s (p : BitVec 4) (x : BitVec 3), Live s →
    let pause := Tab.get none s.dev.net.pauses (p.toNat * 8 + x.toNat)
    (pause = none ∨ (∃ e, pause = some e ∧ s.dev.clk.tide < e) → Completes (.pfcPauseExpiry p x) s fun t => t = s) ∧
    (∀ e, pause = some e → e ≤ s.dev.clk.tide → Completes (.pfcPauseExpiry p x) s fun t =>
      Tab.get none t.dev.net.pauses (p.toNat * 8 + x.toNat) = none ∧ (t.dev.rd (Reg.MAC_STATUS_PAUSED p.toNat)).testBit x.toNat = false ∧
      (∀ k, k ≠ p.toNat * 8 + x.toNat → Tab.get none t.dev.net.pauses k = Tab.get none s.dev.net.pauses k) ∧
      Becomes s t { s.dev with
        regs := t.dev.regs
        net := { s.dev.net with pauses := t.dev.net.pauses } } ∧ FieldsKept [Reg.MAC_STATUS_PAUSED p.toNat] s t)) ∧
  (∀ s (p : BitVec 4), Live s →
    let held := s.dev.rxOccupancy p.toNat
    let xon := s.dev.inF (Reg.MAC_PFC_XON_KIB p.toNat) * 1024
    let q := s.dev.inF (Reg.MAC_PFC_QUANTA p.toNat)
    let sends (quanta : Nat) (x : Option Nat) (t : State) : Prop :=
      Tab.get none t.dev.net.pfcOut p.toNat = some quanta ∧ Tab.get none t.dev.net.xoff p.toNat = x ∧
      (∀ q, q ≠ p.toNat → Tab.get none t.dev.net.pfcOut q = Tab.get none s.dev.net.pfcOut q ∧
        Tab.get none t.dev.net.xoff q = Tab.get none s.dev.net.xoff q) ∧
      Becomes s t { s.dev with net := { s.dev.net with xoff := t.dev.net.xoff, pfcOut := t.dev.net.pfcOut } }
    (s.dev.portUp p.toNat = false ∨ s.dev.pfcMode p.toNat = 0 ∨ Tab.get none s.dev.net.xoff p.toNat = none →
      Completes (.pfcSendRepeat p) s fun t => t = s) ∧
    (∀ e, s.dev.portUp p.toNat = true → s.dev.pfcMode p.toNat ≠ 0 → Tab.get none s.dev.net.xoff p.toNat = some e →
      (held ≤ xon → Completes (.pfcSendRepeat p) s (sends 0 none)) ∧
      (xon < held → e + s.dev.quantaNs (q / 2) ≤ s.dev.clk.tide → Completes (.pfcSendRepeat p) s (sends q (some s.dev.clk.tide))) ∧
      (xon < held → s.dev.clk.tide < e + s.dev.quantaNs (q / 2) → Completes (.pfcSendRepeat p) s fun t => t = s)))

/-- TX_FRAME_START, MAC_FLUSH, TX_TS_POP and RX_POST: after a thermal trip, or where no frame may go, none starts. A PFC frame that waits goes
first. A forwarded frame starts padded and with a new check sequence, as does an operation's frame with its data, or as its last pass has made
it; a flush removes a queue's waiting frames; a pop drops the oldest timestamp; neither acts on a port that is not active; a buffer that is
posted stands at the end of its queue, and one for a queue that is not enabled is forgotten and marked (R109, R112, R234, R239, R240, R244,
R246, R251, R253, R390). -/
def Rules.FramesOut : Prop :=
  (∀ s (p : BitVec 4) (sub : BitVec 19), Live s →
    let onWire (w : TxWhat) (n : Nat) (t : State) : Prop :=
      Tab.get [] t.dev.net.wire p.toNat = Tab.get [] s.dev.net.wire p.toNat ++
        [{ what := w, len := n, start := s.dev.clk.tide * 65536 + sub.toNat }] ∧
      (∀ q, q ≠ p.toNat → Tab.get [] t.dev.net.wire q = Tab.get [] s.dev.net.wire q) ∧ t.dev.mem = s.dev.mem
    let starts (w : TxWhat) (f : List Byte) (t : State) : Prop :=
      let bytes := f ++ natLe 4 (crc32 f)
      t.dev.out = s.dev.out ++ [.frame p.toNat bytes] ∧ onWire w bytes.length t ∧ t.dev.regs = s.dev.regs
    let begins (x : Cand) (e : Dev) : Prop :=
      s.dev.boot.thermTrip = false ∧ s.dev.pickTx p.toNat sub.toNat true = some (x, e) ∧ e = { s.dev with cal := e.cal }
    (s.dev.boot.thermTrip = true ∨ (s.dev.pfcMay p.toNat sub.toNat = false ∧ s.dev.pickTx p.toNat sub.toNat true = none) →
      Completes (.txFrameStart p sub) s fun t => t = s) ∧
    (∀ quanta, s.dev.boot.thermTrip = false → s.dev.pfcMay p.toNat sub.toNat = true → Tab.get none s.dev.net.pfcOut p.toNat = some quanta →
      Completes (.txFrameStart p sub) s fun t =>
        t.dev.out = s.dev.out ++ [.pfc p.toNat (s.dev.inF (Reg.MAC_PFC_ENABLE_PRI p.toNat)) quanta] ∧ onWire (.frame [] none) 64 t ∧
        Tab.get none t.dev.net.pfcOut p.toNat = none ∧ MacCounts p.toNat 12 1 s t ∧
        Becomes s t { s.dev with
          regs := t.dev.regs, out := t.dev.out
          net := { s.dev.net with pfcOut := t.dev.net.pfcOut, wire := t.dev.net.wire }
          cal := { s.dev.cal with busy := t.dev.cal.busy } } ∧ FieldsKept [Reg.MAC_CNT_COUNT p.toNat 12] s t) ∧
    (∀ x e l, begins x e → x.what = .frame l none → Completes (.txFrameStart p sub) s fun t =>
      starts x.what (l ++ List.replicate (60 - l.length) 0) t ∧ t.dev.ops = s.dev.ops ∧
      t.dev.net.items = s.dev.net.items.filter (fun i => i.id != x.num)) ∧
    (∀ x e id o, begins x e → x.what = .op id → s.dev.op? id = some o → o.req.kind = 1 → o.status = 0 → o.req.desc.devMem = false →
      o.ended = false → (o.built = 2 → Completes (.txFrameStart p sub) s fun t => starts x.what o.data t ∧
        t.dev.ops = s.dev.ops.map (fun q => if q.req.id = id then q.sendFrame p.toNat x.len else q) ∧ t.dev.net.items = s.dev.net.items) ∧
      (o.built = 0 → o.req.desc.cipher = false → o.req.desc.mirror = false → Completes (.txFrameStart p sub) s fun t =>
        let l := o.data.take (o.req.desc.length.toNat - 4)
        let f := l ++ List.replicate (60 - l.length) 0
        starts x.what f t ∧ t.dev.net.items = s.dev.net.items ∧
        t.dev.ops = s.dev.ops.map (fun q => if q.req.id = id then { q with data := f, built := 2 }.sendFrame p.toNat x.len else q))) ∧
    (∀ (o : Op) q n, (o.sendFrame q n).going = o.going ++ [⟨5, q, false⟩] ∧ (o.sendFrame q n).sent = o.sent + 1)) ∧
  (∀ s ag (p : BitVec 4) (v : BitVec 64), Live s →
    let dead : Prop := s.dev.released = true ∧ s.dev.portActive p.toNat = false
    (dead → Completes (.macFlush ag p 2 v) s (fun t => t = s) ∧ Completes (.txTsPop ag p 2 v) s fun t => t = s) ∧
    (¬ dead → s.dev.mayWrite ag (0x200028 + 0x4000 * p.toNat) = false →
      Completes (.macFlush ag p 2 v) s (Discards ag (0x200028 + 0x4000 * p.toNat) s)) ∧
    (¬ dead → s.dev.mayWrite ag (0x200028 + 0x4000 * p.toNat) = true → Completes (.macFlush ag p 2 v) s fun t =>
      (∀ i ∈ t.dev.net.items, i ∈ s.dev.net.items ∨ ∃ c, i.what = .resp c) ∧
      (∀ i ∈ t.dev.net.items, i.port = p.toNat → i.q < 16 → v.toNat.testBit i.q = true → ∀ l ptp, i.what ≠ .frame l ptp) ∧
      (v.toNat % 65536 = 0 → t = s)) ∧
    (¬ dead → s.dev.mayWrite ag (0x200060 + 0x4000 * p.toNat) = false → Completes (.txTsPop ag p 2 v) s (Discards ag (0x200060 + 0x4000 * p.toNat) s)) ∧
    (¬ dead → s.dev.mayWrite ag (0x200060 + 0x4000 * p.toNat) = true → Completes (.txTsPop ag p 2 v) s fun t =>
      (v.toNat.testBit 0 = false → t = s) ∧
      (v.toNat.testBit 0 = true → Tab.get [] t.dev.net.stamps p.toNat = (Tab.get [] s.dev.net.stamps p.toNat).drop 1 ∧
        (∀ q, q ≠ p.toNat → Tab.get [] t.dev.net.stamps q = Tab.get [] s.dev.net.stamps q) ∧
        Becomes s t { s.dev with net := { s.dev.net with stamps := t.dev.net.stamps } }))) ∧
  (∀ s (tid : BitVec 9) ring head (x : Desc), Live s →
    let rq := x.target.toNat % 65536
    let k := 512 + rq
    let slot := tid.toNat * 256 + rq
    let takes : Prop := rq < 256 ∧ s.dev.inF (Reg.TEN_Q_ENABLE tid.toNat k) ≠ 0 ∧ x.bad = false ∧ x.devMem = false
    (¬ takes → Completes (.rxPost tid ring head x) s fun t => t.dev.rd (Reg.TEN_STATUS_POST_DROPPED tid.toNat) = 1 ∧
      OnlyFields [Reg.TEN_STATUS_POST_DROPPED tid.toNat] s t) ∧
    (takes → s.dev.rxWaiting tid.toNat rq = [] → Completes (.rxPost tid ring head x) s fun t =>
      let n := Tab.get 0 s.dev.host.postNext slot
      Tab.get [] t.dev.host.posted slot = Tab.get [] s.dev.host.posted slot ++
        [{ index := n, addr := x.addr1.toNat, len := x.length.toNat, interrupt := x.interrupt, time := s.dev.clk.tide }] ∧
      Tab.get 0 t.dev.host.postNext slot = (n + 1) % 65536 ∧
      (∀ j, j ≠ slot → Tab.get [] t.dev.host.posted j = Tab.get [] s.dev.host.posted j ∧
        Tab.get 0 t.dev.host.postNext j = Tab.get 0 s.dev.host.postNext j) ∧
      Becomes s t { s.dev with
        regs := t.dev.regs
        host := { s.dev.host with posted := t.dev.host.posted, postNext := t.dev.host.postNext } } ∧
      FieldsKept [Reg.TEN_Q_TAIL tid.toNat k] s t))

end Sys2Proof

/-- Frames in and out: FramesIn and FramesOut. -/
def Obligations.Frames : Prop :=
  Rules.FramesIn ∧ Rules.FramesOut

/-! Parsing and classification -/

namespace Sys2Proof

/-- A classification counter advances by k. -/
def PrsCounts (n k : Nat) (s t : State) : Prop :=
  t.dev.rd (Reg.PRS_CNT_COUNT n) = Min.min (s.dev.rd (Reg.PRS_CNT_COUNT n) + k) (2 ^ 64 - 1)

/-- Every frame as it was, but the one with a number changed. -/
def framesWith (l : List RxFrame) (id : Nat) (f : RxFrame → RxFrame) : List RxFrame := l.map fun x => if x.id = id then f x else x

/-- PROG_COMMIT, PROG_CHECK, PAT_COMMIT, PAT_IMAGE_CHECK and PAT_IMAGE_ACTIVATE: a commit by right asks for its check at the epoch boundary;
there a program that is right is taken as a whole and PROG_GEN counts it, and one that is not is refused, marked and logged, while the program
in force stays; an image of DRAM that is right waits for the epoch boundary after, where it takes the place of the old one, and meanwhile a
commit is discarded (R256, R269, R270). -/
def Rules.Programs : Prop :=
  (∀ s ag (v : BitVec 64), Live s →
    let asks (x : Due) (fs : List Fld) (t : State) : Prop := AsksEpoch x s t ∧ t.dev.asker x = ag ∧ (∀ f, t.dev.inF f = s.dev.inF f) ∧
      Becomes s t { s.dev with
        regs := t.dev.regs
        clk := { s.dev.clk with reqEpoch := t.dev.clk.reqEpoch, askers := t.dev.clk.askers } } ∧ FieldsKept fs s t
    let len (t : State) : Prop := t.dev.rd Reg.PRS_PAT_LENGTH = v.toNat % 2 ^ 28
    (s.dev.mayWrite ag 0x300000 = false → Completes (.progCommit ag 2 v) s (Discards ag 0x300000 s)) ∧
    (s.dev.mayWrite ag 0x300000 = true → Completes (.progCommit ag 2 v) s fun t =>
      (v.toNat.testBit 63 = true → asks .progCheck [] t) ∧ (v.toNat.testBit 63 = false → t = s)) ∧
    (s.dev.mayWrite ag 0x300038 = false → Completes (.patCommit ag 2 v) s (Discards ag 0x300038 s)) ∧
    (s.dev.mayWrite ag 0x300038 = true → v.toNat.testBit 63 = false → Completes (.patCommit ag 2 v) s fun t =>
      len t ∧ OnlyFields [Reg.PRS_PAT_LENGTH] s t) ∧
    (s.dev.mayWrite ag 0x300038 = true → v.toNat.testBit 63 = true → s.dev.rd Reg.PRS_STATUS_PAT_PENDING = 0 →
      Completes (.patCommit ag 2 v) s fun t => len t ∧ asks .patCheck [Reg.PRS_PAT_LENGTH] t) ∧
    (s.dev.mayWrite ag 0x300038 = true → v.toNat.testBit 63 = true → s.dev.rd Reg.PRS_STATUS_PAT_PENDING ≠ 0 →
      Completes (.patCommit ag 2 v) s fun t => len t ∧ LogsAnd [Reg.PRS_PAT_LENGTH] (ctlRecord ag 0x14 0x300038 0x38) s t)) ∧
  WhenDue .progCheck .progCheck (fun s t =>
    (progOk s.dev.adminProg = true → t.dev.net.prog = s.dev.adminProg ∧
      t.dev.rd Reg.PRS_PROG_CTRL_PROG_GEN = (s.dev.rd Reg.PRS_PROG_CTRL_PROG_GEN + 1) % 2 ^ 32 ∧
      Becomes s t { s.dev with
        regs := t.dev.regs
        net := { s.dev.net with prog := t.dev.net.prog } } ∧ FieldsKept [Reg.PRS_PROG_CTRL_PROG_GEN] s t) ∧
    (progOk s.dev.adminProg = false → t.dev.rd Reg.PRS_STATUS_PROG_REFUSED = 1 ∧
      LogsAnd [Reg.PRS_STATUS_PROG_REFUSED] (ctlRecord (s.dev.asker .progCheck) 0x15 0x300000 0) s t)) ∧
  WhenDue .patImageCheck .patCheck (fun s t =>
    let a := s.dev.inF Reg.PRS_PAT_ADDR
    let n := s.dev.inF Reg.PRS_PAT_LENGTH
    let valid : Prop := a % 64 = 0 ∧ s.dev.inDram a n = true ∧ s.dev.anyPoison a n = false ∧ imageOk (s.dev.bytes a n) = true
    (valid → t.dev.net.patShadow = some (s.dev.bytes a n) ∧ t.dev.rd Reg.PRS_STATUS_PAT_PENDING = 1 ∧ AsksEpoch .patActivate s t ∧
      Becomes s t { s.dev with
        regs := t.dev.regs
        net := { s.dev.net with patShadow := t.dev.net.patShadow }
        clk := { s.dev.clk with reqEpoch := t.dev.clk.reqEpoch } } ∧ FieldsKept [Reg.PRS_STATUS_PAT_PENDING] s t) ∧
    (¬ valid → t.dev.rd Reg.PRS_STATUS_PAT_REFUSED = 1 ∧
      LogsAnd [Reg.PRS_STATUS_PAT_REFUSED] (ctlRecord (s.dev.asker .patCheck) 0x15 0x300038 0x38) s t)) ∧
  WhenDue .patImageActivate .patActivate (fun s t =>
    (∀ img, s.dev.net.patShadow = some img → t.dev.net.pats = img ∧ t.dev.rd Reg.PRS_STATUS_PAT_PENDING = 0 ∧
      Becomes s t { s.dev with
        regs := t.dev.regs
        net := { s.dev.net with pats := img, patShadow := none } } ∧ FieldsKept [Reg.PRS_STATUS_PAT_PENDING] s t) ∧
    (s.dev.net.patShadow = none → t = s))

end Sys2Proof

/-- Every parse ends: after at most 32 visits, at a state that accepts, or with one of the exceptions 1 to 4; an exception leaves no payload
offset, and the field vector keeps 128 bytes if every extraction of its program keeps within it (R257, R258). -/
def Obligations.ParseEnds : Prop :=
  ∀ (p : Tab Nat) port frame,
    let w := parse p port frame
    w.ended = true ∧ w.visits ≤ 32 ∧ w.fail ≤ 4 ∧ (w.fail ≠ 0 → w.payload = 0) ∧
    ((∀ st i, i < 2 → extOk (progAt p (Reg.PRS_STATE_W st i) % 2 ^ 32) = true ∧ extOk (progAt p (Reg.PRS_STATE_W st i) / 2 ^ 32 % 2 ^ 32) = true) →
      w.fv.length = 128)

namespace Sys2Proof

/-- PIPELINE_PASS, REEF_LOOKUP, ACTION_SETTLE, FRAME_HAND_ON and HANDOFF_POST: the oldest frame of a port is parsed, meets each issued stage at
its time, settles 80 ns after P and is handed on 88 ns after it, and before its time nothing happens. A failed parse goes the exception path by
its reason while the bucket holds; DROP, PORT, SWASH, CHANNEL and TENANT do what they say; a handoff's message reaches its channel, and its
headroom is written (R254, R255, R257, R260 to R268, R274). -/
def Rules.Classification : Prop :=
  (∀ s (p : BitVec 4), Live s →
    let waiting (f : RxFrame) : Bool := decide (f.port = p.toNat) && !f.passed
    (s.dev.net.frames.find? waiting = none → Completes (.pipelinePass p) s fun t => t = s) ∧
    (∀ f, s.dev.net.frames.find? waiting = some f → Completes (.pipelinePass p) s fun t =>
      let n := Tab.get 0 s.dev.net.passes f.port
      let w := parse s.dev.net.prog f.port f.bytes
      let prof := progAt s.dev.net.prog (Reg.PRS_PORT_PROFILE f.port)
      Tab.get 0 t.dev.net.passes f.port = n + 1 ∧ (∀ q, q ≠ f.port → Tab.get 0 t.dev.net.passes q = Tab.get 0 s.dev.net.passes q) ∧
      t.dev.net.frames = framesWith s.dev.net.frames f.id (fun x => { x with
        passed := true, pipe := f.port + n % s.dev.lanes, fv := w.fv, fail := w.fail
        keys := if w.fail = 0 then stageKeys s.dev.net.prog prof w.fv (w.flags.testBit 1) else []
        dflt := (progAt s.dev.net.prog (Reg.PRS_PROFILE_DEFAULT prof 0), progAt s.dev.net.prog (Reg.PRS_PROFILE_DEFAULT prof 1)) }) ∧
      Becomes s t { s.dev with net := { s.dev.net with frames := t.dev.net.frames, passes := t.dev.net.passes } })) ∧
  (∀ s (p : BitVec 4) (k : BitVec 2), Live s →
    let due (f : RxFrame) : Bool := decide (f.port = p.toNat) && (f.passed && !f.looked && decide (f.next = k.toNat))
    (s.dev.net.frames.find? due = none → Completes (.reefLookup p k) s fun t => t = s) ∧
    (∀ f, s.dev.net.frames.find? due = some f →
      (s.dev.clk.tide < f.at_ + 16 + 16 * k.toNat → Completes (.reefLookup p k) s fun t => t = s) ∧
      (f.at_ + 16 + 16 * k.toNat ≤ s.dev.clk.tide → f.keys.getD k.toNat none = none → Completes (.reefLookup p k) s fun t =>
        Becomes s t { s.dev with net := { s.dev.net with
          frames := framesWith s.dev.net.frames f.id (fun x => { x with next := k.toNat + 1 }) } }) ∧
      (f.at_ + 16 + 16 * k.toNat ≤ s.dev.clk.tide → ∀ table key a0 a1 n e, f.keys.getD k.toNat none = some (table, key) →
        s.dev.look table key true = (.hit a0 a1 n, e) → a0.testBit 57 = false → a0.testBit 58 = false → Completes (.reefLookup p k) s fun t =>
          Becomes s t { e with net := { e.net with frames := framesWith e.net.frames f.id (fun x => { x with
            next := k.toNat + 1, hit := if a0.testBit 59 = true then x.hit else some (a0, a1, k.toNat) }) } }))) ∧
  (∀ s (p : BitVec 4) f, Live s → s.dev.net.frames.find? (fun f => decide (f.port = p.toNat) && (f.passed && f.fates.isNone)) = some f →
    let counted (t : State) : Prop := PrsCounts 0 1 s t
    let settled (l : List Fate) (t : State) : Prop :=
      t.dev.net.frames = framesWith s.dev.net.frames f.id (fun x => { x with fates := some l })
    let frag : Prop := (f.fv.getD 1 0).toNat.testBit 2 = true
    let tokens (r : Nat) (t : State) := Tab.get 0 t.dev.net.excTokens r
    (s.dev.clk.tide < f.at_ + 80 → Completes (.actionSettle p) s fun t => t = s) ∧
    (f.at_ + 80 ≤ s.dev.clk.tide → f.fail ≠ 0 → f.fail < 8 → (∀ x ∈ s.dev.net.frames, x.id = f.id → x = f) →
      (s.dev.inF Reg.PRS_EXC_ENABLE ≠ 0 → 256 ≤ tokens f.fail s → Completes (.actionSettle p) s fun t =>
        settled [.handoff 2 f.fail (s.dev.inF Reg.PRS_EXC_CHANNEL) 15 0 none] t ∧ counted t ∧ PrsCounts 1 1 s t ∧
        tokens f.fail t = tokens f.fail s - 256 ∧ (∀ r, r ≠ f.fail → tokens r t = tokens r s) ∧
        Becomes s t { s.dev with
          regs := t.dev.regs
          net := { s.dev.net with frames := t.dev.net.frames, excTokens := t.dev.net.excTokens } } ∧
        FieldsKept [Reg.PRS_CNT_COUNT 0, Reg.PRS_CNT_COUNT 1] s t) ∧
      (s.dev.inF Reg.PRS_EXC_ENABLE = 0 ∨ tokens f.fail s < 256 → Completes (.actionSettle p) s fun t =>
        settled [] t ∧ counted t ∧ PrsCounts 1 1 s t ∧
        Becomes s t { s.dev with
          regs := t.dev.regs
          net := { s.dev.net with frames := t.dev.net.frames } } ∧
        FieldsKept [Reg.PRS_CNT_COUNT 0, Reg.PRS_CNT_COUNT 1, Reg.PRS_CNT_EXC_DROP f.fail] s t)) ∧
    (f.at_ + 80 ≤ s.dev.clk.tide → f.fail = 0 → f.poison = false → ¬ frag → f.learn = none → f.mirror = none → f.copy = none →
      (∀ x ∈ s.dev.net.frames, x.id = f.id → x = f) → ∀ a0 a1 k, f.hit = some (a0, a1, k) → a0.testBit 56 = false → a0.testBit 57 = false →
      a0.testBit 58 = false →
      let only (fs : List Fld) (t : State) : Prop := Becomes s t { s.dev with
        regs := t.dev.regs
        net := { s.dev.net with frames := t.dev.net.frames } } ∧ FieldsKept (Reg.PRS_CNT_COUNT 0 :: fs) s t
      let what := a0 / 2 ^ 60 % 16
      let target := a0 % 2 ^ 32
      (what = 0 → Completes (.actionSettle p) s fun t => settled [] t ∧ counted t ∧ PrsCounts 2 1 s t ∧ only [Reg.PRS_CNT_COUNT 2] t) ∧
      (what = 2 → Completes (.actionSettle p) s fun t =>
        settled [.port (target / 65536 % 512) (target / 16 % 16) (target % 16)] t ∧ counted t ∧ only [] t) ∧
      (what = 3 → Completes (.actionSettle p) s fun t => settled [.swash (target % 2 ^ 20)] t ∧ counted t ∧ only [] t) ∧
      (what = 4 → Completes (.actionSettle p) s fun t =>
        settled [.handoff 0 0 (target % 8192) k (a1 % 2 ^ 32) none] t ∧ counted t ∧ only [] t) ∧
      (what = 1 → a0.testBit 35 = false → (∀ e ∈ s.dev.adm.entries, e.op ≠ s.dev.nextOp) → (∀ o ∈ s.dev.ops, o.req.id ≠ s.dev.nextOp) →
        Completes (.actionSettle p) s fun t =>
          settled [.rx s.dev.nextOp] t ∧ counted t ∧ t.dev.nextOp = s.dev.nextOp + 1 ∧
          (∃ o, t.dev.ops = s.dev.ops ++ [o] ∧ o.id = s.dev.nextOp ∧ o.slack = true ∧ o.dest = some (target / 65536 % 512, target % 65536) ∧
            o.admitted = f.at_ ∧ o.req.kind = 2 ∧ o.waiting = true ∧ o.req.org = .wire f.port) ∧
          Becomes s t { s.dev with
            regs := t.dev.regs, ops := t.dev.ops, nextOp := t.dev.nextOp
            net := { s.dev.net with frames := t.dev.net.frames } } ∧ FieldsKept [Reg.PRS_CNT_COUNT 0] s t))) ∧
  (∀ s (p : BitVec 4) f, Live s → s.dev.net.frames.find? (fun f => decide (f.port = p.toNat) && f.fates.isSome) = some f →
    let gone (t : State) : Prop := t.dev.net.frames = s.dev.net.frames.filter fun x => x.id != f.id
    (s.dev.clk.tide < f.at_ + 88 → Completes (.frameHandOn p) s fun t => t = s) ∧
    (f.at_ + 88 ≤ s.dev.clk.tide → s.dev.pfcMode f.port = 0 →
      (f.fates = some [] → Completes (.frameHandOn p) s fun t => gone t ∧
        Becomes s t { s.dev with net := { s.dev.net with frames := t.dev.net.frames } }) ∧
      (∀ tid q out, f.fates = some [.port tid q out] → s.dev.portUp out = false → Completes (.frameHandOn p) s fun t =>
        gone t ∧ PrsCounts 10 1 s t ∧ Becomes s t { s.dev with
          regs := t.dev.regs
          net := { s.dev.net with frames := t.dev.net.frames } } ∧ FieldsKept [Reg.PRS_CNT_COUNT 10] s t) ∧
      (∀ tid q out, f.fates = some [.port tid q out] → s.dev.portUp out = true →
        let len := Max.max 64 (f.bytes.length - 4 + 4)
        (s.dev.inF (Reg.MAC_SLACK_SLACK_LIMIT_KIB out) * 1024 < s.dev.queueSlack out q + len → Completes (.frameHandOn p) s fun t =>
          gone t ∧ MacCounts out 14 1 s t ∧ Becomes s t { s.dev with
            regs := t.dev.regs
            net := { s.dev.net with frames := t.dev.net.frames } } ∧ FieldsKept [Reg.MAC_CNT_COUNT out 14] s t) ∧
        (s.dev.queueSlack out q + len ≤ s.dev.inF (Reg.MAC_SLACK_SLACK_LIMIT_KIB out) * 1024 → f.event = false →
          Completes (.frameHandOn p) s fun t => gone t ∧ PrsCounts 4 1 s t ∧
            t.dev.net.items = s.dev.net.items ++ [{
              id := s.dev.nextOp, port := out, q := q, tid := tid, leaf := 2 ^ 20 + tid, len := len
              what := .frame (f.bytes.take (f.bytes.length - 4)) none, from_ := some f.port, since := s.dev.clk.tide }] ∧
            Becomes s t { s.dev with
              regs := t.dev.regs, nextOp := s.dev.nextOp + 1
              net := { s.dev.net with frames := t.dev.net.frames, items := t.dev.net.items } } ∧ FieldsKept [Reg.PRS_CNT_COUNT 4] s t)))) ∧
  (∀ s (sh : BitVec 4), Live s →
    let first := s.dev.net.handoffs.find? fun h => decide (h.run.shoal = sh.toNat)
    (first = none → Completes (.handoffPost sh) s fun t => t = s) ∧
    (∀ h, first = some h → h.scan = none → h.meta16.length = 16 → Completes (.handoffPost sh) s fun t =>
      let c := h.channel
      t.dev.net.handoffs = s.dev.net.handoffs.erase h ∧
      t.dev.chan c = { s.dev.chan c with held := (s.dev.chan c).held ++ [⟨shoalEnd h.run.shoal 2, [h.run.handle % 2 ^ 64, h.word % 2 ^ 64], none,
        s.dev.clk.tick + 1, false⟩] } ∧
      (∀ k, k ≠ c → t.dev.chan k = s.dev.chan k) ∧
      (∀ i, i < 112 → Tab.get blankByte t.dev.mem.mem (packetBase + h.run.cell * 64 + 16 + i) = (h.meta16 ++ List.replicate 96 0).getD i 0) ∧
      (∀ a, a < packetBase + h.run.cell * 64 + 16 ∨ packetBase + h.run.cell * 64 + 128 ≤ a → Tab.get blankByte t.dev.mem.mem a = Tab.get blankByte s.dev.mem.mem a) ∧
      Becomes s t { s.dev with
        mem := t.dev.mem, chans := t.dev.chans
        net := { s.dev.net with handoffs := t.dev.net.handoffs } }))

end Sys2Proof

/-- Programs and the classification of frames: Programs and Classification. -/
def Obligations.Parsing : Prop :=
  Rules.Programs ∧ Rules.Classification

/-! The host links -/

namespace Sys2Proof

/-- A counter of a tenant's host link advances by n. -/
def HostCounts (tid m n : Nat) (s t : State) : Prop :=
  t.dev.rd (Reg.HST_CNT_COUNT (tid / 256) m) = Min.min (s.dev.rd (Reg.HST_CNT_COUNT (tid / 256) m) + n) (2 ^ 64 - 1)

/-- A request of the host reaches a function's BARs: its memory space is on, and in RUN it carries the T bit. -/
def BarOpen (d : Dev) (tid : Nat) (tee : Bool) : Prop := d.barOn tid = true ∧ (d.rd (Reg.HST_TEN_TDI_STATE tid) = 2 → tee = true)

/-- A command of the host that does not reach a function's BARs: what it is worth is counted, and in RUN the missing T bit. -/
def Missed (c : Instr) (tid : Nat) (tee bell : Bool) (s : State) : Prop :=
  let fs := if bell then [Reg.HST_CNT_COUNT (tid / 256) 8] else []
  (s.dev.barOn tid = false → Completes c s fun t => (bell = true → HostCounts tid 8 1 s t) ∧ OnlyFields fs s t) ∧
  (s.dev.barOn tid = true → s.dev.rd (Reg.HST_TEN_TDI_STATE tid) = 2 → tee = false → Completes c s fun t =>
    (bell = true → HostCounts tid 8 1 s t) ∧ HostCounts tid 9 1 s t ∧ OnlyFields (Reg.HST_CNT_COUNT (tid / 256) 9 :: fs) s t)

/-- Nothing of a function is under way. -/
def HostIdle (d : Dev) (tid : Nat) : Prop :=
  (∀ o ∈ d.ops, o.req.tid ≠ tid) ∧ (∀ r ∈ d.host.reads ++ d.host.readQ, r.tid ≠ tid) ∧ (∀ w ∈ d.host.waiting, w.tid ≠ tid) ∧
  (∀ w ∈ d.host.waitingNvme, w.tid ≠ tid) ∧ (∀ a ∈ d.host.arrived, a.tid ≠ tid) ∧ (∀ q ∈ d.adm.waiting, q.tid ≠ tid) ∧
  (∀ x ∈ d.pair.decisions, x.req.tid ≠ tid) ∧ (∀ p ∈ d.host.adminQ, p.2.tid.toNat ≠ tid) ∧
  ∀ p ∈ d.sw.placing, d.hostLinkOf p.tid p.devMem p.addr = none ∨ (d.ioAt p.tid p.devMem p.addr).1 ≠ tid

/-- Of the configuration space only one word of a function changes, to v. -/
def CfgTakes (tid off v : Nat) (s t : State) : Prop :=
  t.dev.cfgWord tid off = v ∧ ∀ k, k ≠ tid * 4096 + off → Tab.get 0 t.dev.host.config k = Tab.get 0 s.dev.host.config k

end Sys2Proof

/-- RING_ENABLE, RING_DISABLE, SQ_TAIL_DOORBELL, DESCRIPTOR_FETCH, CQ_HEAD_DOORBELL and COMPLETION_WRITE: a ring of a size and number that
there is, within the quota and the pool, is enabled from its start, in force at the next boundary, and another is refused; disabled, its reads are absorbed, its completions
lost or its buffers gone. A doorbell of an enabled ring moves its tail or head, and another is counted; entries are fetched one read for each
and shown by HEAD; a completion that waited is written once there is room (R388 to R391, R394, R404). -/
def Obligations.Rings : Prop :=
  (∀ s (tid : BitVec 9) (q : BitVec 2) (n v : BitVec 8) (bind : BitVec 6) (size : BitVec 5) tee, Live s →
    let k := q.toNat * 256 + n.toNat
    let h := tid.toNat
    let c : Instr := .ringEnable tid q n v bind size tee
    let d := s.dev.ringFields h k v.toNat bind.toNat size.toNat
    let fields := [Reg.TEN_Q_VECTOR h k, Reg.TEN_Q_BIND h k, Reg.TEN_Q_SIZE_LOG2 h k]
    let takes (t : State) : Prop := t.dev.rd (Reg.TEN_Q_VECTOR h k) = v.toNat ∧ t.dev.rd (Reg.TEN_Q_BIND h k) = bind.toNat ∧
      t.dev.rd (Reg.TEN_Q_SIZE_LOG2 h k) = size.toNat
    let valid : Prop := 6 ≤ size.toNat ∧ size.toNat ≤ 16 ∧ q.toNat < 3 ∧ n.toNat < (if q = 2 then 256 else 64) ∧
      d.ringsOn h q.toNat < d.ringQuota h q.toNat ∧ d.linkRings (h / 256) q.toNat < (if q = 2 then 8192 else 4096)
    Missed c h tee false s ∧
    (BarOpen s.dev h tee → s.dev.rd (Reg.TEN_Q_ENABLE h k) ≠ 0 → Completes c s fun t => takes t ∧ OnlyFields fields s t) ∧
    (BarOpen s.dev h tee → s.dev.rd (Reg.TEN_Q_ENABLE h k) = 0 → ¬ valid → Completes c s fun t => takes t ∧
      t.dev.rd (Reg.TEN_Q_ENABLE_REFUSED h k) = 1 ∧ t.dev.rd (Reg.TEN_Q_ENABLE h k) = 0 ∧
      OnlyFields (fields ++ [Reg.TEN_Q_ENABLE_REFUSED h k, Reg.TEN_Q_ENABLE h k]) s t) ∧
    (BarOpen s.dev h tee → s.dev.rd (Reg.TEN_Q_ENABLE h k) = 0 → valid → Completes c s fun t => takes t ∧
      t.dev.rd (Reg.TEN_Q_ENABLE h k) = 1 ∧ t.dev.inF (Reg.TEN_Q_ENABLE h k) = s.dev.inF (Reg.TEN_Q_ENABLE h k) ∧
      t.dev.rd (Reg.TEN_Q_ENABLE_REFUSED h k) = 0 ∧ t.dev.rd (Reg.TEN_Q_HEAD h k) = 0 ∧
      t.dev.rd (Reg.TEN_Q_TAIL h k) = 0 ∧ (q = 0 → Tab.get 0 t.dev.host.fetch (h * 1024 + n.toNat) = 0) ∧
      (q = 1 → t.dev.ringPhase h k = true) ∧ (q = 2 → Tab.get [] t.dev.host.posted (h * 256 + n.toNat) = []) ∧
      Becomes s t { s.dev with
        regs := t.dev.regs
        host := { s.dev.host with
          phase := t.dev.host.phase, fetch := t.dev.host.fetch, bellTimes := t.dev.host.bellTimes, posted := t.dev.host.posted
          postNext := t.dev.host.postNext } } ∧
      FieldsKept (fields ++ [Reg.TEN_Q_ENABLE h k, Reg.TEN_Q_ENABLE_REFUSED h k, Reg.TEN_Q_HEAD h k, Reg.TEN_Q_TAIL h k]) s t)) ∧
  (∀ s (tid : BitVec 9) (q : BitVec 2) (n : BitVec 8) tee, Live s →
    let k := q.toNat * 256 + n.toNat
    let h := tid.toNat
    let c : Instr := .ringDisable tid q n tee
    let off (fs : List Fld) (t : State) : Prop := t.dev.rd (Reg.TEN_Q_ENABLE h k) = 0 ∧ t.dev.inF (Reg.TEN_Q_ENABLE h k) = 0 ∧
      FieldsKept (Reg.TEN_Q_ENABLE h k :: fs) s t
    Missed c h tee false s ∧
    (BarOpen s.dev h tee → s.dev.rd (Reg.TEN_Q_ENABLE h k) = 0 → Completes c s fun t => t = s) ∧
    (BarOpen s.dev h tee → s.dev.rd (Reg.TEN_Q_ENABLE h k) ≠ 0 →
      (q = 0 → Completes c s fun t => off [] t ∧
        t.dev.host.reads = s.dev.host.reads.map (fun (r : HostRead) => { r with absorbed := r.absorbed || r.fetches h n.toNat }) ∧
        t.dev.host.readQ = s.dev.host.readQ.filter (fun r => !r.fetches h n.toNat) ∧
        Becomes s t { s.dev with
          regs := t.dev.regs
          host := { s.dev.host with reads := t.dev.host.reads, readQ := t.dev.host.readQ } }) ∧
      (q = 1 → (∀ w ∈ s.dev.host.waiting, w.tid = h → w.ring = n.toNat → ∃ ws i, w.what = .words ws i) → Completes c s fun t =>
        let here : WaitingCompletion → Bool := fun w => decide (w.tid = h) && decide (w.ring = n.toNat)
        t.dev.host.waiting = s.dev.host.waiting.filter (fun w => !here w) ∧
        (s.dev.host.waiting.filter here ≠ [] → HostCounts h 0 (s.dev.host.waiting.filter here).length s t) ∧
        off [Reg.TEN_STATUS_LOST_COMPLETIONS h, Reg.HST_CNT_COUNT (h / 256) 0] t ∧
        Becomes s t { s.dev with
          regs := t.dev.regs
          host := { s.dev.host with waiting := t.dev.host.waiting } }) ∧
      (q = 2 → s.dev.rxWaiting h n.toNat = [] → Completes c s fun t => off [] t ∧
        Tab.get [] t.dev.host.posted (h * 256 + n.toNat) = [] ∧
        Becomes s t { s.dev with
          regs := t.dev.regs
          host := { s.dev.host with posted := t.dev.host.posted } }))) ∧
  (∀ s (tid : BitVec 9) (ring : BitVec 6) (v : BitVec 16) tee, Live s →
    let h := tid.toNat
    let r := ring.toNat
    let bad (key : Nat) (t : State) : Prop := t.dev.rd (Reg.TEN_STATUS_DOORBELL_BAD h) = 1 ∧ HostCounts h 8 1 s t ∧
      Tab.get 0 t.dev.host.bells key = v.toNat ∧ Becomes s t { s.dev with
        regs := t.dev.regs
        host := { s.dev.host with bells := t.dev.host.bells } } ∧
      FieldsKept [Reg.TEN_STATUS_DOORBELL_BAD h, Reg.HST_CNT_COUNT (h / 256) 8] s t
    let knows (k : Nat) : Prop := s.dev.ringOn h k = true ∧ v.toNat < 2 ^ s.dev.inF (Reg.TEN_Q_SIZE_LOG2 h k)
    Missed (.sqTailDoorbell tid ring v tee) h tee true s ∧ Missed (.cqHeadDoorbell tid ring v tee) h tee true s ∧
    (BarOpen s.dev h tee → ¬ knows r → Completes (.sqTailDoorbell tid ring v tee) s (bad (h * 256 + r))) ∧
    (BarOpen s.dev h tee → ¬ knows (256 + r) → Completes (.cqHeadDoorbell tid ring v tee) s (bad (h * 256 + 64 + r))) ∧
    (BarOpen s.dev h tee → knows (256 + r) → Completes (.cqHeadDoorbell tid ring v tee) s fun t =>
      t.dev.rd (Reg.TEN_Q_HEAD h (256 + r)) = v.toNat ∧ Tab.get 0 t.dev.host.bells (h * 256 + 64 + r) = v.toNat ∧
      Becomes s t { s.dev with
        regs := t.dev.regs
        host := { s.dev.host with bells := t.dev.host.bells } } ∧ FieldsKept [Reg.TEN_Q_HEAD h (256 + r)] s t) ∧
    (BarOpen s.dev h tee → knows r → s.dev.queuesLive h = false ∨ Tab.get 0 s.dev.host.fetch (h * 1024 + r) = v.toNat →
      Completes (.sqTailDoorbell tid ring v tee) s fun t =>
        t.dev.rd (Reg.TEN_Q_TAIL h r) = v.toNat ∧ Tab.get 0 t.dev.host.bells (h * 256 + r) = v.toNat ∧
        Tab.get [] t.dev.host.bellTimes (h * 1024 + r) = Tab.get [] s.dev.host.bellTimes (h * 1024 + r) ++
          (if s.dev.rd (Reg.TEN_Q_TAIL h r) = v.toNat then [] else [(v.toNat, s.dev.clk.tide)]) ∧
        Becomes s t { s.dev with
          regs := t.dev.regs
          host := { s.dev.host with bells := t.dev.host.bells, bellTimes := t.dev.host.bellTimes } } ∧ FieldsKept [Reg.TEN_Q_TAIL h r] s t)) ∧
  (∀ s (tid : BitVec 9) (ring : BitVec 6), Live s →
    let h := tid.toNat
    let r := ring.toNat
    let f := Tab.get 0 s.dev.host.fetch (h * 1024 + r)
    let took := Tab.get 0 s.dev.host.took (h * 1024 + r)
    let size := 2 ^ s.dev.inF (Reg.TEN_Q_SIZE_LOG2 h r)
    let tail := s.dev.rd (Reg.TEN_Q_TAIL h r)
    let addr := s.dev.inF (Reg.TEN_Q_QBASE h r) * 4096 + f * 64
    let read : HostRead := { link := h / 256, tag := 0, tid := h, addr := addr, len := 64, use := .descs r f 1, time := 0, booked := false }
    (s.dev.ringFetches h r = false → Completes (.descriptorFetch tid ring) s fun t => t = s) ∧
    (s.dev.ringFetches h r = true → f < size → (tail + size - f) % size = 1 → took < 16 → ∀ tag, s.dev.tagFor read = some tag →
      Completes (.descriptorFetch tid ring) s fun t =>
        t.dev.host.reads = s.dev.host.reads ++ [{ read with tag := tag, time := s.dev.clk.tide }] ∧
        t.dev.out = s.dev.out ++ [.hostRead (h / 256) tag h addr 64] ∧
        Tab.get 0 t.dev.host.fetch (h * 1024 + r) = (f + 1) % size ∧ Tab.get 0 t.dev.host.took (h * 1024 + r) = took + 1 ∧
        ((∀ x ∈ s.dev.host.reads ++ s.dev.host.readQ, x.absorbed = true ∨ x.fetches h r = false) → f < 65536 → t.dev.rd (Reg.TEN_Q_HEAD h r) = f) ∧
        Becomes s t { s.dev with
          regs := t.dev.regs, out := t.dev.out
          host := { s.dev.host with reads := t.dev.host.reads, fetch := t.dev.host.fetch, took := t.dev.host.took } } ∧
        FieldsKept [Reg.TEN_Q_HEAD h r, Reg.HST_LINK_TAGS_IN_USE (h / 256)] s t)) ∧
  (∀ s (tid : BitVec 9) (ring : BitVec 7), Live s →
    let h := tid.toNat
    let r := ring.toNat
    let k := 256 + r
    let first := s.dev.host.waiting.find? fun w => decide (w.tid = h) && decide (w.ring = r)
    let tail := s.dev.rd (Reg.TEN_Q_TAIL h k)
    let size := 2 ^ s.dev.inF (Reg.TEN_Q_SIZE_LOG2 h k)
    let firstN := s.dev.host.waitingNvme.find? fun w => decide (w.tid = h) && decide ((s.dev.nvSq h w.sq).cq = r)
    (first = none ∨ s.dev.ringLive h r = false ∨ s.dev.ringFull h k = true → Completes (.completionWrite tid ring false) s fun t => t = s) ∧
    (∀ w x ws, first = some w → w.what = .words (x :: ws) false → s.dev.ringLive h r = true → s.dev.ringFull h k = false →
      Completes (.completionWrite tid ring false) s fun t =>
        t.dev.host.waiting = s.dev.host.waiting.erase w ∧ t.dev.rd (Reg.TEN_Q_TAIL h k) = (tail + 1) % size % 65536 ∧
        t.dev.out = s.dev.out ++ [.hostWrite h (s.dev.inF (Reg.TEN_Q_QBASE h k) * 4096 + tail * 32)
          (wordBytes ((x / 2 * 2 + if s.dev.ringPhase h k = true then 1 else 0) :: ws))] ∧
        Becomes s t { s.dev with
          regs := t.dev.regs, out := t.dev.out
          host := { s.dev.host with waiting := t.dev.host.waiting, phase := t.dev.host.phase } } ∧ FieldsKept [Reg.TEN_Q_TAIL h k] s t) ∧
    (firstN = none → Completes (.completionWrite tid ring true) s fun t => t = s) ∧
    (∀ w, firstN = some w → s.dev.queuesLive h = false ∨ (s.dev.nvCq h r).full = true → Completes (.completionWrite tid ring true) s fun t => t = s) ∧
    (∀ w, firstN = some w → s.dev.queuesLive h = true → (s.dev.nvCq h r).full = false → (s.dev.nvCq h r).ien = false → w.timing = none → w.op = none →
      Completes (.completionWrite tid ring true) s fun t =>
        let c := s.dev.nvCq h r
        t.dev.host.waitingNvme = s.dev.host.waitingNvme.erase w ∧
        t.dev.nvCq h r = { c with tail := (c.tail + 1) % c.size, phase := if (c.tail + 1) % c.size = 0 then !c.phase else c.phase } ∧
        t.dev.out = s.dev.out ++ [.hostWrite h (c.base + c.tail * 16) (wordBytes [w.dw0, 0, (s.dev.nvSq h w.sq).head % 65536 + w.sq * 65536,
          w.cid % 65536 + (if c.phase = true then 65536 else 0) + w.status * 2 ^ 17])] ∧
        Becomes s t { s.dev with
          out := t.dev.out
          host := { s.dev.host with waitingNvme := t.dev.host.waitingNvme, cqs := t.dev.host.cqs } }))

namespace Sys2Proof

/-- HOST_READ_COMPLETION and COMPLETION_TIMEOUT: a completion of no outstanding tag is counted; an absorbed read only frees its tag; entries
that arrive are sampled later, and those of a failed read are lost and counted. Before its time a read does not time out; then it is counted,
logged as an advanced error, and fails (R394, R395). -/
def Rules.ReadReturns : Prop :=
  (∀ s (link : BitVec 1) (tag : BitVec 14) (st : Fin 4) data, Live s →
    let c : Instr := .hostReadCompletion link tag st data
    let reads := s.dev.host.reads.filter fun x => !(x.link == link.toNat && x.tag == tag.toNat)
    let tags := Reg.HST_LINK_TAGS_IN_USE link.toNat
    let freed (t : State) : Prop := t.dev.host.reads = reads ∧
      t.dev.rd tags = (reads.filter fun x => x.link == link.toNat).length % 2 ^ 14
    (s.dev.readByTag link.toNat tag.toNat = none → Completes c s fun t =>
      t.dev.rd (Reg.HST_CNT_COUNT link.toNat 2) = Min.min (s.dev.rd (Reg.HST_CNT_COUNT link.toNat 2) + 1) (2 ^ 64 - 1) ∧
      OnlyFields [Reg.HST_CNT_COUNT link.toNat 2] s t) ∧
    (∀ r, s.dev.readByTag link.toNat tag.toNat = some r →
      (r.absorbed = true → Completes c s fun t => freed t ∧
        Becomes s t { s.dev with
          regs := t.dev.regs
          host := { s.dev.host with reads := reads } } ∧ FieldsKept [tags] s t) ∧
      (∀ ring f n, r.absorbed = false → r.use = .descs ring f n → st = 0 → ring < 64 → Completes c s fun t => freed t ∧
        t.dev.host.arrived = s.dev.host.arrived ++ (List.range n).map (fun i =>
          { tid := r.tid, ring := ring, nvme := false, index := f + i
            bytes := fitBytes 64 (((fitBytes r.len data).drop (64 * i)).take 64) }) ∧
        Becomes s t { s.dev with
          regs := t.dev.regs
          host := { s.dev.host with reads := reads, arrived := t.dev.host.arrived } } ∧
        FieldsKept [tags, Reg.TEN_Q_HEAD r.tid ring] s t) ∧
      (∀ ring f n, r.absorbed = false → r.use = .descs ring f n → st ≠ 0 → ring < 64 → r.tid < 512 → Completes c s fun t => freed t ∧
        HostCounts r.tid 0 n s t ∧
        Becomes s t { s.dev with
          regs := t.dev.regs
          host := { s.dev.host with reads := reads } } ∧
        FieldsKept [tags, Reg.TEN_Q_HEAD r.tid ring, Reg.TEN_STATUS_LOST_COMPLETIONS r.tid, Reg.HST_CNT_COUNT (r.tid / 256) 0] s t))) ∧
  (∀ s (link : BitVec 1) (tag : BitVec 14), Live s →
    let c : Instr := .completionTimeout link tag
    (s.dev.readByTag link.toNat tag.toNat = none → Completes c s fun t => t = s) ∧
    (∀ r, s.dev.readByTag link.toNat tag.toNat = some r →
      (s.dev.clk.tide < r.time + s.dev.complTimeout r.tid → Completes c s fun t => t = s) ∧
      (r.time + s.dev.complTimeout r.tid ≤ s.dev.clk.tide → r.absorbed = true → r.tid < 512 → Completes c s fun t =>
        t.dev.host.reads = s.dev.host.reads.filter (fun x => !(x.link == link.toNat && x.tag == tag.toNat)) ∧ HostCounts r.tid 1 1 s t ∧
        (t.dev.cfgWord r.tid 0x104).testBit 14 = true ∧
        Becomes s t { s.dev with
          regs := t.dev.regs
          host := { s.dev.host with reads := t.dev.host.reads, config := t.dev.host.config } } ∧
        FieldsKept [Reg.HST_LINK_TAGS_IN_USE link.toNat, Reg.HST_CNT_COUNT (r.tid / 256) 1] s t)))

/-- BUS_MASTER_ENABLE_CLEAR and SET, MEMORY_SPACE_ENABLE_CLEAR and SET, D3HOT_ENTRY, D0_RETURN and QUEUES_STALE_CLEAR: what a function cannot be
told changes nothing. Clearing the enable, and D3hot, withdraw the function's right to issue requests in this tick and leave its queues stale; an
enable that is set, the memory space, and a return to D0, follow at the next tick; memory space is the PF's own, or that of its VFs; ones written clear
QUEUES_STALE (R396, R397). -/
def Rules.FunctionEnables : Prop :=
  (∀ s (tid : BitVec 9), Live s →
    let h := tid.toNat
    let cmd := s.dev.cfgWord h 4
    let bme := Reg.HST_TEN_BME h
    let d3 := Reg.HST_TEN_D3 h
    let still : Prop := s.dev.rd (Reg.HST_TEN_TDI_STATE h) ≠ 1 ∧ s.dev.rd (Reg.HST_TEN_TDI_STATE h) ≠ 2
    let stale (f : Fld) (t : State) : Prop := t.dev.rd (Reg.TEN_STATUS_QUEUES_STALE h) = 1 ∧
      Becomes s t { s.dev with
        regs := t.dev.regs
        host := { s.dev.host with config := t.dev.host.config } } ∧
      FieldsKept [f, Reg.TEN_STATUS_QUEUES_STALE h, Reg.TEN_STATUS_LOST_COMPLETIONS h, Reg.HST_CNT_COUNT (h / 256) 0] s t
    (s.dev.cfgOn h = false → ∀ c ∈ [Instr.busMasterEnableClear tid, .busMasterEnableSet tid, .memorySpaceEnableClear tid false,
      .memorySpaceEnableSet tid true, .d3hotEntry tid, .d0Return tid], Completes c s fun t => t = s) ∧
    (s.dev.cfgOn h = true → s.dev.rd bme = 0 → Completes (.busMasterEnableClear tid) s fun t => t = s) ∧
    (s.dev.cfgOn h = true → s.dev.rd bme ≠ 0 → cmd < 65536 → still → HostIdle s.dev h → Completes (.busMasterEnableClear tid) s fun t =>
      t.dev.rd bme = 0 ∧ t.dev.inF bme = 0 ∧ t.dev.mayIssue h = false ∧
      CfgTakes h 4 (if cmd.testBit 2 = true then cmd - 4 else cmd) s t ∧ stale bme t) ∧
    (s.dev.cfgOn h = true → s.dev.rd bme ≠ 0 → Completes (.busMasterEnableSet tid) s fun t => t = s) ∧
    (s.dev.cfgOn h = true → s.dev.rd bme = 0 → cmd < 65536 → still → Completes (.busMasterEnableSet tid) s fun t =>
      t.dev.rd bme = 1 ∧ t.dev.inF bme = s.dev.inF bme ∧ CfgTakes h 4 (cmd ||| 4) s t ∧
      Becomes s t { s.dev with
        regs := t.dev.regs
        host := { s.dev.host with config := t.dev.host.config } } ∧ FieldsKept [bme] s t) ∧
    (s.dev.cfgOn h = true → s.dev.rd d3 ≠ 0 → Completes (.d3hotEntry tid) s fun t => t = s) ∧
    (s.dev.cfgOn h = true → s.dev.rd d3 = 0 → still → HostIdle s.dev h → Completes (.d3hotEntry tid) s fun t =>
      t.dev.rd d3 = 1 ∧ t.dev.inF d3 = s.dev.inF d3 ∧ t.dev.mayIssue h = false ∧
      CfgTakes h 0x84 ((s.dev.cfgWord h 0x84 / 4 * 4 + 3) % 65536) s t ∧ stale d3 t) ∧
    (s.dev.cfgOn h = true → s.dev.rd d3 = 0 → Completes (.d0Return tid) s fun t => t = s) ∧
    (s.dev.cfgOn h = true → s.dev.rd d3 ≠ 0 → Completes (.d0Return tid) s fun t =>
      t.dev.rd d3 = 0 ∧ t.dev.inF d3 = s.dev.inF d3 ∧ CfgTakes h 0x84 (s.dev.cfgWord h 0x84 / 4 * 4 % 65536) s t ∧
      Becomes s t { s.dev with
        regs := t.dev.regs
        host := { s.dev.host with config := t.dev.host.config } } ∧ FieldsKept [d3] s t)) ∧
  (∀ s (tid : BitVec 9), Live s →
    let h := tid.toNat
    let cmd := s.dev.cfgWord h 4
    let mse := Reg.HST_TEN_MSE h
    let pf : Prop := s.dev.cfgOn h = true ∧ h % 256 < 2
    let takes (f : List Fld) (t : State) : Prop := Becomes s t { s.dev with
        regs := t.dev.regs
        host := { s.dev.host with config := t.dev.host.config } } ∧ FieldsKept f s t ∧ ∀ g, t.dev.inF g = s.dev.inF g
    let still (u : Nat) : Prop := s.dev.rd (Reg.HST_TEN_TDI_STATE u) ≠ 1 ∧ s.dev.rd (Reg.HST_TEN_TDI_STATE u) ≠ 2
    (s.dev.cfgOn h = true → 2 ≤ h % 256 → ∀ vfs, Completes (.memorySpaceEnableClear tid vfs) s (fun t => t = s) ∧
      Completes (.memorySpaceEnableSet tid vfs) s fun t => t = s) ∧
    (pf → cmd < 65536 → still h → (∀ o ∈ s.dev.ops, o.req.tid ≠ h) → Completes (.memorySpaceEnableClear tid false) s fun t =>
      t.dev.rd mse = 0 ∧ CfgTakes h 4 (if cmd.testBit 1 = true then cmd - 2 else cmd) s t ∧ takes [mse] t) ∧
    (pf → cmd < 65536 → still h → Completes (.memorySpaceEnableSet tid false) s fun t =>
      t.dev.rd mse ≠ 0 ∧ CfgTakes h 4 (cmd ||| 2) s t ∧ takes [mse] t) ∧
    (pf → (∀ u ∈ vfsOf h, still u) → (∀ o ∈ s.dev.ops, o.req.tid ∉ vfsOf h) → Completes (.memorySpaceEnableClear tid true) s fun t =>
      (∀ u ∈ vfsOf h, t.dev.rd (Reg.HST_TEN_MSE u) = 0) ∧ takes ((vfsOf h).map Reg.HST_TEN_MSE) t) ∧
    (pf → (∀ u ∈ vfsOf h, still u) → Completes (.memorySpaceEnableSet tid true) s fun t =>
      (∀ u ∈ vfsOf h, t.dev.rd (Reg.HST_TEN_MSE u) ≠ 0) ∧ takes ((vfsOf h).map Reg.HST_TEN_MSE) t)) ∧
  (∀ s (tid : BitVec 9) tee, Live s →
    let f := Reg.TEN_STATUS_QUEUES_STALE tid.toNat
    Missed (.queuesStaleClear tid tee) tid.toNat tee false s ∧
    (BarOpen s.dev tid.toNat tee → Tab.get 0 s.dev.regs.hot f.key = 0 → Completes (.queuesStaleClear tid tee) s fun t =>
      t.dev.rd f = 0 ∧ OnlyFields [f] s t))

end Sys2Proof

/-- Host reads, and what a function may do: ReadReturns and FunctionEnables. -/
def Obligations.HostReadsAndEnables : Prop :=
  Rules.ReadReturns ∧ Rules.FunctionEnables

namespace Sys2Proof

/-- Nothing of a function is under way, on the host side or in Swash, no frame waits for a channel's end, and no self-test runs. -/
def FunctionIdle (d : Dev) (tid : Nat) : Prop :=
  HostIdle d tid ∧ (∀ p ∈ d.sw.windows, p.2.owner ≠ tid) ∧ (∀ p ∈ d.sw.conns, d.inF (Reg.SWH_C_TID p.1) ≠ tid) ∧ (d.ctl tid).test = none

/-- INITIATE_FLR and FLR_COMPLETE: a function that configuration does not reach is not reset. Reset, it answers no more, its TDI is unlocked and its
NVMe queues are gone; the reset completes once no step and no tag of it remains, or its tags have been held for 90 ms; then its page, its rings
and its rights are as after reset, but what R386 keeps, and no other function's page changes (R386, R396, R399, R400). -/
def Rules.FunctionReset : Prop :=
  (∀ s (tid : BitVec 9), Live s →
    let h := tid.toNat
    let active := Reg.HST_TEN_FLR_ACTIVE h
    (s.dev.cfgOn h = false → Completes (.initiateFlr tid) s fun t => t = s) ∧
    (s.dev.cfgOn h = true → FunctionIdle s.dev h → Completes (.initiateFlr tid) s fun t =>
      t.dev.rd active = 1 ∧ t.dev.rd (Reg.HST_TEN_TDI_STATE h) = 0 ∧ HostCounts h 3 1 s t ∧
      Tab.get none t.dev.host.flrFrom h = some s.dev.clk.tide ∧ t.dev.barOn h = false ∧ t.dev.mayIssue h = false ∧ t.dev.cfgOn h = false ∧
      (∀ q, q < 65 → (t.dev.nvSq h q).size = 0 ∧ (t.dev.nvCq h q).size = 0) ∧
      Becomes s t { s.dev with
        regs := t.dev.regs
        host := { s.dev.host with flrFrom := t.dev.host.flrFrom, sqs := t.dev.host.sqs, cqs := t.dev.host.cqs, bellTimes := t.dev.host.bellTimes } } ∧
      FieldsKept [active, Reg.HST_TEN_TDI_STATE h, Reg.TEN_ID_TDI_STATE h, Reg.HST_CNT_COUNT (h / 256) 3, Reg.STG_CNT_COUNT 5,
        Reg.STG_FN_IO_QUEUES h] s t)) ∧
  (∀ s (tid : BitVec 9), Live s →
    let h := tid.toNat
    let from_ := Tab.get none s.dev.host.flrFrom h
    let late : Prop := ∃ f, from_ = some f ∧ f + 90000000 ≤ s.dev.clk.tide
    let done : Prop := from_ ≠ none ∧ (∀ o ∈ s.dev.ops, o.req.tid = h → o.ended = false) ∧ ((∀ r ∈ s.dev.host.reads, r.tid ≠ h) ∨ late)
    let mse (t : State) := t.dev.rd (Reg.HST_TEN_MSE h)
    (¬ done → Completes (.flrComplete tid) s fun t => t = s) ∧
    (done → Completes (.flrComplete tid) s fun t =>
      t.dev.rd (Reg.HST_TEN_FLR_ACTIVE h) = 0 ∧ Tab.get none t.dev.host.flrFrom h = none ∧ t.dev.rd (Reg.HST_TEN_BME h) = 0 ∧
      t.dev.rd (Reg.HST_TEN_D3 h) = 0 ∧
      (h % 256 < 2 → mse t = 0) ∧
      (2 ≤ h % 256 → mse t = if (s.dev.cfgWord (pfOf h) 0x170).testBit 3 = true then 1 else 0) ∧
      t.dev.rd (Reg.STG_FN_EN h) = 0 ∧ t.dev.rd (Reg.STG_FN_RDY h) = 0 ∧
      t.dev.rd (Reg.STG_FN_PERSONALITY h) = t.dev.inF (Reg.STG_NVME_EN h) % 2 ∧
      t.dev.host.reads = s.dev.host.reads.filter (fun r => r.tid != h) ∧
      (∀ k, k < 1024 → t.dev.rd (Reg.TEN_Q_ENABLE h k) = 0) ∧ (∀ rq, rq < 256 → Tab.get [] t.dev.host.posted (h * 256 + rq) = []) ∧
      (∀ off, off < 4096 → t.dev.cfgWord h off =
        if h % 256 < 2 ∧ (off = 0x170 ∨ off = 0x178) then s.dev.cfgWord h off else if off = 0x48 then 0x2910 else 0) ∧
      (∀ u k, u < 512 → u ≠ h → t.dev.rd (Reg.TEN_Q_ENABLE u k) = s.dev.rd (Reg.TEN_Q_ENABLE u k) ∧
        t.dev.rd (Reg.HST_TEN_BME u) = s.dev.rd (Reg.HST_TEN_BME u)) ∧
      Becomes s t { s.dev with regs := t.dev.regs, host := t.dev.host }))

/-- HOST_LINK_RESET, PERST_ASSERT and HOST_LINK_UP: a link that is reset is down, its configuration space is as after reset and none of its
functions answers; it comes up once self-test is over, and shows its speed, width and mode, and whether it is degraded (R381 to R383, R489). -/
def Rules.HostLinks : Prop :=
  (∀ s (l : BitVec 1), Live s → ∀ c, c = Instr.hostLinkReset l ∨ c = .perstAssert l → Completes c s fun t =>
    let n := l.toNat
    t.dev.rd (Reg.HST_LINK_LINK_UP n) = 0 ∧ t.dev.rd (Reg.HST_LINK_SPEED n) = 0 ∧ t.dev.rd (Reg.HST_LINK_WIDTH n) = 0 ∧
    t.dev.rd (Reg.HST_LINK_FLIT n) = 0 ∧ t.dev.rd (Reg.HST_LINK_DEGRADED n) = 0 ∧ t.dev.rd (Reg.HST_LINK_TAG_MODE n) = 0 ∧
    (∀ tid off, tid / 256 = n → off < 4096 → t.dev.cfgWord tid off = if off = 0x48 then 0x2910 else 0) ∧
    ∀ tid, tid / 256 = n → t.dev.barOn tid = false ∧ t.dev.mayIssue tid = false ∧ t.dev.cfgOn tid = false) ∧
  (∀ s (l : BitVec 1) (speed : BitVec 4) (width : BitVec 8) flit, Live s →
    let n := l.toNat
    let c : Instr := .hostLinkUp l speed width flit
    (s.dev.rd Reg.HDL_STATUS_STAGE = 1 → Completes c s fun t => t = s) ∧
    (s.dev.rd Reg.HDL_STATUS_STAGE ≠ 1 →
      (speed = 6 ∧ width = 16) ∨ (∀ o ∈ s.dev.ops, o.ended = true ∨ ∀ st ∈ o.plan, ∀ x ∈ st.needs, x.res.kind ≠ 1 ∨ x.res.inst ≠ n) →
      Completes c s fun t =>
        t.dev.rd (Reg.HST_LINK_LINK_UP n) = 1 ∧ t.dev.rd (Reg.HST_LINK_SPEED n) = speed.toNat ∧
        t.dev.rd (Reg.HST_LINK_WIDTH n) = width.toNat ∧ t.dev.rd (Reg.HST_LINK_FLIT n) = (if flit then 1 else 0) ∧
        t.dev.rd (Reg.HST_LINK_DEGRADED n) = (if speed = 6 ∧ width = 16 then 0 else 1) ∧
        OnlyFields [Reg.HST_LINK_LINK_UP n, Reg.HST_LINK_SPEED n, Reg.HST_LINK_WIDTH n, Reg.HST_LINK_FLIT n, Reg.HST_LINK_DEGRADED n] s t))

end Sys2Proof

/-- Function reset and the host links: FunctionReset and HostLinks. -/
def Obligations.ResetsAndLinks : Prop :=
  Rules.FunctionReset ∧ Rules.HostLinks

namespace Sys2Proof

/-- VF_ENABLE_SET, VF_ENABLE_CLEAR and CONFIG_SPACE_WRITE: a PF's VFs are asked for, to appear at the end of the tick, and cleared, so that none of
them answers; a configuration write changes only bytes that it enables and bits that may be written, and its status bits clear by ones
(R384 to R386). -/
def Rules.ConfigSpace : Prop :=
  (∀ s (pf : BitVec 9), Live s →
    let h := pf.toNat
    let may : Prop := s.dev.cfgOn h = true ∧ h % 256 < 2
    let w := s.dev.cfgWord h 0x170
    (¬ may → Completes (.vfEnableSet pf) s (fun t => t = s) ∧ Completes (.vfEnableClear pf) s fun t => t = s) ∧
    (may → w.testBit 0 = true ∨ h ∈ s.dev.host.vfAsk → Completes (.vfEnableSet pf) s fun t => t = s) ∧
    (may → w.testBit 0 = false → h ∉ s.dev.host.vfAsk → Completes (.vfEnableSet pf) s fun t =>
      Becomes s t { s.dev with host := { s.dev.host with vfAsk := s.dev.host.vfAsk ++ [h] } }) ∧
    (may → w.testBit 0 = false → Completes (.vfEnableClear pf) s fun t =>
      Becomes s t { s.dev with host := { s.dev.host with vfAsk := s.dev.host.vfAsk.filter (· != h) } }) ∧
    (may → w.testBit 0 = true → Completes (.vfEnableClear pf) s fun t =>
      t.dev.cfgWord h 0x170 = (w - 1) % 65536 ∧ ∀ u, u ∈ vfsOf h → t.dev.fnLive u = false)) ∧
  (∀ s (tid : BitVec 9) (reg : BitVec 10) (be : BitVec 4) (v : BitVec 32), Live s →
    let h := tid.toNat
    let low := v.toNat % 65536
    let c : Instr := .configSpaceWrite tid reg be v
    let host (t : State) : Prop := Becomes s t { s.dev with host := { s.dev.host with config := t.dev.host.config } }
    (s.dev.cfgOn h = false ∨ be = 0 → Completes c s fun t => t = s) ∧
    (s.dev.cfgOn h = true → reg = 0x42 → be = 15 → Completes c s fun t =>
      t.dev.cfgWord h 0x108 = low ∧ t.dev.cfgWord h 0x10A = v.toNat / 65536 ∧ host t ∧
      ∀ k, k ≠ h * 4096 + 0x108 → k ≠ h * 4096 + 0x10A → Tab.get 0 t.dev.host.config k = Tab.get 0 s.dev.host.config k) ∧
    (s.dev.cfgOn h = true → reg = 0x42 → be = 2 → s.dev.cfgWord h 0x108 < 65536 → Completes c s fun t =>
      CfgTakes h 0x108 (low / 256 * 256 + s.dev.cfgWord h 0x108 % 256) s t ∧ host t) ∧
    (s.dev.cfgOn h = true → reg = 0x41 → be = 3 → s.dev.cfgWord h 0x104 < 65536 → Completes c s fun t =>
      CfgTakes h 0x104 (s.dev.cfgWord h 0x104 &&& (0xFFFF - low)) s t ∧ host t) ∧
    (s.dev.cfgOn h = true → reg = 4 → be = 15 → 2 ≤ h % 256 → s.dev.cfgWord h 0x10 < 65536 → s.dev.cfgWord h 0x12 < 65536 → Completes c s fun t =>
      (∀ off, t.dev.cfgWord h off = s.dev.cfgWord h off) ∧ host t) ∧
    (s.dev.cfgOn h = true → reg = 0x5E → be = 3 → h % 256 < 2 → (s.dev.cfgWord h 0x170).testBit 0 = true → Completes c s fun t => t = s) ∧
    (s.dev.cfgOn h = true → reg = 0x5E → be = 3 → h % 256 < 2 → (s.dev.cfgWord h 0x170).testBit 0 = false → Completes c s fun t =>
      CfgTakes h 0x178 low s t ∧ host t))

/-- TENANT_PAGE_WRITE, ATS_INVALIDATION_REQUEST, ATS_INVALIDATION_COMPLETE and MGMT_INTERRUPT_SEND: an access of another size is logged; a write at a
doorbell is that doorbell; QSEL, the MSI-X table and its masks take what is written. An invalidation completes once the reads that use it have
ended; the management interrupt sends a message for each setting, or holds one (R39, R388, R391, R402, R405). -/
def Rules.TenantPage : Prop :=
  (∀ s (tid : BitVec 9) (off : BitVec 16) (size : BitVec 4) (v : BitVec 64) tee, Live s →
    let h := tid.toNat
    let c (bar2 : Bool) : Instr := .tenantPageWrite tid bar2 off size v tee
    let even : Prop := (size = 8 ∧ off.toNat % 8 = 0) ∨ (size = 4 ∧ off.toNat % 4 = 0)
    (s.dev.barOn h = false → off.toNat < 0x1000 → Completes (c false) s fun t => t = s) ∧
    (BarOpen s.dev h tee → ¬ even → Completes (c true) s (fun t => t = s) ∧ Completes (c false) s
      (LogsAnd [] { source := 0x010 + h / 256, kind := 0x12, sev := 1, addr := off.toNat, tid := some h, detail := size.toNat } s)) ∧
    (∀ r : BitVec 6, off.toNat = 0x2000 + 8 * r.toNat → size = 8 ∨ size = 4 →
      exec (c false) s = exec (.sqTailDoorbell tid r (v.setWidth 16) tee) s) ∧
    (∀ r : BitVec 6, off.toNat = 0x2200 + 8 * r.toNat → size = 8 ∨ size = 4 →
      exec (c false) s = exec (.cqHeadDoorbell tid r (v.setWidth 16) tee) s) ∧
    (BarOpen s.dev h tee → off.toNat = s.dev.pageC h + 0x10 → size = 8 → Completes (c false) s fun t =>
      t.dev.rd (Reg.TEN_QSEL_QTYPE h) = v.toNat / 2 ^ 16 % 4 ∧ t.dev.rd (Reg.TEN_QSEL_QINDEX h) = v.toNat % 256 ∧
      OnlyFields [Reg.TEN_QSEL_QTYPE h, Reg.TEN_QSEL_QINDEX h] s t) ∧
    (∀ n : BitVec 8, BarOpen s.dev h tee → off.toNat = 16 * n.toNat + 8 → size = 8 →
      (∀ k, k < 256 → Tab.get false s.dev.host.msixPending (h * 256 + k) = false) → Completes (c true) s fun t =>
        let at_ := h * 1024 + 4 * n.toNat
        Tab.get 0 t.dev.host.msixTable (at_ + 2) = v.toNat % 2 ^ 32 ∧ Tab.get 0 t.dev.host.msixTable (at_ + 3) = v.toNat / 2 ^ 32 ∧
        (∀ k, k ≠ at_ + 2 → k ≠ at_ + 3 → Tab.get 0 t.dev.host.msixTable k = Tab.get 0 s.dev.host.msixTable k) ∧
        Tab.get true t.dev.host.msixMask (h * 256 + n.toNat) = v.toNat.testBit 32 ∧
        (∀ k, k ≠ h * 256 + n.toNat → Tab.get true t.dev.host.msixMask k = Tab.get true s.dev.host.msixMask k) ∧
        Becomes s t { s.dev with
          host := { s.dev.host with msixTable := t.dev.host.msixTable, msixMask := t.dev.host.msixMask } })) ∧
  (∀ s (l : BitVec 1) (itag : BitVec 5) (tid : BitVec 9) (a len : BitVec 64), Live s →
    let uses : HostRead → Bool := fun r => r.uses l.toNat tid.toNat a.toNat len.toNat
    let here : AtsWait → Bool := fun w => decide (w.link = l.toNat) && decide (w.itag = itag.toNat)
    Completes (.atsInvalidationRequest l itag tid a len) s (fun t => Becomes s t { s.dev with host := { s.dev.host with
      ats := s.dev.host.ats ++ [⟨l.toNat, itag.toNat, tid.toNat, a.toNat, len.toNat, (s.dev.host.reads.filter uses).map (·.tag)⟩] } }) ∧
    (s.dev.host.ats.find? here = none → Completes (.atsInvalidationComplete l itag) s fun t => t = s) ∧
    (∀ w, s.dev.host.ats.find? here = some w →
      let busy : Prop := ∃ r ∈ s.dev.host.reads, r.link = w.link ∧ r.tag ∈ w.tags ∧ r.uses w.link w.tid w.addr w.len = true
      (busy → Completes (.atsInvalidationComplete l itag) s fun t => t = s) ∧
      (¬ busy → Completes (.atsInvalidationComplete l itag) s fun t => Becomes s t { s.dev with
        out := s.dev.out ++ [.ats l.toNat itag.toNat]
        host := { s.dev.host with ats := s.dev.host.ats.erase w } }))) ∧
  (∀ s, Live s →
    let n := s.dev.rd Reg.HST_MGMT_PENDING_EVENTS
    let v := s.dev.inF Reg.HST_MGMT_VECTOR
    let held := Tab.get false s.dev.host.msixPending v
    (n = 0 → Completes .mgmtInterruptSend s fun t => t = s) ∧
    (n ≠ 0 → s.dev.vectorOpen 0 v = false → Completes .mgmtInterruptSend s fun t => Tab.get false t.dev.host.msixPending v = true ∧
      (∀ k, k ≠ v → Tab.get false t.dev.host.msixPending k = Tab.get false s.dev.host.msixPending k) ∧
      Becomes s t { s.dev with host := { s.dev.host with msixPending := t.dev.host.msixPending } }) ∧
    (n ≠ 0 → s.dev.vectorOpen 0 v = true → Completes .mgmtInterruptSend s fun t =>
      t.dev.out = s.dev.out ++ List.replicate (if held = true then 1 else n) (.msix 0 v) ∧ t.dev.rd Reg.HST_MGMT_PENDING_EVENTS = 0 ∧
      Tab.get false t.dev.host.msixPending v = false ∧
      Becomes s t { s.dev with
        regs := t.dev.regs, out := t.dev.out
        host := { s.dev.host with msixPending := t.dev.host.msixPending } } ∧ FieldsKept [Reg.HST_MGMT_PENDING_EVENTS] s t))

end Sys2Proof

/-- Configuration space and tenant pages: ConfigSpace and TenantPage. -/
def Obligations.ConfigAndTenantPage : Prop :=
  Rules.ConfigSpace ∧ Rules.TenantPage

/-! SPDM, IDE, TDISP and the slots -/

namespace Sys2Proof

/-- A responder answers, and its connection becomes x. -/
def Says (l : Nat) (x : Spdm) (code v : Nat) (s t : State) : Prop :=
  t.dev.spdm l = x ∧ (∀ k, k ≠ l → t.dev.spdm k = s.dev.spdm k) ∧
  Becomes s t { s.dev with
    out := s.dev.out ++ [.answer l code v]
    host := { s.dev.host with spdm := t.dev.host.spdm } }

/-- A responder answers with what the spec does not state: a free value, the next one after it. -/
def SaysFree (l : Nat) (x : Spdm) (code : Nat) (s t : State) : Prop :=
  t.dev.spdm l = x ∧ (∀ k, k ≠ l → t.dev.spdm k = s.dev.spdm k) ∧
  Becomes s t { s.dev with
    free := s.dev.free + 1
    out := s.dev.out ++ [.answer l code (Config.freeValue s.dev.free % 2 ^ 768)]
    host := { s.dev.host with spdm := t.dev.host.spdm } }

/-- A responder answers and nothing else happens. -/
def Replies (l code v : Nat) (s t : State) : Prop := Becomes s t { s.dev with out := s.dev.out ++ [.answer l code v] }

/-- GET_VERSION to END_SESSION: a responder whose link is down, or over MCTP one in stage SELFTEST, is
silent; a request before its step, or one of a session outside it, is answered
with ERROR. In order, the connection takes each step and answers; KEY_EXCHANGE begins a session, FINISH completes it, and END_SESSION ends it;
CHALLENGE needs the identity key, and GET_MEASUREMENTS gives the digest of what Headland started (R403; the answers' codes: log entry 62). -/
def Rules.Spdm : Prop :=
  ∀ s (l : Fin 3), Live s →
    let n := l.val
    let x := s.dev.spdm n
    let on : Prop := if n = 2 then s.dev.rd Reg.HDL_STATUS_STAGE ≠ 1 else s.dev.linkUp n = true
    let inside : Prop := x.session ≠ none ∧ x.finished = true
    (¬ on → ∀ c, c ∈ [Instr.getVersion l, .getCapabilities l, .negotiateAlgorithms l true, .negotiateAlgorithms l false, .getDigests l,
      .getCertificate l, .challenge l, .getMeasurements l, .keyExchange l 0, .finish l, .heartbeat l, .keyUpdate l, .endSession l] →
      Completes c s fun t => t = s) ∧
    (on → ∀ c step, (c, step) ∈ [(Instr.getCapabilities l, 1), (.negotiateAlgorithms l true, 2), (.negotiateAlgorithms l false, 2), (.getDigests l, 3),
      (.getCertificate l, 3), (.challenge l, 3), (.getMeasurements l, 3), (.keyExchange l 0, 3), (.finish l, 3)] → x.step < step →
      Completes c s (Replies n 0x7F 4 s)) ∧
    (on → Completes (.getVersion l) s (Says n { step := 1 } 0x04 0x13 s)) ∧
    (on → 1 ≤ x.step → Completes (.getCapabilities l) s (SaysFree n { x with step := 2 } 0x61 s)) ∧
    (on → 2 ≤ x.step → Completes (.negotiateAlgorithms l true) s (Says n { x with step := 3 } 0x63 384 s) ∧
      Completes (.negotiateAlgorithms l false) s (Replies n 0x7F 1 s)) ∧
    (on → 3 ≤ x.step → Completes (.getDigests l) s (SaysFree n x 0x01 s) ∧ Completes (.getCertificate l) s (SaysFree n x 0x02 s) ∧
      (s.dev.boot.identityKey = true → Completes (.challenge l) s (SaysFree n x 0x03 s)) ∧
      (s.dev.boot.identityKey = false → Completes (.challenge l) s (Replies n 0x7F 4 s)) ∧
      Completes (.getMeasurements l) s (Replies n 0x60 (beNat (Config.sha384 s.dev.boot.running)) s) ∧
      (∀ id : BitVec 32, Completes (.keyExchange l id) s (SaysFree n { step := 3, session := some id.toNat } 0x64 s)) ∧
      (x.session ≠ none → x.finished = false → Completes (.finish l) s (Says n { x with finished := true } 0x65 0 s)) ∧
      (x.session = none ∨ x.finished = true → Completes (.finish l) s (Replies n 0x7F 4 s))) ∧
    (on → ¬ inside → ∀ c ∈ [Instr.heartbeat l, .keyUpdate l, .endSession l], Completes c s (Replies n 0x7F 4 s)) ∧
    (on → inside → Completes (.heartbeat l) s (Replies n 0x68 0 s) ∧
      Completes (.keyUpdate l) s (Says n { x with updates := x.updates + 1 } 0x69 0 s) ∧
      Completes (.endSession l) s (Says n { step := 3 } 0x6C 0 s))

/-- A TDI takes a state, which both its registers show, and its link's responder answers. -/
def TdiTakes (tid st code v : Nat) (s t : State) : Prop :=
  t.dev.rd (Reg.HST_TEN_TDI_STATE tid) = st ∧ t.dev.rd (Reg.TEN_ID_TDI_STATE tid) = st ∧
  Becomes s t { s.dev with regs := t.dev.regs, out := s.dev.out ++ [.answer (tid / 256) code v] } ∧
  FieldsKept [Reg.HST_TEN_TDI_STATE tid, Reg.TEN_ID_TDI_STATE tid] s t

/-- IDE_KM, IDE_CHECK_FAILED, LOCK_INTERFACE_REQUEST, START_INTERFACE_REQUEST, STOP_INTERFACE_REQUEST and GET_DEVICE_INTERFACE_REPORT: within a
session keys are programmed, go into use and are stopped; a failed check leaves the stream insecure, counted and logged. A TDI that a secure
stream covers is locked from UNLOCKED, runs from LOCKED, is unlocked by STOP, and reports while it is locked or runs; the steward and a
function that is not there have none (R404; the answers' codes: log entry 62). -/
def Rules.TrustedIo : Prop :=
  (∀ s (l : BitVec 1) (i : BitVec 3) (sub : BitVec 3) key, Live s →
    let n := l.toNat
    let x := s.dev.stream n i.toNat
    let inside : Prop := s.dev.linkUp n = true ∧ (s.dev.spdm n).session ≠ none ∧ (s.dev.spdm n).finished = true
    let takes (y : Machine.Stream) (v : Nat) (t : State) : Prop := t.dev.stream n i.toNat = y ∧
      (∀ k, k ≠ n * 8 + i.toNat → Tab.get {} t.dev.host.streams k = Tab.get {} s.dev.host.streams k) ∧
      Becomes s t { s.dev with
        out := s.dev.out ++ [.answer n 0x7E v]
        host := { s.dev.host with streams := t.dev.host.streams } }
    (s.dev.linkUp n = false → ∀ what, Completes (.ideKm l i what sub key) s fun t => t = s) ∧
    (s.dev.linkUp n = true → ¬ inside → ∀ what, Completes (.ideKm l i what sub key) s (Replies n 0x7F 4 s)) ∧
    (inside → Completes (.ideKm l i 0 sub key) s (takes { x with keys := Tab.set [] x.keys sub.toNat (fitBytes 32 key) } 0)) ∧
    (inside → Completes (.ideKm l i 1 sub key) s (takes { x with secure := !x.keys.isEmpty, insecure := false } 1)) ∧
    (inside → Completes (.ideKm l i 2 sub key) s (takes { x with secure := false } 2)) ∧
    ((∀ u, u / 256 = n → u ≠ 0 → s.dev.streamHas n i.toNat u = true → s.dev.fnLive u = true →
      s.dev.rd (Reg.HST_TEN_TDI_STATE u) = 3) → Completes (.ideCheckFailed l i) s fun t =>
        t.dev.stream n i.toNat = { x with secure := false, insecure := true } ∧ HostCounts (n * 256) 6 1 s t ∧
        (t.dev.cfgWord (n * 256) 0x106).testBit 11 = true ∧ Interrupts .tdi t ∧
        Becomes s t { s.dev with
          regs := t.dev.regs
          host := { s.dev.host with streams := t.dev.host.streams, config := t.dev.host.config } } ∧
        FieldsKept [Reg.HST_CNT_COUNT n 6, Reg.HST_MGMT_CAUSE, Reg.HST_MGMT_PENDING_EVENTS] s t)) ∧
  (∀ s (tid : BitVec 9), Live s →
    let h := tid.toNat
    let n := h / 256
    let inside : Prop := s.dev.linkUp n = true ∧ (s.dev.spdm n).session ≠ none ∧ (s.dev.spdm n).finished = true
    let mine : Prop := inside ∧ h ≠ 0 ∧ s.dev.fnLive h = true
    let st := s.dev.rd (Reg.HST_TEN_TDI_STATE h)
    let all := [Instr.lockInterfaceRequest tid, .startInterfaceRequest tid, .stopInterfaceRequest tid, .getDeviceInterfaceReport tid]
    (s.dev.linkUp n = false → ∀ c ∈ all, Completes c s fun t => t = s) ∧
    (s.dev.linkUp n = true → ¬ inside → ∀ c ∈ all, Completes c s (Replies n 0x7F 4 s)) ∧
    (inside → h = 0 ∨ s.dev.fnLive h = false → ∀ c ∈ all, Completes c s (Replies n 0x7F 2 s)) ∧
    (mine → st = 0 → s.dev.covered h = true → Completes (.lockInterfaceRequest tid) s (TdiTakes h 1 0x03 h s)) ∧
    (mine → st ≠ 0 ∨ s.dev.covered h = false → Completes (.lockInterfaceRequest tid) s (Replies n 0x7F 3 s)) ∧
    (mine → st = 1 → Completes (.startInterfaceRequest tid) s (TdiTakes h 2 0x06 h s)) ∧
    (mine → st ≠ 1 → Completes (.startInterfaceRequest tid) s (Replies n 0x7F 4 s)) ∧
    (mine → Completes (.stopInterfaceRequest tid) s (TdiTakes h 0 0x07 h s)) ∧
    (mine → st = 1 ∨ st = 2 → Completes (.getDeviceInterfaceReport tid) s
      (Replies n 0x04 (leNat ((s.dev.tdiReport h).flatMap (natLe 8))) s)) ∧
    (mine → st ≠ 1 → st ≠ 2 → Completes (.getDeviceInterfaceReport tid) s (Replies n 0x7F 4 s)))

end Sys2Proof

/-- SPDM, IDE and TDISP: Spdm and TrustedIo. -/
def Obligations.TrustedTraffic : Prop :=
  Rules.Spdm ∧ Rules.TrustedIo

namespace Sys2Proof

/-- A slot's status takes events and shows whether a card is there; the hot-plug cause rises, and where messages are enabled one is on its way. -/
def SlotTells (n set : Nat) (fs : List Fld) (s t : State) : Prop :=
  (t.dev.slot n).status = (((s.dev.slot n).status ||| set) &&& 0xFFBF) ||| (if t.dev.rd (Reg.HST_RP_PRESENT n) = 0 then 0 else 64) ∧
  Interrupts .hotPlug t ∧
  (s.dev.inF (Reg.HST_RP_HP_MSG_EN n) = 0 → t.dev.chans = s.dev.chans) ∧
  (s.dev.inF (Reg.HST_RP_HP_MSG_EN n) ≠ 0 →
    let ch := s.dev.inF (Reg.HST_RP_HP_CHANNEL n)
    t.dev.chan ch = { s.dev.chan ch with held := (s.dev.chan ch).held ++
      [⟨0x818 + n, [(s.dev.clk.tide % 2 ^ 32 * 2 ^ 32 + n * 2 ^ 16 + (t.dev.slot n).status) % 2 ^ 64], none, s.dev.clk.tick + 1, false⟩] } ∧
    ∀ k, k ≠ ch → t.dev.chan k = s.dev.chan k) ∧
  (∀ k, k ≠ n → t.dev.slot k = s.dev.slot k) ∧
  Becomes s t { s.dev with
    regs := t.dev.regs, chans := t.dev.chans
    host := { s.dev.host with slots := t.dev.host.slots } } ∧
  FieldsKept ([Reg.HST_MGMT_CAUSE, Reg.HST_MGMT_PENDING_EVENTS] ++ fs) s t

/-- Of the host side only one slot changes, to x, and of the registers only fields of fs. -/
def SlotTakes (n : Nat) (x : Machine.Slot) (fs : List Fld) (s t : State) : Prop :=
  t.dev.slot n = x ∧ (∀ k, k ≠ n → t.dev.slot k = s.dev.slot k) ∧
  Becomes s t { s.dev with
    regs := t.dev.regs
    host := { s.dev.host with slots := t.dev.host.slots } } ∧ FieldsKept fs s t

/-- SLOT_POWER_ON, SLOT_PERST_RELEASE, SLOT_POWER_OFF, SLOT_PWREN_OFF, ATTENTION_BUTTON_PRESSED, PRESENCE_DETECT_CHANGED, ROOT_PORT_LINK_UP and
SLOT_SURPRISE_REMOVAL: powered, a slot's PWREN follows at the next tick and its reset is released at least 100 ms later; powered off, its reset
comes at the next tick and PWREN goes 1 ms later; nothing happens before its time, or twice. Events set their status bit and tell of it; a
card, link or power that is lost leaves the slot off and its backends unavailable (R406, R408, R409, R342). -/
def Rules.Slots : Prop :=
  ∀ s (p : BitVec 3), Live s →
    let n := p.toNat
    let x := s.dev.slot n
    let perst := Reg.HST_RP_PERST_ASSERTED n
    let on := Reg.HST_RP_POWERED n
    let up := Reg.HST_RP_LINK_UP n
    let speed := Reg.HST_RP_SPEED n
    (x.off = false → Completes (.slotPowerOn p) s fun t => t = s) ∧
    (x.off = true → Completes (.slotPowerOn p) s fun t => t.dev.rd on = 1 ∧ t.dev.inF on = s.dev.inF on ∧
      SlotTakes n { x with
        off := false, pwrenAt := none
        perstAt := some (s.dev.clk.tick + 1 + Max.max 100 (s.dev.inF (Reg.HST_RP_PWR_ON_DELAY_MS n)) * 125000) } [on] s t) ∧
    (x.perstAt = none ∨ (∃ e, x.perstAt = some e ∧ s.dev.clk.tick < e) → Completes (.slotPerstRelease p) s fun t => t = s) ∧
    (∀ e, x.perstAt = some e → e ≤ s.dev.clk.tick → Completes (.slotPerstRelease p) s fun t =>
      t.dev.rd perst = 0 ∧ SlotTakes n { x with perstAt := none } [perst] s t) ∧
    (x.off = true → Completes (.slotPowerOff p) s fun t => t = s) ∧
    (x.off = false → Completes (.slotPowerOff p) s fun t => t.dev.rd perst = 1 ∧ t.dev.inF perst = s.dev.inF perst ∧
      SlotTakes n { x with off := true, perstAt := none, pwrenAt := some (s.dev.clk.tick + 1 + 125000) } [perst] s t) ∧
    (x.pwrenAt = none ∨ (∃ e, x.pwrenAt = some e ∧ s.dev.clk.tick < e) → Completes (.slotPwrenOff p) s fun t => t = s) ∧
    (∀ e, x.pwrenAt = some e → e ≤ s.dev.clk.tick → Completes (.slotPwrenOff p) s fun t =>
      t.dev.rd on = 0 ∧ t.dev.rd up = 0 ∧ t.dev.rd speed = 0 ∧ SlotTakes n { x with pwrenAt := none } [on, up, speed] s t) ∧
    Completes (.attentionButtonPressed p) s (SlotTells n 1 [] s) ∧
    Completes (.presenceDetectChanged p) s (fun t => t.dev.rd (Reg.HST_RP_PRESENT n) = 1 ∧ SlotTells n 8 [Reg.HST_RP_PRESENT n] s t) ∧
    (∀ v : BitVec 4,
      (s.dev.rd on = 0 ∨ s.dev.rd perst ≠ 0 ∨ s.dev.rd up ≠ 0 → Completes (.rootPortLinkUp p v) s fun t => t = s) ∧
      (s.dev.rd on ≠ 0 → s.dev.rd perst = 0 → s.dev.rd up = 0 → Completes (.rootPortLinkUp p v) s fun t =>
        t.dev.rd up = 1 ∧ t.dev.rd speed = v.toNat ∧ SlotTells n 0x100 [up, speed] s t)) ∧
    (s.dev.rd on = 0 ∨ s.dev.rd up = 0 → Completes (.slotSurpriseRemoval p 1) s fun t => t = s) ∧
    ((∀ o ∈ s.dev.ops, o.req.kind ≠ 6) → ∀ what : Fin 3, (what = 1 → s.dev.rd on ≠ 0 ∧ s.dev.rd up ≠ 0) →
      Completes (.slotSurpriseRemoval p what) s fun t =>
        t.dev.rd on = 0 ∧ t.dev.rd up = 0 ∧ t.dev.rd perst = 1 ∧ t.dev.rd speed = 0 ∧ (t.dev.slot n).off = true ∧
        (what = 0 → t.dev.rd (Reg.HST_RP_PRESENT n) = 0) ∧
        (∀ b, b < 256 → s.dev.inF (Reg.STG_BE_KIND b) = 0 → s.dev.inF (Reg.STG_BE_SLOT b) = n → t.dev.rd (Reg.STG_BE_AVAILABLE b) = 0) ∧
        SlotTells n (if what = 0 then 8 else if what = 1 then 0x100 else 2)
          ([on, up, perst, speed, Reg.HST_RP_PRESENT n, Reg.HST_RP_POWER_FAULTS n, Reg.HST_RP_SURPRISE_REMOVALS n] ++
            ((List.range 256).filter fun b => s.dev.inF (Reg.STG_BE_KIND b) == 0 && s.dev.inF (Reg.STG_BE_SLOT b) == n).map Reg.STG_BE_AVAILABLE) s t)

/-- SSD_INTERRUPT, SSD_DMA_REQUEST, SLOT_WINDOW_ACCESS, PCFG_READ, PCFG_WRITE and PCFG_CYCLE_END: while its link is down an SSD sends nothing, and a load
of its window is logged, as is one that the firewall refuses. An interrupt is a message of its channel; a request that the firewall grants reads or writes memory, and another is
logged. One configuration cycle is in progress at a time; bus 0 is the device's own, and a cycle without an answer ends after 50 ms (R407,
R410). -/
def Rules.SlotTraffic : Prop :=
  (∀ s (p : BitVec 3), Live s →
    let n := p.toNat
    let up : Prop := s.dev.rd (Reg.HST_RP_LINK_UP n) ≠ 0
    let posts (off data : Nat) (t : State) : Prop :=
      t.dev.chan (off / 8) = { s.dev.chan (off / 8) with held := (s.dev.chan (off / 8)).held ++ [⟨0x818 + n, [data % 2 ^ 64], none, s.dev.clk.tick + 1, false⟩] } ∧
      (∀ k, k ≠ off / 8 → t.dev.chan k = s.dev.chan k) ∧ Becomes s t { s.dev with chans := t.dev.chans }
    (∀ (off : BitVec 16) (v : BitVec 32), (¬ up → Completes (.ssdInterrupt p off v) s fun t => t = s) ∧
      (up → Completes (.ssdInterrupt p off v) s (posts off.toNat v.toNat))) ∧
    (∀ (a : BitVec 64) (len : BitVec 13) data,
      (¬ up ∨ len = 0 → Completes (.ssdDmaRequest p a len data) s fun t => t = s) ∧
      (up → len ≠ 0 → a.toNat < 0xFEE00000 ∨ 0xFEE10000 ≤ a.toNat →
        let ans (k : AccessKind) := s.dev.firewall (.shoal (s.dev.inF (Reg.HST_RP_DMA_SHOAL n))) a.toNat len.toNat k
        let fault (kind : AccessKind) (k : Nat) : ErrRec :=
          { source := 0x018 + n, subsrc := n, kind := k, sev := 1, addr := a.toNat, detail := kind.num }
        (ans .read = .granted → s.dev.place a.toNat = .ddr ∨ s.dev.place a.toNat = .hbm → Completes (.ssdDmaRequest p a len none) s fun t =>
          Becomes s t { s.dev with out := s.dev.out ++ [.ssdData n (s.dev.bytes a.toNat len.toNat)] }) ∧
        (∀ l, ans .write = .granted → s.dev.place a.toNat = .ddr ∨ s.dev.place a.toNat = .hbm → l.length = len.toNat →
          s.dev.partialPoison a.toNat len.toNat = none → Completes (.ssdDmaRequest p a len (some l)) s fun t =>
            (∀ i, i < l.length → Tab.get blankByte t.dev.mem.mem (a.toNat + i) = l.getD i 0) ∧
            (∀ k, k < a.toNat ∨ a.toNat + l.length ≤ k → Tab.get blankByte t.dev.mem.mem k = Tab.get blankByte s.dev.mem.mem k) ∧
            Becomes s t { s.dev with mem := t.dev.mem }) ∧
        (ans .read = .denied → Completes (.ssdDmaRequest p a len none) s (LogsAnd [] (fault .read 0x11) s)) ∧
        (ans .read = .hole → Completes (.ssdDmaRequest p a len none) s (LogsAnd [] (fault .read 0x10) s)) ∧
        (∀ l, ans .write = .denied → Completes (.ssdDmaRequest p a len (some l)) s (LogsAnd [] (fault .write 0x11) s)))) ∧
    (∀ ag (off : BitVec 16) (v : BitVec 64),
      let at_ := 0x840000 + n * 0x10000 + off.toNat
      (s.dev.mayRead ag at_ = true → up → Completes (.slotWindowAccess ag p off none) s fun t =>
        Becomes s t { s.dev with out := s.dev.out ++ [.slotRead n off.toNat] }) ∧
      (s.dev.mayRead ag at_ = true → ¬ up → Completes (.slotWindowAccess ag p off none) s (LogsAnd [] (ctlRecord ag 0x13 at_ 0) s)) ∧
      (∀ th, ag = .thread th → s.dev.fwRefuses ag at_ = true → Completes (.slotWindowAccess ag p off none) s (Denies th at_ false s)) ∧
      (s.dev.mayRead ag at_ = false → s.dev.fwRefuses ag at_ = false → Completes (.slotWindowAccess ag p off none) s fun t => t = s) ∧
      (s.dev.mayWrite ag at_ = false → Completes (.slotWindowAccess ag p off (some v)) s (Discards ag at_ s)) ∧
      (s.dev.mayWrite ag at_ = true → up → Completes (.slotWindowAccess ag p off (some v)) s fun t =>
        Becomes s t { s.dev with out := s.dev.out ++ [.slotWrite n off.toNat v.toNat] }) ∧
      (s.dev.mayWrite ag at_ = true → ¬ up → Completes (.slotWindowAccess ag p off (some v)) s fun t => t = s))) ∧
  (∀ s ag (bus : BitVec 8) (dev : BitVec 5) (fn : BitVec 3) (reg : BitVec 10), Live s → ∀ write c,
    (c = Instr.pcfgRead ag bus dev fn reg ∧ write = false) ∨ (c = .pcfgWrite ag bus dev fn reg ∧ write = true) →
    let fs := [Reg.HST_PCFG_WRITE, Reg.HST_PCFG_BUS, Reg.HST_PCFG_DEV, Reg.HST_PCFG_FN, Reg.HST_PCFG_REG]
    let shows (t : State) : Prop := t.dev.rd Reg.HST_PCFG_WRITE = (if write then 1 else 0) ∧ t.dev.rd Reg.HST_PCFG_BUS = bus.toNat ∧
      t.dev.rd Reg.HST_PCFG_DEV = dev.toNat ∧ t.dev.rd Reg.HST_PCFG_FN = fn.toNat ∧ t.dev.rd Reg.HST_PCFG_REG = reg.toNat
    let begins (t : State) : Prop := shows t ∧ t.dev.rd Reg.HST_PCFG_BUSY = 1 ∧ t.dev.host.pcfg = some ⟨s.dev.clk.tick, write, bus.toNat, dev.toNat, fn.toNat, reg.toNat⟩
    (s.dev.mayWrite ag 0x800048 = false → Completes c s (Discards ag 0x800048 s)) ∧
    (s.dev.mayWrite ag 0x800048 = true → s.dev.rd Reg.HST_PCFG_BUSY ≠ 0 → Completes c s fun t => shows t ∧ OnlyFields fs s t) ∧
    (s.dev.mayWrite ag 0x800048 = true → s.dev.rd Reg.HST_PCFG_BUSY = 0 → bus ≠ 0 → Completes c s fun t => begins t ∧
      Becomes s t { s.dev with
        regs := t.dev.regs
        out := s.dev.out ++ [.cfg write bus.toNat dev.toNat fn.toNat reg.toNat (if write then s.dev.inF Reg.HST_PCFG_DATA else 0)]
        host := { s.dev.host with pcfg := t.dev.host.pcfg } } ∧ FieldsKept (Reg.HST_PCFG_BUSY :: fs) s t) ∧
    (s.dev.mayWrite ag 0x800048 = true → s.dev.rd Reg.HST_PCFG_BUSY = 0 → bus = 0 → write = false ∨ 8 ≤ dev.toNat ∨ fn ≠ 0 ∨ reg ≠ 0x16 →
      Completes c s fun t => begins t ∧
        Becomes s t { s.dev with
          regs := t.dev.regs
          host := { s.dev.host with pcfg := t.dev.host.pcfg } } ∧ FieldsKept (Reg.HST_PCFG_BUSY :: fs) s t)) ∧
  (∀ s (st : Fin 4) (v : BitVec 32), Live s →
    let c : Instr := .pcfgCycleEnd st v
    let ends (e : PrivCycle) (k data : Nat) (t : State) : Prop := t.dev.host.pcfg = none ∧ t.dev.rd Reg.HST_PCFG_BUSY = 0 ∧
      t.dev.rd Reg.HST_PCFG_CFG_STATUS = k ∧ (k = 0 → e.write = false → t.dev.rd Reg.HST_PCFG_DATA = data % 2 ^ 32) ∧
      (k ≠ 0 ∨ e.write = true → t.dev.rd Reg.HST_PCFG_DATA = s.dev.rd Reg.HST_PCFG_DATA) ∧
      Becomes s t { s.dev with
        regs := t.dev.regs
        host := { s.dev.host with pcfg := none } } ∧
      FieldsKept [Reg.HST_PCFG_BUSY, Reg.HST_PCFG_CFG_STATUS, Reg.HST_PCFG_DATA] s t
    (s.dev.host.pcfg = none → Completes c s fun t => t = s) ∧
    (∀ e, s.dev.host.pcfg = some e → e.bus ≠ 0 → st = 3 → s.dev.clk.tick < e.tick + 6250000 → Completes c s fun t => t = s) ∧
    (∀ e, s.dev.host.pcfg = some e → e.bus ≠ 0 → st ≠ 3 ∨ e.tick + 6250000 ≤ s.dev.clk.tick → Completes c s (ends e st.val v.toNat)) ∧
    (∀ e, s.dev.host.pcfg = some e → e.bus = 0 → e.dev < 8 ∧ e.fn = 0 → Completes c s (ends e 0 (s.dev.rootRead e.dev e.reg))) ∧
    (∀ e, s.dev.host.pcfg = some e → e.bus = 0 → ¬ (e.dev < 8 ∧ e.fn = 0) → Completes c s (ends e 1 0)))

end Sys2Proof

/-- Downstream slots and their traffic: Slots and SlotTraffic. -/
def Obligations.SlotsAndTraffic : Prop :=
  Rules.Slots ∧ Rules.SlotTraffic

/-! Storage -/

namespace Sys2Proof

/-- A function's controller can post a completion of an admin command. -/
def AdminPosts (d : Dev) (tid : Nat) : Prop :=
  d.nvLive tid 0 = true ∧ d.queuesLive tid = true ∧ (d.nvSq tid 0).cq = 0 ∧ 2 ≤ (d.nvCq tid 0).size ∧ (d.nvCq tid 0).full = false ∧
  (d.nvCq tid 0).ien = false ∧ ∀ w ∈ d.host.waitingNvme, w.tid ≠ tid

/-- It serves an admin command at once and can post its completion: the shoal that serves them is idle, and none waits (log 191). -/
def AdminReady (d : Dev) (tid : Nat) : Prop := AdminPosts d tid ∧ d.host.adminQ = [] ∧ d.adminIdle = true

/-- While others wait, or the shoal that serves them is busy, an admin command takes its turn behind them. -/
def TakesTurn (c : Instr) (op : AdminOp) (a : NvAdmin) (s : State) : Prop :=
  s.dev.nvLive a.tid.toNat 0 = true → s.dev.host.adminQ ≠ [] ∨ s.dev.adminIdle = false → Completes c s fun t =>
    Becomes s t { s.dev with host := { s.dev.host with adminQ := s.dev.host.adminQ ++ [(op, a)] } }

/-- An admin command completes with SCT, SC and Dword 0, after what it wrote to the host; of the completion queues those of keys may also change. -/
def Answered (tid cid sct sc dw0 : Nat) (data : List Out) (keys : List Nat) (s t : State) : Prop :=
  let c := s.dev.nvCq tid 0
  let next := (c.tail + 1) % c.size
  t.dev.out = s.dev.out ++ data ++ [.hostWrite tid (c.base + c.tail * 16) (wordBytes [dw0, 0, (s.dev.nvSq tid 0).head % 65536,
    cid % 65536 + (if c.phase = true then 65536 else 0) + (sct * 256 + sc) * 2 ^ 17])] ∧
  t.dev.nvCq tid 0 = { c with tail := next, phase := if next = 0 then !c.phase else c.phase } ∧
  ∀ k, k ≠ tid * 65 → k ∉ keys → Tab.get {} t.dev.host.cqs k = Tab.get {} s.dev.host.cqs k

/-- Only the function's completion queue and the output change. -/
def OnlyAnswer (s t : State) : Prop :=
  Becomes s t { s.dev with
    out := t.dev.out
    host := { s.dev.host with cqs := t.dev.host.cqs } }

/-- Of a function's controller only fields of x change, with the completion. -/
def CtlTakes (tid : Nat) (x : Ctrl) (s t : State) : Prop :=
  t.dev.ctl tid = x ∧ (∀ u, u ≠ tid → t.dev.ctl u = s.dev.ctl u) ∧
  Becomes s t { s.dev with
    regs := t.dev.regs, out := t.dev.out
    host := { s.dev.host with cqs := t.dev.host.cqs, ctrls := t.dev.host.ctrls } }

/-- A storage counter advances by one. -/
def StgCounts (n : Nat) (s t : State) : Prop :=
  t.dev.rd (Reg.STG_CNT_COUNT n) = Min.min (s.dev.rd (Reg.STG_CNT_COUNT n) + 1) (2 ^ 64 - 1)

/-- NVME_SQ_DOORBELL, NVME_ENTRY_FETCH, FLUSH, NVME_WRITE, NVME_READ, WRITE_ZEROES and DATASET_MANAGEMENT: a doorbell of a queue that is there moves
its tail, and another is counted; entries are fetched one read for each. An I/O command of an enabled controller asks for admission as a
storage operation of its namespace's class, and one of another controller does nothing (R334 to R337). -/
def Rules.NvmeQueues : Prop :=
  (∀ s (tid : BitVec 9) (sq : BitVec 7) (v : BitVec 16) tee, Live s →
    let h := tid.toNat
    let q := sq.toNat
    let x := s.dev.nvSq h q
    let c : Instr := .nvmeSqDoorbell tid sq v tee
    let knows : Prop := s.dev.nvLive h q = true ∧ v.toNat < x.size ∧ x.deleting = none
    Missed c h tee true s ∧
    (BarOpen s.dev h tee → ¬ knows → Completes c s fun t => t.dev.rd (Reg.TEN_STATUS_DOORBELL_BAD h) = 1 ∧ HostCounts h 8 1 s t ∧
      OnlyFields [Reg.TEN_STATUS_DOORBELL_BAD h, Reg.HST_CNT_COUNT (h / 256) 8] s t) ∧
    (BarOpen s.dev h tee → knows → s.dev.queuesLive h = false ∨ (s.dev.ctl h).shst ≠ 0 ∨ Tab.get 0 s.dev.host.fetch (h * 1024 + 512 + q) = v.toNat →
      Completes c s fun t => t.dev.nvSq h q = { x with tail := v.toNat } ∧
        (∀ k, k ≠ h * 65 + q → Tab.get {} t.dev.host.sqs k = Tab.get {} s.dev.host.sqs k) ∧
        Tab.get [] t.dev.host.bellTimes (h * 1024 + 512 + q) = Tab.get [] s.dev.host.bellTimes (h * 1024 + 512 + q) ++
          (if x.tail = v.toNat then [] else [(v.toNat, s.dev.clk.tide)]) ∧
        Becomes s t { s.dev with host := { s.dev.host with sqs := t.dev.host.sqs, bellTimes := t.dev.host.bellTimes } })) ∧
  (∀ s (tid : BitVec 9) (sq : BitVec 7), Live s →
    let h := tid.toNat
    let q := sq.toNat
    let x := s.dev.nvSq h q
    let f := Tab.get 0 s.dev.host.fetch (h * 1024 + 512 + q)
    let took := Tab.get 0 s.dev.host.took (h * 1024 + 512 + q)
    let addr := x.base + f * 64
    let read : HostRead := { link := h / 256, tag := 0, tid := h, addr := addr, len := 64, use := .entries q f 1, time := 0, booked := false }
    (s.dev.nvFetches h q = false → Completes (.nvmeEntryFetch tid sq) s fun t => t = s) ∧
    (s.dev.nvFetches h q = true → x.base % 4096 = 0 → f < x.size → (x.tail + x.size - f) % x.size = 1 → took < 16 → ∀ tag, s.dev.tagFor read = some tag →
      Completes (.nvmeEntryFetch tid sq) s fun t =>
        t.dev.host.reads = s.dev.host.reads ++ [{ read with tag := tag, time := s.dev.clk.tide }] ∧
        t.dev.out = s.dev.out ++ [.hostRead (h / 256) tag h addr 64] ∧
        Tab.get 0 t.dev.host.fetch (h * 1024 + 512 + q) = (f + 1) % x.size ∧ Tab.get 0 t.dev.host.took (h * 1024 + 512 + q) = took + 1 ∧
        Becomes s t { s.dev with
          regs := t.dev.regs, out := t.dev.out
          host := { s.dev.host with reads := t.dev.host.reads, fetch := t.dev.host.fetch, took := t.dev.host.took, sqs := t.dev.host.sqs } } ∧
        FieldsKept [Reg.HST_LINK_TAGS_IN_USE (h / 256)] s t)) ∧
  (∀ s (x : NvCmd), Live s → ∀ c code, (c, code) ∈ [(Instr.flush x, 0), (.nvmeWrite x, 1), (.nvmeRead x, 2), (.writeZeroes x, 8), (.datasetManagement x, 9)] →
    let h := x.tid.toNat
    let n := x.nsid.toNat
    let ns := if n = 0xFFFFFFFF ∧ code = 0 then 0xFF else if 1 ≤ n ∧ n ≤ 32 then n else 0
    let k := h * 32 + (ns - 1)
    let lba := if s.dev.inF (Reg.STG_NS_LBA_4K k) = 0 then 512 else 4096
    let len := if code = 0 then 0 else if code = 9 then (x.blocks.toNat % 256 + 1) * 16 else (x.blocks.toNat + 1) * lba
    (s.dev.nvLive h x.sq.toNat = false → Completes c s fun t => t = s) ∧
    (s.dev.nvLive h x.sq.toNat = true → ns ≠ 0xFF →
      let cls := s.dev.inF (Reg.STG_NS_CLASS k)
      Asks c s
        { id := s.dev.nextOp, kind := 6, code := code, cls := cls, tid := h, src := 0x010 + h / 256, org := .nvme x.sq.toNat x.cid.toNat
          desc := { tag := x.cid, cls := BitVec.ofNat 2 cls, bad := x.bad, length := BitVec.ofNat 32 len, addr0 := x.prp1, addr1 := x.lba
                    target := BitVec.ofNat 32 (code * 2 ^ 24 + ns), pages := x.pages }
          tick := s.dev.clk.tick, time := s.dev.clk.tide, clsKnown := ns != 0 }))

/-- CREATE_IO_CQ, CREATE_IO_SQ, DELETE_IO_SQ and DELETE_IO_CQ: one that is served by ADMIN_SHOAL waits while that is busy; each answers the first fault of its arguments, or creates or deletes the queue; a queue whose
commands still run is deleted, and the Delete answered, once they have ended; a completion queue in use stays (R335, R349; the codes of the
faults: log entry 60). -/
def Rules.NvmeQueueAdmin : Prop :=
  ∀ s (a : NvAdmin), Live s →
    let h := a.tid.toNat
    let cid := a.cid.toNat
    let q := a.d10.toNat % 65536
    let n := a.d10.toNat / 65536 + 1
    let hi := a.d11.toNat / 65536
    let pc : Prop := a.d11.toNat.testBit 0 = true
    let named : Prop := q ≠ 0 ∧ q ≤ 64
    let ans (sct sc : Nat) (keys : List Nat) (t : State) := Answered h cid sct sc 0 [] keys s t
    let no (c : Instr) (sct sc : Nat) : Prop := Completes c s fun t => ans sct sc [] t ∧ OnlyAnswer s t
    let cq : Prop := named ∧ (s.dev.nvCq h q).size = 0
    let sq : Prop := named ∧ (s.dev.nvSq h q).size = 0
    let sized : Prop := 2 ≤ n ∧ n ≤ 4096
    (s.dev.nvLive h 0 = false → ∀ c ∈ [Instr.createIoCq a, .createIoSq a, .deleteIoSq a, .deleteIoCq a], Completes c s fun t => t = s) ∧
    (∀ c op, (c, op) ∈ [(Instr.createIoCq a, AdminOp.createCq), (.createIoSq a, .createSq), (.deleteIoCq a, .deleteCq)] → TakesTurn c op a s) ∧
    (AdminReady s.dev h →
      (¬ cq → no (.createIoCq a) 1 1) ∧ (cq → ¬ sized → no (.createIoCq a) 1 2) ∧ (cq → sized → 256 ≤ hi → no (.createIoCq a) 1 8) ∧
      (cq → sized → hi < 256 → ¬ pc → no (.createIoCq a) 0 2) ∧
      (cq → sized → hi < 256 → pc → Completes (.createIoCq a) s fun t => ans 0 0 [h * 65 + q] t ∧ OnlyAnswer s t ∧
        t.dev.nvCq h q = { base := a.prp1.toNat, size := n, vector := hi, ien := a.d11.toNat.testBit 1 })) ∧
    (AdminReady s.dev h →
      let bound : Prop := hi ≠ 0 ∧ hi ≤ 64 ∧ (s.dev.nvCq h hi).size ≠ 0
      (¬ sq → no (.createIoSq a) 1 1) ∧ (sq → ¬ sized → no (.createIoSq a) 1 2) ∧ (sq → sized → ¬ bound → no (.createIoSq a) 1 0) ∧
      (sq → sized → bound → ¬ pc → no (.createIoSq a) 0 2) ∧
      (sq → sized → bound → pc → Completes (.createIoSq a) s fun t => ans 0 0 [] t ∧
        t.dev.nvSq h q = { base := a.prp1.toNat, size := n, cq := hi } ∧
        (∀ k, k ≠ h * 65 + q → Tab.get {} t.dev.host.sqs k = Tab.get {} s.dev.host.sqs k) ∧
        Tab.get 0 t.dev.host.fetch (h * 1024 + 512 + q) = 0 ∧
        Becomes s t { s.dev with
          regs := t.dev.regs, out := t.dev.out
          host := { s.dev.host with
            cqs := t.dev.host.cqs, sqs := t.dev.host.sqs, fetch := t.dev.host.fetch, bellTimes := t.dev.host.bellTimes } } ∧
        FieldsKept [Reg.STG_FN_IO_QUEUES h] s t)) ∧
    (AdminPosts s.dev h →
      let there : Prop := named ∧ (s.dev.nvSq h q).size ≠ 0 ∧ (s.dev.nvSq h q).deleting = none
      (¬ there → no (.deleteIoSq a) 1 1) ∧
      (there → s.dev.sqIdle h q = true → (∀ o ∈ s.dev.ops, o.fromSq h q = false) → Completes (.deleteIoSq a) s fun t =>
        ans 0 0 [] t ∧ t.dev.nvSq h q = {} ∧ (∀ k, k ≠ h * 65 + q → Tab.get {} t.dev.host.sqs k = Tab.get {} s.dev.host.sqs k)) ∧
      (there → (∃ o ∈ s.dev.ops, o.fromSq h q = true ∧ o.ended = false) → (∀ o ∈ s.dev.ops, o.fromSq h q = true → o.handed ≠ none) →
        Completes (.deleteIoSq a) s fun t => t.dev.out = s.dev.out ∧ t.dev.ops = s.dev.ops ∧
          t.dev.nvSq h q = { s.dev.nvSq h q with deleting := some cid })) ∧
    (AdminReady s.dev h →
      let there : Prop := named ∧ (s.dev.nvCq h q).size ≠ 0
      let used : Prop := ∃ k, k < 65 ∧ (s.dev.nvSq h k).size ≠ 0 ∧ (s.dev.nvSq h k).cq = q
      (¬ there → no (.deleteIoCq a) 1 1) ∧ (there → used → no (.deleteIoCq a) 1 0x0C) ∧
      (there → ¬ used → Completes (.deleteIoCq a) s fun t => ans 0 0 [h * 65 + q] t ∧ OnlyAnswer s t ∧ t.dev.nvCq h q = {}))

end Sys2Proof

/-- NVMe queues: NvmeQueues and NvmeQueueAdmin. -/
def Obligations.NvmeQueuePairs : Prop :=
  Rules.NvmeQueues ∧ Rules.NvmeQueueAdmin

namespace Sys2Proof

/-- IDENTIFY, GET_LOG_PAGE, SET_FEATURES, GET_FEATURES, ABORT, and the self-test commands: all but ABORT wait while ADMIN_SHOAL is busy; the data go to the buffer and what is not supported is
refused; a feature reads back as set, and 64 queue pairs are granted; at most four Aborts are outstanding, and one says what it met; one
self-test runs at a time and leaves its result, newest first of 20 (R335, R347, R348, R352; the codes: log entry 60). -/
def Rules.NvmeAdmin : Prop :=
  (∀ s (a : NvAdmin), Live s →
    let h := a.tid.toNat
    let cid := a.cid.toNat
    let id := a.d10.toNat % 256
    let bytes := Min.min 4096 ((a.d10.toNat / 65536 + 1) * 4)
    let x := s.dev.ctl h
    let no (c : Instr) (sct sc dw0 : Nat) : Prop := Completes c s fun t => Answered h cid sct sc dw0 [] [] s t ∧ OnlyAnswer s t
    let gives (c : Instr) (l : List Byte) : Prop := Completes c s fun t =>
      Answered h cid 0 0 0 [.hostWrite h a.prp1.toNat l] [] s t ∧ OnlyAnswer s t
    let granted := 63 * 65536 + 63
    let feature : Prop := id = 1 ∨ id = 4 ∨ id = 7 ∨ id = 8 ∨ id = 9 ∨ id = 10
    (s.dev.nvLive h 0 = false → ∀ c ∈ [Instr.identify a, .getLogPage a, .setFeatures a, .getFeatures a, .abort a, .deviceSelfTestShort a,
      .deviceSelfTestExtended a, .deviceSelfTestAbort a, .firmwareImageDownload a, .firmwareCommitAction0 a, .firmwareCommitAction1 a,
      .firmwareCommitAction2 a, .firmwareCommitAction3 a], Completes c s fun t => t = s) ∧
    (∀ c op, (c, op) ∈ [(Instr.identify a, AdminOp.identify), (.getLogPage a, .getLog), (.setFeatures a, .setFeature), (.getFeatures a, .getFeature),
      (.deviceSelfTestShort a, .test false), (.deviceSelfTestExtended a, .test true), (.deviceSelfTestAbort a, .testAbort)] → TakesTurn c op a s) ∧
    (AdminReady s.dev h → a.prp1.toNat % 4096 = 0 →
      (id = 0 → gives (.identify a) (s.dev.identNs h a.nsid.toNat)) ∧
      (id = 2 → gives (.identify a) (setAt (List.replicate 4096 0) 0
        ((((List.range 32).map (· + 1)).filter fun n => a.nsid.toNat < n && s.dev.inF (Reg.STG_NS_ENABLE (h * 32 + (n - 1))) != 0).flatMap (natLe 4)))) ∧
      (id = 6 → gives (.getLogPage a) (fitBytes bytes x.log6))) ∧
    (AdminReady s.dev h → (3 < id → no (.identify a) 0 2 0) ∧ (id ≠ 1 → id ≠ 2 → id ≠ 3 → id ≠ 6 → no (.getLogPage a) 1 9 0) ∧
      (¬ feature → no (.setFeatures a) 0 2 0 ∧ no (.getFeatures a) 0 2 0) ∧
      (feature → no (.getFeatures a) 0 0 (if id = 7 then granted else Tab.get 0 x.feats id) ∧ Completes (.setFeatures a) s fun t =>
        Answered h cid 0 0 (if id = 7 then granted else 0) [] [] s t ∧
        CtlTakes h { x with feats := Tab.set 0 x.feats id (if id = 7 then granted else a.d11.toNat) } s t ∧ t.dev.regs = s.dev.regs)) ∧
    (AdminPosts s.dev h → 4 ≤ x.aborts.length → no (.abort a) 1 3 0) ∧
    (s.dev.nvLive h 0 = true → x.aborts.length < 4 →
      let sq := a.d10.toNat % 65536
      let victim := a.d10.toNat / 65536
      let is : Req → Bool := fun r => decide (r.tid = h) && decide (r.org = Origin.nvme sq victim)
      let alive := s.dev.ops.find? fun o => is o.req && !o.ended && !o.detached
      let tells (w : Nat) (t : State) : Prop := StgCounts 2 s t ∧
        CtlTakes h { x with aborts := x.aborts ++ [⟨cid, w, s.dev.clk.tick⟩] } s t ∧ t.dev.out = s.dev.out ∧ FieldsKept [Reg.STG_CNT_COUNT 2] s t
      (∀ o, alive = some o → o.handed ≠ none ∨ s.dev.complDue o.req.id = true → Completes (.abort a) s (tells 5)) ∧
      (alive = none → (s.dev.adm.waiting ++ s.dev.pair.decisions.map (·.req)).any is = false →
        Completes (.abort a) s (tells (if (h, sq, victim) ∈ s.dev.host.doneNow then 3 else 7)))) ∧
    (AdminReady s.dev h → x.test ≠ none → no (.deviceSelfTestShort a) 1 0x1D 0 ∧ no (.deviceSelfTestExtended a) 1 0x1D 0) ∧
    (AdminReady s.dev h → x.test = none → no (.deviceSelfTestAbort a) 0 0 0 ∧
      ∀ c ext, (c = Instr.deviceSelfTestShort a ∧ ext = false) ∨ (c = .deviceSelfTestExtended a ∧ ext = true) → Completes c s fun t =>
        Answered h cid 0 0 0 [] [] s t ∧ CtlTakes h { x with test := some ⟨ext, a.nsid.toNat⟩ } s t ∧ StgCounts 11 s t ∧
        t.dev.rd (Reg.STG_FN_DST_RUNNING h) = 1 ∧ FieldsKept [Reg.STG_CNT_COUNT 11, Reg.STG_FN_DST_RUNNING h] s t) ∧
    (AdminReady s.dev h → ∀ e, x.test = some e → Completes (.deviceSelfTestAbort a) s fun t =>
      Answered h cid 0 0 0 [] [] s t ∧ t.dev.rd (Reg.STG_FN_DST_RUNNING h) = 0 ∧ FieldsKept [Reg.STG_FN_DST_RUNNING h] s t ∧
      CtlTakes h { x with test := none, results := ⟨if e.extended then 2 else 1, 1, e.nsid, none⟩ :: x.results.take 19 } s t)) ∧
  (∀ s (tid : BitVec 9) (failed : Option (BitVec 64)), Live s →
    let x := s.dev.ctl tid.toNat
    (x.test = none → Completes (.selfTestEnd tid failed) s fun t => t = s) ∧
    (∀ e, x.test = some e → Completes (.selfTestEnd tid failed) s fun t =>
      t.dev.rd (Reg.STG_FN_DST_RUNNING tid.toNat) = 0 ∧ FieldsKept [Reg.STG_FN_DST_RUNNING tid.toNat] s t ∧ t.dev.out = s.dev.out ∧
      CtlTakes tid.toNat { x with
        test := none
        results := ⟨if e.extended then 2 else 1, if failed = none then 0 else 7, e.nsid, failed.map (·.toNat)⟩ :: x.results.take 19 } s t))

/-- FIRMWARE_IMAGE_DOWNLOAD, FIRMWARE_COMMIT_ACTION_0 to 3, ACTIVATION_QUIESCED and ACT_FAILED: all but action 3 wait while
ADMIN_SHOAL is busy; without the right a firmware command is refused; a piece is
staged at its offset; a commit hands the image to Headland, marked but for action 0, and is answered when its slot is written; action 3 holds
storage, one at a time, until it is quiet and the image is written, or its limit has passed (R350; the codes: log entry 60). -/
def Rules.Firmware : Prop :=
  (∀ s (a : NvAdmin), Live s → s.dev.nvLive a.tid.toNat 0 = true →
    let h := a.tid.toNat
    let cid := a.cid.toNat
    let x := s.dev.ctl h
    let right : Prop := s.dev.inF (Reg.STG_FW_RIGHTS h) ≠ 0
    (AdminReady s.dev h → ¬ right → ∀ c ∈ [Instr.firmwareImageDownload a, .firmwareCommitAction0 a, .firmwareCommitAction1 a,
      .firmwareCommitAction2 a], Completes c s fun t => Answered h cid 0 1 0 [] [] s t ∧ OnlyAnswer s t) ∧
    (AdminPosts s.dev h → ¬ right → Completes (.firmwareCommitAction3 a) s fun t => Answered h cid 0 1 0 [] [] s t ∧ OnlyAnswer s t) ∧
    (∀ c op, (c, op) ∈ [(Instr.firmwareImageDownload a, AdminOp.download), (.firmwareCommitAction0 a, .commit false),
      (.firmwareCommitAction1 a, .commit true), (.firmwareCommitAction2 a, .commit true)] → TakesTurn c op a s) ∧
    (AdminReady s.dev h → right → Completes (.firmwareImageDownload a) s fun t => Answered h cid 0 0 0 [] [] s t ∧ t.dev.regs = s.dev.regs ∧
      CtlTakes h { x with image := putData x.image (a.d11.toNat * 4) (fitBytes ((a.d10.toNat + 1) * 4) a.data) } s t) ∧
    (s.dev.host.adminQ = [] → s.dev.adminIdle = true → right → ∀ c mark, (c, mark) ∈ [(Instr.firmwareCommitAction0 a, false), (.firmwareCommitAction1 a, true), (.firmwareCommitAction2 a, true)] →
      Completes c s fun t => Becomes s t { s.dev with boot := { s.dev.boot with
        updates := s.dev.boot.updates ++ [{ src := .commit h cid, bundle := x.image, mark := mark }] } }) ∧
    (right → s.dev.host.act = none → Completes (.firmwareCommitAction3 a) s fun t => t.dev.rd Reg.STG_STATUS_ACT_HOLD = 1 ∧
      Becomes s t { s.dev with
        regs := t.dev.regs
        host := { s.dev.host with act := some { tid := h, cid := cid, time := s.dev.clk.tide } }
        boot := { s.dev.boot with updates := s.dev.boot.updates ++ [{ src := .activate h cid, bundle := x.image, mark := true }] } } ∧
      FieldsKept [Reg.STG_STATUS_ACT_HOLD] s t) ∧
    (AdminPosts s.dev h → right → s.dev.host.act ≠ none → Completes (.firmwareCommitAction3 a) s fun t =>
      Answered h cid 0 0x0C 0 [] [] s t ∧ OnlyAnswer s t)) ∧
  (∀ s, Live s →
    let quiet : Prop := (∀ o ∈ s.dev.ops, o.req.kind = 6 → o.ended = true) ∧ (∀ r ∈ s.dev.adm.waiting, r.kind ≠ 6) ∧ s.dev.activating = false
    let ends (c : Instr) (a : Activation) (sct sc n : Nat) (fs : List Fld) (P : State → Prop) : Prop :=
      AdminPosts s.dev a.tid → Completes c s fun t => Answered a.tid a.cid sct sc 0 [] [] s t ∧ t.dev.host.act = none ∧
        t.dev.rd Reg.STG_STATUS_ACT_HOLD = 0 ∧ StgCounts n s t ∧ P t ∧
        Becomes s t { s.dev with
          regs := t.dev.regs, out := t.dev.out
          host := { s.dev.host with act := none, cqs := t.dev.host.cqs } } ∧
        FieldsKept ([Reg.STG_STATUS_ACT_HOLD, Reg.STG_CNT_COUNT n] ++ fs) s t
    (s.dev.host.act = none → Completes .activationQuiesced s (fun t => t = s) ∧ Completes .actFailed s fun t => t = s) ∧
    (∀ a, s.dev.host.act = some a →
      let limit := a.time + s.dev.inF Reg.STG_ACT_LIMIT_MS * 1000000
      (¬ quiet → Completes .activationQuiesced s fun t => t = s) ∧ (quiet → ends .activationQuiesced a 0 0 9 [] fun _ => True) ∧
      (s.dev.clk.tide < limit → Completes .actFailed s fun t => t = s) ∧
      (limit ≤ s.dev.clk.tide → ends .actFailed a 1 0x12 10 [Reg.STG_STATUS_ACT_FAILED] fun t => t.dev.rd Reg.STG_STATUS_ACT_FAILED = 1)))

end Sys2Proof

/-- NVMe admin commands and firmware: NvmeAdmin and Firmware. -/
def Obligations.NvmeCommandsAndFirmware : Prop :=
  Rules.NvmeAdmin ∧ Rules.Firmware

namespace Sys2Proof

/-- CC_EN_SET, CC_EN_CLEAR and CC_SHN_SET: a controller with the personality is enabled, with the admin queues of AQA, ASQ and ACQ, and ready, unless it
still resets; disabled, its queues are gone and it resets; a shutdown is under way once (R334, R349). -/
def Rules.Controllers : Prop :=
  ∀ s (tid : BitVec 9) (cc : BitVec 32) tee, Live s →
    let h := tid.toNat
    let x := s.dev.ctl h
    let en := Reg.STG_FN_EN h
    let rdy := Reg.STG_FN_RDY h
    let on : Prop := s.dev.rd (Reg.STG_FN_PERSONALITY h) ≠ 0
    Missed (.ccEnSet tid cc tee) h tee false s ∧ Missed (.ccEnClear tid cc tee) h tee false s ∧ Missed (.ccShnSet tid cc tee) h tee false s ∧
    (BarOpen s.dev h tee → ¬ on ∨ x.resetting = true ∨ s.dev.rd en ≠ 0 → Completes (.ccEnSet tid cc tee) s fun t => t = s) ∧
    (BarOpen s.dev h tee → on → x.resetting = false → s.dev.rd en = 0 → Completes (.ccEnSet tid cc tee) s fun t =>
      t.dev.rd en = 1 ∧ t.dev.rd rdy = 1 ∧ t.dev.ctl h = { x with cc := cc.toNat ||| 1, shst := 0 } ∧
      t.dev.nvSq h 0 = { base := x.asq, size := x.aqa % 4096 + 1, cq := 0 } ∧
      t.dev.nvCq h 0 = { base := x.acq, size := x.aqa / 65536 % 4096 + 1, ien := true } ∧
      Tab.get 0 t.dev.host.fetch (h * 1024 + 512) = 0 ∧
      Becomes s t { s.dev with
        regs := t.dev.regs
        host := { s.dev.host with ctrls := t.dev.host.ctrls, sqs := t.dev.host.sqs, cqs := t.dev.host.cqs, fetch := t.dev.host.fetch } } ∧
      FieldsKept [en, rdy] s t) ∧
    (BarOpen s.dev h tee → s.dev.rd en = 0 → Completes (.ccEnClear tid cc tee) s fun t => t = s) ∧
    (BarOpen s.dev h tee → s.dev.rd en ≠ 0 → HostIdle s.dev h → x.test = none → Completes (.ccEnClear tid cc tee) s fun t =>
      t.dev.rd en = 0 ∧ t.dev.rd rdy = s.dev.rd rdy ∧ t.dev.ctl h = { x with cc := cc.toNat / 2 * 2, resetting := true, aborts := [] } ∧
      (∀ q, q < 65 → (t.dev.nvSq h q).size = 0 ∧ (t.dev.nvCq h q).size = 0) ∧ t.dev.nvOn h = false ∧
      FieldsKept [en, Reg.STG_FN_IO_QUEUES h, Reg.STG_CNT_COUNT 3] s t) ∧
    (BarOpen s.dev h tee → s.dev.nvOn h = true → x.shst = 0 → Completes (.ccShnSet tid cc tee) s fun t =>
      t.dev.ctl h = { x with cc := cc.toNat, shst := 1 } ∧ (∀ u, u ≠ h → t.dev.ctl u = s.dev.ctl u) ∧
      Becomes s t { s.dev with host := { s.dev.host with ctrls := t.dev.host.ctrls } }) ∧
    (BarOpen s.dev h tee → s.dev.nvOn h = false ∨ x.shst ≠ 0 → Completes (.ccShnSet tid cc tee) s fun t => t = s)

/-- A storage command ends with a status: it is gone, or its completion still waits and carries the status. -/
def EndsWith (id status detail : Nat) (t : State) : Prop :=
  ∀ p, t.dev.op? id = some p → p.status = status ∧ p.detail = detail ∧ (p.ended = true ∨ t.dev.complDue id = true)

/-- BACKEND_HAND, BACKEND_RESPONSE, BACKEND_TIMEOUT and BACKEND_BOUND_EXPIRY: a command goes to its backend when that is available and nothing before
it stands against it, once: to a local one as a command to its SSD for each atomic piece of at most 128 KiB, with a write's data, and with FUA
unless it is a Read; to a remote one once its packets have been sent. The answer brings a Read's data or the status of a failure, and of a
detached command nothing is left. Before its time a backend has not timed out and its bound has not passed; then it is unavailable and the
command fails, or the command's assumption has failed. The timeout and the bound are those under which it was sampled (R13, R76, R339 to R343,
R345, R346; that the ranges of a Dataset Management are tested here: log entry 192). -/
def Rules.Backends : Prop :=
  (∀ s (id : Nat), Live s → s.dev.op? id = none →
    (∀ c ∈ [Instr.backendHand id, .backendTimeout id, .backendBoundExpiry id], Completes c s fun t => t = s) ∧
    ∀ (st : Fin 3) data, Completes (.backendResponse id st data) s fun t => t = s) ∧
  (∀ (addr off n fuel : Nat), n / 131072 + 2 ≤ fuel →
    ((atomicPieces addr fuel off n).map (·.2)).sum = n ∧
    ∀ p ∈ atomicPieces addr fuel off n, 0 < p.2 ∧ off ≤ p.1 ∧ p.1 + p.2 ≤ off + n ∧ (addr + p.1) / 131072 = (addr + p.1 + p.2 - 1) / 131072) ∧
  ∀ s (id : Nat) o, Live s → s.dev.op? id = some o → (∀ p ∈ s.dev.ops, p.req.id = id → p = o) →
    let b := o.req.backend
    let with_ (f : Op → Op) : List Op := s.dev.ops.map fun p => if p.req.id = id then f p else p
    let stage := o.plan.head?.map (·.no)
    let may : Prop := o.ended = false ∧ o.req.kind = 6 ∧ o.handsNothing = false ∧ o.waiting = true ∧ o.handed = none ∧ o.detached = false ∧
      s.dev.rd Reg.HDL_STATUS_HOLDUP_STOP = 0 ∧ s.dev.inF (Reg.STG_BE_AVAILABLE b) ≠ 0 ∧ s.dev.mustWait o = false
    let hbm := s.dev.inF (Reg.STG_NS_STAGE_MEM (nsKey o.req.tid (s.dev.reqNs o.req))) ≠ 0
    let ssd (p : Nat × Nat) : Out := .ssd (s.dev.inF (Reg.STG_BE_SLOT b)) id o.req.code (o.req.code != 2) p.1 p.2 hbm
      (if o.req.code = 1 then ((fitBytes o.req.desc.length.toNat o.data).drop p.1).take p.2 else [])
    (¬ may → Completes (.backendHand id) s fun t => t = s) ∧
    (may → o.rangesOk = false → s.dev.complDue id = false → Completes (.backendHand id) s (EndsWith id 3 4)) ∧
    (may → o.rangesOk = true → stage = some 4 → Completes (.backendHand id) s fun t =>
      Becomes s t { s.dev with
        free := s.dev.free + 1
        ops := with_ fun p => { p with peer := Config.freeValue s.dev.free % 2 ^ 308, waiting := false } }) ∧
    (may → o.rangesOk = true → stage = some 5 → Completes (.backendHand id) s fun t =>
      Becomes s t { s.dev with
        out := s.dev.out ++ [.backend b id] ++ (if s.dev.inF (Reg.STG_BE_KIND b) = 0 then (s.dev.pieces o).map ssd else [])
        ops := with_ fun p => { p with
          carried := if o.req.code = 1 then o.req.desc.length.toNat else p.carried, handed := some s.dev.clk.tide } }) ∧
    (∀ (st : Fin 3) data, o.ended = true ∨ o.req.kind ≠ 6 ∨ o.handed = none ∨ (o.detached = false ∧ (o.waiting = false ∨ stage ≠ some 5)) →
      Completes (.backendResponse id st data) s fun t => t = s) ∧
    (∀ (st : Fin 3) data, o.ended = false → o.req.kind = 6 → o.handed ≠ none → o.detached = true → o.going = [] →
      (∀ p ∈ s.dev.ops, p ≠ o → p.ended = false ∨ p.going ≠ []) →
      Completes (.backendResponse id st data) s fun t => Becomes s t { s.dev with ops := s.dev.ops.filter fun p => p.req.id != id }) ∧
    (∀ (st : Fin 3) data x later, o.ended = false → o.req.kind = 6 → o.handed ≠ none → o.detached = false → o.waiting = true → o.status = 0 →
      o.plan = x :: later → x.no = 5 → x.needs ≠ [] → Completes (.backendResponse id st data) s fun t =>
        t.dev.ops = with_ (fun p => { p with
          waiting := false
          data := if st = 0 ∧ o.req.code = 2 then fitBytes o.req.desc.length.toNat data else p.data
          status := if st = 0 then 0 else 0x60
          detail := if st = 0 then p.detail else if st = 2 then 3 else 1
          tagFail := p.tagFail || decide (st = 2) }) ∧
        (st ≠ 0 → StgCounts 7 s t) ∧ (st = 2 → StgCounts 8 s t) ∧
        Becomes s t { s.dev with regs := t.dev.regs, ops := t.dev.ops } ∧
        FieldsKept (if st = 0 then [] else [Reg.STG_CNT_COUNT 7, Reg.STG_CNT_COUNT 8]) s t) ∧
    (let held (n : Nat) : Prop := (∃ h, o.handed = some h ∧ h + n ≤ s.dev.clk.tide) ∧ o.req.kind = 6 ∧ o.ended = false ∧ o.waiting = true ∧
       (o.detached = true ∨ stage = some 5)
     (¬ held o.req.timeout → Completes (.backendTimeout id) s fun t => t = s) ∧
     (held o.req.timeout → o.detached = true → o.slack = true → o.going = [] →
       (∀ p ∈ s.dev.ops, p ≠ o → p.req.kind ≠ 6 ∧ (p.ended = false ∨ p.going ≠ [])) →
       Completes (.backendTimeout id) s fun t => t.dev.rd (Reg.STG_BE_AVAILABLE b) = 0 ∧ StgCounts 6 s t ∧
         Becomes s t { s.dev with regs := t.dev.regs, ops := s.dev.ops.filter fun p => p.req.id != id } ∧
         FieldsKept [Reg.STG_BE_AVAILABLE b, Reg.STG_CNT_COUNT 6] s t) ∧
     (held o.req.timeout → o.detached = false → s.dev.complDue id = false → (∀ p ∈ s.dev.ops, p ≠ o → p.req.kind ≠ 6) →
       Completes (.backendTimeout id) s fun t => t.dev.rd (Reg.STG_BE_AVAILABLE b) = 0 ∧ EndsWith id 0x60 2 t) ∧
     (¬ held o.req.bound ∨ o.envFail = true ∨ o.slack = true → Completes (.backendBoundExpiry id) s fun t => t = s) ∧
     (held o.req.bound → o.envFail = false → o.slack = false → Completes (.backendBoundExpiry id) s fun t =>
       t.dev.ops = with_ (fun p => { p with envFail := true, booked := [] }) ∧
       t.dev.adm = { s.dev.adm with entries := s.dev.adm.entries.map fun e =>
         if e.op = id then { e with holds := e.holds.filter (fun h => h.slot < s.dev.clk.slotSeq) } else e } ∧
       t.dev.pair = { s.dev.pair with inputs := s.dev.pair.inputs ++ [.releaseFuture id] } ∧
       Becomes s t { s.dev with ops := t.dev.ops, adm := t.dev.adm, pair := t.dev.pair }))

end Sys2Proof

/-- NVMe controllers and backends: Controllers and Backends. -/
def Obligations.StorageControllers : Prop :=
  Rules.Controllers ∧ Rules.Backends

/-! The machine as a whole -/

/-- A step with a command at the front of the queue is that command, on the state with the queue's rest; on an empty queue a tick passes (the
model's choice, log entry 1). -/
def Obligations.StepRunsTheFront : Prop :=
  (∀ s c l, s.pending = c :: l → step s = exec c { s with pending := l }) ∧ ∀ s, s.pending = [] → step s = s.tick

/-- After reset Tide time is 0, every field of every register holds its reset value, as read and
in force, every thread is OFF with its registers zero, no channel holds a message, no operation, frame, read or key is held, Headland is at
SELFTEST, and no command waits (R43, R373, R436, R498). -/
def Obligations.ResetValues : Prop :=
  State.reset.pending = [] ∧ Live State.reset ∧ State.reset.prev = State.reset.dev ∧ State.reset.dev.clk.tide = 0 ∧
  (∀ f : Fld, State.reset.dev.rd f = f.rst ∧ State.reset.dev.inF f = f.rst) ∧
  (∀ n, (State.reset.dev.thr n).st = 0 ∧ (State.reset.dev.thr n).priv = true ∧ (∀ r, (State.reset.dev.thr n).reg r = 0) ∧
    (∀ p, (State.reset.dev.thr n).pred p = decide (p = 0)) ∧ (State.reset.dev.thr n).loads = []) ∧
  (∀ c, (State.reset.dev.chan c).msgs = []) ∧ State.reset.dev.ops = [] ∧ State.reset.dev.net.frames = [] ∧ State.reset.dev.host.reads = [] ∧
  State.reset.dev.cry.keys = [] ∧ State.reset.dev.cry.wrapKey = none ∧ State.reset.dev.rd Reg.HDL_STATUS_STAGE = 1 ∧ State.reset.dev.log.reports = [] ∧ State.reset.dev.out = []

/-- Every command completes: none is refused, and a boundary that is not due, which lets time pass, and a tick stop only where Tide time would
pass 2^64 ns (R41). A command leaves the queue alone, and but for PORST_N and the passing of time it leaves what reads show, the device as the
last tick ended (R500). -/
def Obligations.EveryCommandCompletes : Prop :=
  (∀ c s, (c = .slotBoundary → s.dev.clk.slotDue = true) → (c = .epochBoundary → s.dev.clk.epochDue = true) →
    Completes c s fun t => t.pending = s.pending ∧ (c ≠ .porstNFall → (∀ a b k, c ≠ .porstNRise a b k) → t.prev = s.prev)) ∧
  (∀ c s, (∃ t, exec c s = .next t ∧ t.pending = s.pending) ∨
    ((c = .slotBoundary ∨ c = .epochBoundary) ∧ exec c s = .fault .tideOverflow)) ∧
  ∀ s, (∃ t, step s = .next t ∧ t.pending = s.pending.tail) ∨ step s = .fault .tideOverflow

namespace Sys2Proof

/-- A device that holds nothing of a tick that is under way: no TICK-class write waits, and nothing that happened in the tick is remembered. -/
def Quiet (d : Dev) : Prop :=
  (∀ w ∈ d.regs.waiting, w.cls ≠ Class.tick.num) ∧ d.regs.hot = [] ∧ d.regs.cleared = [] ∧ d.mem.escalated = [] ∧ d.log.moved = 0 ∧ d.adm.decided = 0 ∧
  d.pair.inputs = [] ∧ d.pair.acked = false ∧ d.host.took = [] ∧ d.host.doneNow = [] ∧ d.shl.stirred = [] ∧ d.shl.issued = []

end Sys2Proof

/-- What reads show is the end of a tick, after every step: in it every TICK-class write is in force, which R63 puts at the boundary that ends
the tick, and it holds nothing of a tick that is under way (R11, R63, R500). -/
def Obligations.ReadsShowTheEndOfATick : Prop :=
  ∀ s t, Quiet s.prev → step s = .next t → Quiet t.prev

/-- After reset what reads show holds nothing of a tick that is under way (R500). -/
def Obligations.QuietAtReset : Prop := Quiet State.reset.prev

/-- The boundary of a class brings into force, for each field, the last of its waiting writes of that class, and leaves the other fields in
force, every last value, and the writes of other classes as they were (R10, R11, R12). -/
def Obligations.WritesTakeEffect : Prop :=
  ∀ (d : Dev) c (f : Fld), (∀ w ∈ d.regs.waiting, w.key = f.key → w.rst = f.rst) →
    (d.commit c).inF f = (((d.regs.waiting.filter fun w => w.cls == c.num && w.key == f.key).getLast?).map (·.val)).getD (d.inF f) ∧
    (d.commit c).rd f = d.rd f ∧ (d.commit c).regs.waiting = d.regs.waiting.filter (fun w => w.cls != c.num) ∧
    d.commit c = { d with regs := { d.regs with force := (d.commit c).regs.force, waiting := (d.commit c).regs.waiting } }

/-- The inputs of one tick are applied in the order of their ranks, within rank 3 slot boundary, epoch boundary, forced step, gate transitions and
then measurements, then in the order of their sources, and for a shoal of its threads; none is lost or made, and the arrivals of one source keep their order (R60, R61, R62). -/
def Obligations.TickOrder : Prop :=
  ∀ (d : Dev) (l : List Instr), (presentTick d l).Perm l ∧
    (presentTick d l).Pairwise (fun a b =>
      rankOf d a < rankOf d b ∨ (rankOf d a = rankOf d b ∧ (timeOrder d a < timeOrder d b ∨ (timeOrder d a = timeOrder d b ∧
        ((sourceOf a).1 < (sourceOf b).1 ∨ ((sourceOf a).1 = (sourceOf b).1 ∧ (sourceOf a).2 ≤ (sourceOf b).2)))))) ∧
    ∀ n m, (presentTick d l).filter (fun a => sourceOf a == (n, m) && rankOf d a == 6) =
      l.filter (fun a => sourceOf a == (n, m) && rankOf d a == 6)

/-- From one tick to the next Tide time advances by 8 ns, across the step tick by the step amount as well, or is the time that was loaded; across
the step tick the times of work admitted before the hold move with it, and it is REBASED, and work of the hold keeps its times; no two ticks of
15 or 17 clocks lie within 313 ticks; the slot boundary lies at multiples of 256 ns and the epoch boundary at multiples of 2^22 ns (R42, R43, R52, R54). -/
def Obligations.TickBoundaries : Prop :=
  ∀ (d : Dev) was, let e := d.advanceTime was
    (d.clk.load = none → d.clk.stepTick = false → e.clk.tide = d.clk.tide + 8) ∧
    (d.clk.load = none → d.clk.stepTick = true → 0 ≤ (d.clk.tide : Int) + 8 + d.clk.stepAdd →
      (e.clk.tide : Int) = d.clk.tide + 8 + d.clk.stepAdd) ∧
    (d.clk.load = none → d.clk.stepTick = true → ∀ o ∈ d.ops, ∃ q ∈ e.ops, q.req.id = o.req.id ∧
      (o.admitted < d.servo.holdFrom → (q.admitted : Int) = Max.max 0 (o.admitted + d.clk.stepAdd) ∧
        (o.slack = false → (q.promise : Int) = Max.max 0 (o.promise + d.clk.stepAdd)) ∧
        (q.rebased = true ↔ o.rebased = true ∨ d.clk.stepAdd ≠ 0)) ∧
      (d.servo.holdFrom ≤ o.admitted → q.admitted = o.admitted ∧ q.promise = o.promise ∧ q.rebased = o.rebased)) ∧
    (d.clk.load = none → d.clk.stepTick = false → e.ops = d.ops) ∧
    (e.clk.clocks = 15 ∨ e.clk.clocks = 16 ∨ e.clk.clocks = 17) ∧ (e.clk.clocks ≠ 16 → 312 ≤ d.clk.sinceFix ∧ e.clk.sinceFix = 0) ∧
    (∀ v, d.clk.load = some v → e.clk.tide = v) ∧ e.clk.stepTick = false ∧ e.clk.load = none ∧ e.clk.tick = d.clk.tick + 1 ∧
    (e.clk.slotDue = true ↔ e.clk.tide % 256 = 0) ∧ (e.clk.epochDue = true ↔ e.clk.tide % 2 ^ 22 = 0) ∧
    (e.clk.slotSeq = if was = true ∧ e.clk.tide % 256 = 0 then d.clk.slotSeq + 1 else d.clk.slotSeq) ∧
    e.regs = d.regs ∧ e.mem = d.mem ∧ e.shl.threads = d.shl.threads

/-- Decoding an encoded Limoon instruction gives it back, with its guard and every field at every value; and a word that decodes is the encoding
of what it decodes to, so that no instruction has two words (Tables 7.1 to 7.7, 8.1 to 8.7). -/
def Obligations.DecodeAndEncodeAgree : Prop :=
  (∀ n p op, limEncodes op = true → limoonDecode (limoonEncode n p op) = some (n, p, op) ∧ limoonEncode n p op < 2 ^ 32) ∧
  ∀ w n p op, w < 2 ^ 32 → limoonDecode w = some (n, p, op) → limEncodes op = true ∧ limoonEncode n p op = w

/-- Words that the spec writes out decode to the instructions they stand for (chapters 07 and 08). -/
def Obligations.WordsDecode : Prop :=
  limoonDecode 0x020A0300 = some (false, 0, .lim 5 0x300) ∧ limoonDecode 0x024A00C0 = some (false, 0, .shi 5 0xC0) ∧
  limoonDecode 0x008C0001 = some (false, 0, .imm .add 6 0 1) ∧ limoonDecode 0x078E530A = some (false, 0, .atom .swp true 1 7 5 6) ∧
  limoonDecode 0x02C93800 = some (false, 0, .cmpi .ne 1 7 0) ∧ limoonDecode 0x183FFFFE = some (false, 1, .br 0x3FFFFE) ∧
  limoonDecode 0x0C103223 = some (false, 0, .chGet 2 8 3 4) ∧ limoonDecode 0x0C4042B0 = some (false, 0, .dlchk 3 4 5) ∧
  limoonDecode 0x0C98D000 = some (false, 0, .pwOpen false 12 13) ∧ limoonDecode 0x0CD2A580 = some (false, 0, .eng .book 9 10 11) ∧
  limoonDecode 0xA83FFFFF = some (true, 2, .br 0x3FFFFF)
end

