-- ==== Sys2Proof/Laws/State.lean ====
section
/-! SUPPORT. For each operation over the device and each part of the device that it leaves alone: the part after it is the part before
it. With these no proof unfolds a record update. -/

namespace Sys2Proof.Machine

open Sys2Proof

/-! put -/

@[simp] theorem Dev.put_free (d : Dev) (f : Fld) (v : Nat) : (d.put f v).free = d.free := rfl
@[simp] theorem Dev.put_mem (d : Dev) (f : Fld) (v : Nat) : (d.put f v).mem = d.mem := rfl
@[simp] theorem Dev.put_boot (d : Dev) (f : Fld) (v : Nat) : (d.put f v).boot = d.boot := rfl
@[simp] theorem Dev.put_mon (d : Dev) (f : Fld) (v : Nat) : (d.put f v).mon = d.mon := rfl
@[simp] theorem Dev.put_clk (d : Dev) (f : Fld) (v : Nat) : (d.put f v).clk = d.clk := rfl
@[simp] theorem Dev.put_servo (d : Dev) (f : Fld) (v : Nat) : (d.put f v).servo = d.servo := rfl
@[simp] theorem Dev.put_log (d : Dev) (f : Fld) (v : Nat) : (d.put f v).log = d.log := rfl
@[simp] theorem Dev.put_adm (d : Dev) (f : Fld) (v : Nat) : (d.put f v).adm = d.adm := rfl
@[simp] theorem Dev.put_pair (d : Dev) (f : Fld) (v : Nat) : (d.put f v).pair = d.pair := rfl
@[simp] theorem Dev.put_cal (d : Dev) (f : Fld) (v : Nat) : (d.put f v).cal = d.cal := rfl
@[simp] theorem Dev.put_ops (d : Dev) (f : Fld) (v : Nat) : (d.put f v).ops = d.ops := rfl
@[simp] theorem Dev.put_nextOp (d : Dev) (f : Fld) (v : Nat) : (d.put f v).nextOp = d.nextOp := rfl
@[simp] theorem Dev.put_chans (d : Dev) (f : Fld) (v : Nat) : (d.put f v).chans = d.chans := rfl
@[simp] theorem Dev.put_engOut (d : Dev) (f : Fld) (v : Nat) : (d.put f v).engOut = d.engOut := rfl
@[simp] theorem Dev.put_host (d : Dev) (f : Fld) (v : Nat) : (d.put f v).host = d.host := rfl
@[simp] theorem Dev.put_cry (d : Dev) (f : Fld) (v : Nat) : (d.put f v).cry = d.cry := rfl
@[simp] theorem Dev.put_reef (d : Dev) (f : Fld) (v : Nat) : (d.put f v).reef = d.reef := rfl
@[simp] theorem Dev.put_net (d : Dev) (f : Fld) (v : Nat) : (d.put f v).net = d.net := rfl
@[simp] theorem Dev.put_sw (d : Dev) (f : Fld) (v : Nat) : (d.put f v).sw = d.sw := rfl
@[simp] theorem Dev.put_shl (d : Dev) (f : Fld) (v : Nat) : (d.put f v).shl = d.shl := rfl
@[simp] theorem Dev.put_out (d : Dev) (f : Fld) (v : Nat) : (d.put f v).out = d.out := rfl

/-! putBit -/

@[simp] theorem Dev.putBit_free (d : Dev) (f : Fld) (b : Bool) : (d.putBit f b).free = d.free := rfl
@[simp] theorem Dev.putBit_mem (d : Dev) (f : Fld) (b : Bool) : (d.putBit f b).mem = d.mem := rfl
@[simp] theorem Dev.putBit_boot (d : Dev) (f : Fld) (b : Bool) : (d.putBit f b).boot = d.boot := rfl
@[simp] theorem Dev.putBit_mon (d : Dev) (f : Fld) (b : Bool) : (d.putBit f b).mon = d.mon := rfl
@[simp] theorem Dev.putBit_clk (d : Dev) (f : Fld) (b : Bool) : (d.putBit f b).clk = d.clk := rfl
@[simp] theorem Dev.putBit_servo (d : Dev) (f : Fld) (b : Bool) : (d.putBit f b).servo = d.servo := rfl
@[simp] theorem Dev.putBit_log (d : Dev) (f : Fld) (b : Bool) : (d.putBit f b).log = d.log := rfl
@[simp] theorem Dev.putBit_adm (d : Dev) (f : Fld) (b : Bool) : (d.putBit f b).adm = d.adm := rfl
@[simp] theorem Dev.putBit_pair (d : Dev) (f : Fld) (b : Bool) : (d.putBit f b).pair = d.pair := rfl
@[simp] theorem Dev.putBit_cal (d : Dev) (f : Fld) (b : Bool) : (d.putBit f b).cal = d.cal := rfl
@[simp] theorem Dev.putBit_ops (d : Dev) (f : Fld) (b : Bool) : (d.putBit f b).ops = d.ops := rfl
@[simp] theorem Dev.putBit_nextOp (d : Dev) (f : Fld) (b : Bool) : (d.putBit f b).nextOp = d.nextOp := rfl
@[simp] theorem Dev.putBit_chans (d : Dev) (f : Fld) (b : Bool) : (d.putBit f b).chans = d.chans := rfl
@[simp] theorem Dev.putBit_engOut (d : Dev) (f : Fld) (b : Bool) : (d.putBit f b).engOut = d.engOut := rfl
@[simp] theorem Dev.putBit_host (d : Dev) (f : Fld) (b : Bool) : (d.putBit f b).host = d.host := rfl
@[simp] theorem Dev.putBit_cry (d : Dev) (f : Fld) (b : Bool) : (d.putBit f b).cry = d.cry := rfl
@[simp] theorem Dev.putBit_reef (d : Dev) (f : Fld) (b : Bool) : (d.putBit f b).reef = d.reef := rfl
@[simp] theorem Dev.putBit_net (d : Dev) (f : Fld) (b : Bool) : (d.putBit f b).net = d.net := rfl
@[simp] theorem Dev.putBit_sw (d : Dev) (f : Fld) (b : Bool) : (d.putBit f b).sw = d.sw := rfl
@[simp] theorem Dev.putBit_shl (d : Dev) (f : Fld) (b : Bool) : (d.putBit f b).shl = d.shl := rfl
@[simp] theorem Dev.putBit_out (d : Dev) (f : Fld) (b : Bool) : (d.putBit f b).out = d.out := rfl

/-! store -/

@[simp] theorem Dev.store_free (d : Dev) (f : Fld) (v : Nat) : (d.store f v).free = d.free := rfl
@[simp] theorem Dev.store_mem (d : Dev) (f : Fld) (v : Nat) : (d.store f v).mem = d.mem := rfl
@[simp] theorem Dev.store_boot (d : Dev) (f : Fld) (v : Nat) : (d.store f v).boot = d.boot := rfl
@[simp] theorem Dev.store_mon (d : Dev) (f : Fld) (v : Nat) : (d.store f v).mon = d.mon := rfl
@[simp] theorem Dev.store_clk (d : Dev) (f : Fld) (v : Nat) : (d.store f v).clk = d.clk := rfl
@[simp] theorem Dev.store_servo (d : Dev) (f : Fld) (v : Nat) : (d.store f v).servo = d.servo := rfl
@[simp] theorem Dev.store_log (d : Dev) (f : Fld) (v : Nat) : (d.store f v).log = d.log := rfl
@[simp] theorem Dev.store_adm (d : Dev) (f : Fld) (v : Nat) : (d.store f v).adm = d.adm := rfl
@[simp] theorem Dev.store_pair (d : Dev) (f : Fld) (v : Nat) : (d.store f v).pair = d.pair := rfl
@[simp] theorem Dev.store_cal (d : Dev) (f : Fld) (v : Nat) : (d.store f v).cal = d.cal := rfl
@[simp] theorem Dev.store_ops (d : Dev) (f : Fld) (v : Nat) : (d.store f v).ops = d.ops := rfl
@[simp] theorem Dev.store_nextOp (d : Dev) (f : Fld) (v : Nat) : (d.store f v).nextOp = d.nextOp := rfl
@[simp] theorem Dev.store_chans (d : Dev) (f : Fld) (v : Nat) : (d.store f v).chans = d.chans := rfl
@[simp] theorem Dev.store_engOut (d : Dev) (f : Fld) (v : Nat) : (d.store f v).engOut = d.engOut := rfl
@[simp] theorem Dev.store_host (d : Dev) (f : Fld) (v : Nat) : (d.store f v).host = d.host := rfl
@[simp] theorem Dev.store_cry (d : Dev) (f : Fld) (v : Nat) : (d.store f v).cry = d.cry := rfl
@[simp] theorem Dev.store_reef (d : Dev) (f : Fld) (v : Nat) : (d.store f v).reef = d.reef := rfl
@[simp] theorem Dev.store_net (d : Dev) (f : Fld) (v : Nat) : (d.store f v).net = d.net := rfl
@[simp] theorem Dev.store_sw (d : Dev) (f : Fld) (v : Nat) : (d.store f v).sw = d.sw := rfl
@[simp] theorem Dev.store_shl (d : Dev) (f : Fld) (v : Nat) : (d.store f v).shl = d.shl := rfl
@[simp] theorem Dev.store_out (d : Dev) (f : Fld) (v : Nat) : (d.store f v).out = d.out := rfl

/-! commit -/

@[simp] theorem Dev.commit_free (d : Dev) (c : Class) : (d.commit c).free = d.free := rfl
@[simp] theorem Dev.commit_mem (d : Dev) (c : Class) : (d.commit c).mem = d.mem := rfl
@[simp] theorem Dev.commit_boot (d : Dev) (c : Class) : (d.commit c).boot = d.boot := rfl
@[simp] theorem Dev.commit_mon (d : Dev) (c : Class) : (d.commit c).mon = d.mon := rfl
@[simp] theorem Dev.commit_clk (d : Dev) (c : Class) : (d.commit c).clk = d.clk := rfl
@[simp] theorem Dev.commit_servo (d : Dev) (c : Class) : (d.commit c).servo = d.servo := rfl
@[simp] theorem Dev.commit_log (d : Dev) (c : Class) : (d.commit c).log = d.log := rfl
@[simp] theorem Dev.commit_adm (d : Dev) (c : Class) : (d.commit c).adm = d.adm := rfl
@[simp] theorem Dev.commit_pair (d : Dev) (c : Class) : (d.commit c).pair = d.pair := rfl
@[simp] theorem Dev.commit_cal (d : Dev) (c : Class) : (d.commit c).cal = d.cal := rfl
@[simp] theorem Dev.commit_ops (d : Dev) (c : Class) : (d.commit c).ops = d.ops := rfl
@[simp] theorem Dev.commit_nextOp (d : Dev) (c : Class) : (d.commit c).nextOp = d.nextOp := rfl
@[simp] theorem Dev.commit_chans (d : Dev) (c : Class) : (d.commit c).chans = d.chans := rfl
@[simp] theorem Dev.commit_engOut (d : Dev) (c : Class) : (d.commit c).engOut = d.engOut := rfl
@[simp] theorem Dev.commit_host (d : Dev) (c : Class) : (d.commit c).host = d.host := rfl
@[simp] theorem Dev.commit_cry (d : Dev) (c : Class) : (d.commit c).cry = d.cry := rfl
@[simp] theorem Dev.commit_reef (d : Dev) (c : Class) : (d.commit c).reef = d.reef := rfl
@[simp] theorem Dev.commit_net (d : Dev) (c : Class) : (d.commit c).net = d.net := rfl
@[simp] theorem Dev.commit_sw (d : Dev) (c : Class) : (d.commit c).sw = d.sw := rfl
@[simp] theorem Dev.commit_shl (d : Dev) (c : Class) : (d.commit c).shl = d.shl := rfl
@[simp] theorem Dev.commit_out (d : Dev) (c : Class) : (d.commit c).out = d.out := rfl

/-! later -/

@[simp] theorem Dev.later_free (d : Dev) (f : Fld) (v : Nat) : (d.later f v).free = d.free := rfl
@[simp] theorem Dev.later_mem (d : Dev) (f : Fld) (v : Nat) : (d.later f v).mem = d.mem := rfl
@[simp] theorem Dev.later_boot (d : Dev) (f : Fld) (v : Nat) : (d.later f v).boot = d.boot := rfl
@[simp] theorem Dev.later_mon (d : Dev) (f : Fld) (v : Nat) : (d.later f v).mon = d.mon := rfl
@[simp] theorem Dev.later_clk (d : Dev) (f : Fld) (v : Nat) : (d.later f v).clk = d.clk := rfl
@[simp] theorem Dev.later_servo (d : Dev) (f : Fld) (v : Nat) : (d.later f v).servo = d.servo := rfl
@[simp] theorem Dev.later_log (d : Dev) (f : Fld) (v : Nat) : (d.later f v).log = d.log := rfl
@[simp] theorem Dev.later_adm (d : Dev) (f : Fld) (v : Nat) : (d.later f v).adm = d.adm := rfl
@[simp] theorem Dev.later_pair (d : Dev) (f : Fld) (v : Nat) : (d.later f v).pair = d.pair := rfl
@[simp] theorem Dev.later_cal (d : Dev) (f : Fld) (v : Nat) : (d.later f v).cal = d.cal := rfl
@[simp] theorem Dev.later_ops (d : Dev) (f : Fld) (v : Nat) : (d.later f v).ops = d.ops := rfl
@[simp] theorem Dev.later_nextOp (d : Dev) (f : Fld) (v : Nat) : (d.later f v).nextOp = d.nextOp := rfl
@[simp] theorem Dev.later_chans (d : Dev) (f : Fld) (v : Nat) : (d.later f v).chans = d.chans := rfl
@[simp] theorem Dev.later_engOut (d : Dev) (f : Fld) (v : Nat) : (d.later f v).engOut = d.engOut := rfl
@[simp] theorem Dev.later_host (d : Dev) (f : Fld) (v : Nat) : (d.later f v).host = d.host := rfl
@[simp] theorem Dev.later_cry (d : Dev) (f : Fld) (v : Nat) : (d.later f v).cry = d.cry := rfl
@[simp] theorem Dev.later_reef (d : Dev) (f : Fld) (v : Nat) : (d.later f v).reef = d.reef := rfl
@[simp] theorem Dev.later_net (d : Dev) (f : Fld) (v : Nat) : (d.later f v).net = d.net := rfl
@[simp] theorem Dev.later_sw (d : Dev) (f : Fld) (v : Nat) : (d.later f v).sw = d.sw := rfl
@[simp] theorem Dev.later_shl (d : Dev) (f : Fld) (v : Nat) : (d.later f v).shl = d.shl := rfl
@[simp] theorem Dev.later_out (d : Dev) (f : Fld) (v : Nat) : (d.later f v).out = d.out := rfl

/-! putNow -/

@[simp] theorem Dev.putNow_free (d : Dev) (f : Fld) (v : Nat) : (d.putNow f v).free = d.free := rfl
@[simp] theorem Dev.putNow_mem (d : Dev) (f : Fld) (v : Nat) : (d.putNow f v).mem = d.mem := rfl
@[simp] theorem Dev.putNow_boot (d : Dev) (f : Fld) (v : Nat) : (d.putNow f v).boot = d.boot := rfl
@[simp] theorem Dev.putNow_mon (d : Dev) (f : Fld) (v : Nat) : (d.putNow f v).mon = d.mon := rfl
@[simp] theorem Dev.putNow_clk (d : Dev) (f : Fld) (v : Nat) : (d.putNow f v).clk = d.clk := rfl
@[simp] theorem Dev.putNow_servo (d : Dev) (f : Fld) (v : Nat) : (d.putNow f v).servo = d.servo := rfl
@[simp] theorem Dev.putNow_log (d : Dev) (f : Fld) (v : Nat) : (d.putNow f v).log = d.log := rfl
@[simp] theorem Dev.putNow_adm (d : Dev) (f : Fld) (v : Nat) : (d.putNow f v).adm = d.adm := rfl
@[simp] theorem Dev.putNow_pair (d : Dev) (f : Fld) (v : Nat) : (d.putNow f v).pair = d.pair := rfl
@[simp] theorem Dev.putNow_cal (d : Dev) (f : Fld) (v : Nat) : (d.putNow f v).cal = d.cal := rfl
@[simp] theorem Dev.putNow_ops (d : Dev) (f : Fld) (v : Nat) : (d.putNow f v).ops = d.ops := rfl
@[simp] theorem Dev.putNow_nextOp (d : Dev) (f : Fld) (v : Nat) : (d.putNow f v).nextOp = d.nextOp := rfl
@[simp] theorem Dev.putNow_chans (d : Dev) (f : Fld) (v : Nat) : (d.putNow f v).chans = d.chans := rfl
@[simp] theorem Dev.putNow_engOut (d : Dev) (f : Fld) (v : Nat) : (d.putNow f v).engOut = d.engOut := rfl
@[simp] theorem Dev.putNow_host (d : Dev) (f : Fld) (v : Nat) : (d.putNow f v).host = d.host := rfl
@[simp] theorem Dev.putNow_cry (d : Dev) (f : Fld) (v : Nat) : (d.putNow f v).cry = d.cry := rfl
@[simp] theorem Dev.putNow_reef (d : Dev) (f : Fld) (v : Nat) : (d.putNow f v).reef = d.reef := rfl
@[simp] theorem Dev.putNow_net (d : Dev) (f : Fld) (v : Nat) : (d.putNow f v).net = d.net := rfl
@[simp] theorem Dev.putNow_sw (d : Dev) (f : Fld) (v : Nat) : (d.putNow f v).sw = d.sw := rfl
@[simp] theorem Dev.putNow_shl (d : Dev) (f : Fld) (v : Nat) : (d.putNow f v).shl = d.shl := rfl
@[simp] theorem Dev.putNow_out (d : Dev) (f : Fld) (v : Nat) : (d.putNow f v).out = d.out := rfl

/-! bump -/

@[simp] theorem Dev.bump_free (d : Dev) (f : Fld) (n : Nat) : (d.bump f n).free = d.free := rfl
@[simp] theorem Dev.bump_mem (d : Dev) (f : Fld) (n : Nat) : (d.bump f n).mem = d.mem := rfl
@[simp] theorem Dev.bump_boot (d : Dev) (f : Fld) (n : Nat) : (d.bump f n).boot = d.boot := rfl
@[simp] theorem Dev.bump_mon (d : Dev) (f : Fld) (n : Nat) : (d.bump f n).mon = d.mon := rfl
@[simp] theorem Dev.bump_clk (d : Dev) (f : Fld) (n : Nat) : (d.bump f n).clk = d.clk := rfl
@[simp] theorem Dev.bump_servo (d : Dev) (f : Fld) (n : Nat) : (d.bump f n).servo = d.servo := rfl
@[simp] theorem Dev.bump_log (d : Dev) (f : Fld) (n : Nat) : (d.bump f n).log = d.log := rfl
@[simp] theorem Dev.bump_adm (d : Dev) (f : Fld) (n : Nat) : (d.bump f n).adm = d.adm := rfl
@[simp] theorem Dev.bump_pair (d : Dev) (f : Fld) (n : Nat) : (d.bump f n).pair = d.pair := rfl
@[simp] theorem Dev.bump_cal (d : Dev) (f : Fld) (n : Nat) : (d.bump f n).cal = d.cal := rfl
@[simp] theorem Dev.bump_ops (d : Dev) (f : Fld) (n : Nat) : (d.bump f n).ops = d.ops := rfl
@[simp] theorem Dev.bump_nextOp (d : Dev) (f : Fld) (n : Nat) : (d.bump f n).nextOp = d.nextOp := rfl
@[simp] theorem Dev.bump_chans (d : Dev) (f : Fld) (n : Nat) : (d.bump f n).chans = d.chans := rfl
@[simp] theorem Dev.bump_engOut (d : Dev) (f : Fld) (n : Nat) : (d.bump f n).engOut = d.engOut := rfl
@[simp] theorem Dev.bump_host (d : Dev) (f : Fld) (n : Nat) : (d.bump f n).host = d.host := rfl
@[simp] theorem Dev.bump_cry (d : Dev) (f : Fld) (n : Nat) : (d.bump f n).cry = d.cry := rfl
@[simp] theorem Dev.bump_reef (d : Dev) (f : Fld) (n : Nat) : (d.bump f n).reef = d.reef := rfl
@[simp] theorem Dev.bump_net (d : Dev) (f : Fld) (n : Nat) : (d.bump f n).net = d.net := rfl
@[simp] theorem Dev.bump_sw (d : Dev) (f : Fld) (n : Nat) : (d.bump f n).sw = d.sw := rfl
@[simp] theorem Dev.bump_shl (d : Dev) (f : Fld) (n : Nat) : (d.bump f n).shl = d.shl := rfl
@[simp] theorem Dev.bump_out (d : Dev) (f : Fld) (n : Nat) : (d.bump f n).out = d.out := rfl

/-! raise -/

@[simp] theorem Dev.raise_free (d : Dev) (f : Fld) (n : Nat) : (d.raise f n).free = d.free := rfl
@[simp] theorem Dev.raise_mem (d : Dev) (f : Fld) (n : Nat) : (d.raise f n).mem = d.mem := rfl
@[simp] theorem Dev.raise_boot (d : Dev) (f : Fld) (n : Nat) : (d.raise f n).boot = d.boot := rfl
@[simp] theorem Dev.raise_mon (d : Dev) (f : Fld) (n : Nat) : (d.raise f n).mon = d.mon := rfl
@[simp] theorem Dev.raise_clk (d : Dev) (f : Fld) (n : Nat) : (d.raise f n).clk = d.clk := rfl
@[simp] theorem Dev.raise_servo (d : Dev) (f : Fld) (n : Nat) : (d.raise f n).servo = d.servo := rfl
@[simp] theorem Dev.raise_log (d : Dev) (f : Fld) (n : Nat) : (d.raise f n).log = d.log := rfl
@[simp] theorem Dev.raise_adm (d : Dev) (f : Fld) (n : Nat) : (d.raise f n).adm = d.adm := rfl
@[simp] theorem Dev.raise_pair (d : Dev) (f : Fld) (n : Nat) : (d.raise f n).pair = d.pair := rfl
@[simp] theorem Dev.raise_cal (d : Dev) (f : Fld) (n : Nat) : (d.raise f n).cal = d.cal := rfl
@[simp] theorem Dev.raise_ops (d : Dev) (f : Fld) (n : Nat) : (d.raise f n).ops = d.ops := rfl
@[simp] theorem Dev.raise_nextOp (d : Dev) (f : Fld) (n : Nat) : (d.raise f n).nextOp = d.nextOp := rfl
@[simp] theorem Dev.raise_chans (d : Dev) (f : Fld) (n : Nat) : (d.raise f n).chans = d.chans := rfl
@[simp] theorem Dev.raise_engOut (d : Dev) (f : Fld) (n : Nat) : (d.raise f n).engOut = d.engOut := rfl
@[simp] theorem Dev.raise_host (d : Dev) (f : Fld) (n : Nat) : (d.raise f n).host = d.host := rfl
@[simp] theorem Dev.raise_cry (d : Dev) (f : Fld) (n : Nat) : (d.raise f n).cry = d.cry := rfl
@[simp] theorem Dev.raise_reef (d : Dev) (f : Fld) (n : Nat) : (d.raise f n).reef = d.reef := rfl
@[simp] theorem Dev.raise_net (d : Dev) (f : Fld) (n : Nat) : (d.raise f n).net = d.net := rfl
@[simp] theorem Dev.raise_sw (d : Dev) (f : Fld) (n : Nat) : (d.raise f n).sw = d.sw := rfl
@[simp] theorem Dev.raise_shl (d : Dev) (f : Fld) (n : Nat) : (d.raise f n).shl = d.shl := rfl
@[simp] theorem Dev.raise_out (d : Dev) (f : Fld) (n : Nat) : (d.raise f n).out = d.out := rfl

/-! peak -/

@[simp] theorem Dev.peak_free (d : Dev) (f : Fld) (v : Nat) : (d.peak f v).free = d.free := rfl
@[simp] theorem Dev.peak_mem (d : Dev) (f : Fld) (v : Nat) : (d.peak f v).mem = d.mem := rfl
@[simp] theorem Dev.peak_boot (d : Dev) (f : Fld) (v : Nat) : (d.peak f v).boot = d.boot := rfl
@[simp] theorem Dev.peak_mon (d : Dev) (f : Fld) (v : Nat) : (d.peak f v).mon = d.mon := rfl
@[simp] theorem Dev.peak_clk (d : Dev) (f : Fld) (v : Nat) : (d.peak f v).clk = d.clk := rfl
@[simp] theorem Dev.peak_servo (d : Dev) (f : Fld) (v : Nat) : (d.peak f v).servo = d.servo := rfl
@[simp] theorem Dev.peak_log (d : Dev) (f : Fld) (v : Nat) : (d.peak f v).log = d.log := rfl
@[simp] theorem Dev.peak_adm (d : Dev) (f : Fld) (v : Nat) : (d.peak f v).adm = d.adm := rfl
@[simp] theorem Dev.peak_pair (d : Dev) (f : Fld) (v : Nat) : (d.peak f v).pair = d.pair := rfl
@[simp] theorem Dev.peak_cal (d : Dev) (f : Fld) (v : Nat) : (d.peak f v).cal = d.cal := rfl
@[simp] theorem Dev.peak_ops (d : Dev) (f : Fld) (v : Nat) : (d.peak f v).ops = d.ops := rfl
@[simp] theorem Dev.peak_nextOp (d : Dev) (f : Fld) (v : Nat) : (d.peak f v).nextOp = d.nextOp := rfl
@[simp] theorem Dev.peak_chans (d : Dev) (f : Fld) (v : Nat) : (d.peak f v).chans = d.chans := rfl
@[simp] theorem Dev.peak_engOut (d : Dev) (f : Fld) (v : Nat) : (d.peak f v).engOut = d.engOut := rfl
@[simp] theorem Dev.peak_host (d : Dev) (f : Fld) (v : Nat) : (d.peak f v).host = d.host := rfl
@[simp] theorem Dev.peak_cry (d : Dev) (f : Fld) (v : Nat) : (d.peak f v).cry = d.cry := rfl
@[simp] theorem Dev.peak_reef (d : Dev) (f : Fld) (v : Nat) : (d.peak f v).reef = d.reef := rfl
@[simp] theorem Dev.peak_net (d : Dev) (f : Fld) (v : Nat) : (d.peak f v).net = d.net := rfl
@[simp] theorem Dev.peak_sw (d : Dev) (f : Fld) (v : Nat) : (d.peak f v).sw = d.sw := rfl
@[simp] theorem Dev.peak_shl (d : Dev) (f : Fld) (v : Nat) : (d.peak f v).shl = d.shl := rfl
@[simp] theorem Dev.peak_out (d : Dev) (f : Fld) (v : Nat) : (d.peak f v).out = d.out := rfl

/-! clearCount -/

@[simp] theorem Dev.clearCount_free (d : Dev) (f : Fld) : (d.clearCount f).free = d.free := rfl
@[simp] theorem Dev.clearCount_mem (d : Dev) (f : Fld) : (d.clearCount f).mem = d.mem := rfl
@[simp] theorem Dev.clearCount_boot (d : Dev) (f : Fld) : (d.clearCount f).boot = d.boot := rfl
@[simp] theorem Dev.clearCount_mon (d : Dev) (f : Fld) : (d.clearCount f).mon = d.mon := rfl
@[simp] theorem Dev.clearCount_clk (d : Dev) (f : Fld) : (d.clearCount f).clk = d.clk := rfl
@[simp] theorem Dev.clearCount_servo (d : Dev) (f : Fld) : (d.clearCount f).servo = d.servo := rfl
@[simp] theorem Dev.clearCount_log (d : Dev) (f : Fld) : (d.clearCount f).log = d.log := rfl
@[simp] theorem Dev.clearCount_adm (d : Dev) (f : Fld) : (d.clearCount f).adm = d.adm := rfl
@[simp] theorem Dev.clearCount_pair (d : Dev) (f : Fld) : (d.clearCount f).pair = d.pair := rfl
@[simp] theorem Dev.clearCount_cal (d : Dev) (f : Fld) : (d.clearCount f).cal = d.cal := rfl
@[simp] theorem Dev.clearCount_ops (d : Dev) (f : Fld) : (d.clearCount f).ops = d.ops := rfl
@[simp] theorem Dev.clearCount_nextOp (d : Dev) (f : Fld) : (d.clearCount f).nextOp = d.nextOp := rfl
@[simp] theorem Dev.clearCount_chans (d : Dev) (f : Fld) : (d.clearCount f).chans = d.chans := rfl
@[simp] theorem Dev.clearCount_engOut (d : Dev) (f : Fld) : (d.clearCount f).engOut = d.engOut := rfl
@[simp] theorem Dev.clearCount_host (d : Dev) (f : Fld) : (d.clearCount f).host = d.host := rfl
@[simp] theorem Dev.clearCount_cry (d : Dev) (f : Fld) : (d.clearCount f).cry = d.cry := rfl
@[simp] theorem Dev.clearCount_reef (d : Dev) (f : Fld) : (d.clearCount f).reef = d.reef := rfl
@[simp] theorem Dev.clearCount_net (d : Dev) (f : Fld) : (d.clearCount f).net = d.net := rfl
@[simp] theorem Dev.clearCount_sw (d : Dev) (f : Fld) : (d.clearCount f).sw = d.sw := rfl
@[simp] theorem Dev.clearCount_shl (d : Dev) (f : Fld) : (d.clearCount f).shl = d.shl := rfl
@[simp] theorem Dev.clearCount_out (d : Dev) (f : Fld) : (d.clearCount f).out = d.out := rfl

/-! clearBits -/

@[simp] theorem Dev.clearBits_free (d : Dev) (f : Fld) (n : Nat) : (d.clearBits f n).free = d.free := rfl
@[simp] theorem Dev.clearBits_mem (d : Dev) (f : Fld) (n : Nat) : (d.clearBits f n).mem = d.mem := rfl
@[simp] theorem Dev.clearBits_boot (d : Dev) (f : Fld) (n : Nat) : (d.clearBits f n).boot = d.boot := rfl
@[simp] theorem Dev.clearBits_mon (d : Dev) (f : Fld) (n : Nat) : (d.clearBits f n).mon = d.mon := rfl
@[simp] theorem Dev.clearBits_clk (d : Dev) (f : Fld) (n : Nat) : (d.clearBits f n).clk = d.clk := rfl
@[simp] theorem Dev.clearBits_servo (d : Dev) (f : Fld) (n : Nat) : (d.clearBits f n).servo = d.servo := rfl
@[simp] theorem Dev.clearBits_log (d : Dev) (f : Fld) (n : Nat) : (d.clearBits f n).log = d.log := rfl
@[simp] theorem Dev.clearBits_adm (d : Dev) (f : Fld) (n : Nat) : (d.clearBits f n).adm = d.adm := rfl
@[simp] theorem Dev.clearBits_pair (d : Dev) (f : Fld) (n : Nat) : (d.clearBits f n).pair = d.pair := rfl
@[simp] theorem Dev.clearBits_cal (d : Dev) (f : Fld) (n : Nat) : (d.clearBits f n).cal = d.cal := rfl
@[simp] theorem Dev.clearBits_ops (d : Dev) (f : Fld) (n : Nat) : (d.clearBits f n).ops = d.ops := rfl
@[simp] theorem Dev.clearBits_nextOp (d : Dev) (f : Fld) (n : Nat) : (d.clearBits f n).nextOp = d.nextOp := rfl
@[simp] theorem Dev.clearBits_chans (d : Dev) (f : Fld) (n : Nat) : (d.clearBits f n).chans = d.chans := rfl
@[simp] theorem Dev.clearBits_engOut (d : Dev) (f : Fld) (n : Nat) : (d.clearBits f n).engOut = d.engOut := rfl
@[simp] theorem Dev.clearBits_host (d : Dev) (f : Fld) (n : Nat) : (d.clearBits f n).host = d.host := rfl
@[simp] theorem Dev.clearBits_cry (d : Dev) (f : Fld) (n : Nat) : (d.clearBits f n).cry = d.cry := rfl
@[simp] theorem Dev.clearBits_reef (d : Dev) (f : Fld) (n : Nat) : (d.clearBits f n).reef = d.reef := rfl
@[simp] theorem Dev.clearBits_net (d : Dev) (f : Fld) (n : Nat) : (d.clearBits f n).net = d.net := rfl
@[simp] theorem Dev.clearBits_sw (d : Dev) (f : Fld) (n : Nat) : (d.clearBits f n).sw = d.sw := rfl
@[simp] theorem Dev.clearBits_shl (d : Dev) (f : Fld) (n : Nat) : (d.clearBits f n).shl = d.shl := rfl
@[simp] theorem Dev.clearBits_out (d : Dev) (f : Fld) (n : Nat) : (d.clearBits f n).out = d.out := rfl

/-! report -/

@[simp] theorem Dev.report_free (d : Dev) (r : ErrRec) : (d.report r).free = d.free := rfl
@[simp] theorem Dev.report_mem (d : Dev) (r : ErrRec) : (d.report r).mem = d.mem := rfl
@[simp] theorem Dev.report_boot (d : Dev) (r : ErrRec) : (d.report r).boot = d.boot := rfl
@[simp] theorem Dev.report_mon (d : Dev) (r : ErrRec) : (d.report r).mon = d.mon := rfl
@[simp] theorem Dev.report_clk (d : Dev) (r : ErrRec) : (d.report r).clk = d.clk := rfl
@[simp] theorem Dev.report_servo (d : Dev) (r : ErrRec) : (d.report r).servo = d.servo := rfl
@[simp] theorem Dev.report_adm (d : Dev) (r : ErrRec) : (d.report r).adm = d.adm := rfl
@[simp] theorem Dev.report_pair (d : Dev) (r : ErrRec) : (d.report r).pair = d.pair := rfl
@[simp] theorem Dev.report_cal (d : Dev) (r : ErrRec) : (d.report r).cal = d.cal := rfl
@[simp] theorem Dev.report_ops (d : Dev) (r : ErrRec) : (d.report r).ops = d.ops := rfl
@[simp] theorem Dev.report_nextOp (d : Dev) (r : ErrRec) : (d.report r).nextOp = d.nextOp := rfl
@[simp] theorem Dev.report_chans (d : Dev) (r : ErrRec) : (d.report r).chans = d.chans := rfl
@[simp] theorem Dev.report_engOut (d : Dev) (r : ErrRec) : (d.report r).engOut = d.engOut := rfl
@[simp] theorem Dev.report_host (d : Dev) (r : ErrRec) : (d.report r).host = d.host := rfl
@[simp] theorem Dev.report_cry (d : Dev) (r : ErrRec) : (d.report r).cry = d.cry := rfl
@[simp] theorem Dev.report_reef (d : Dev) (r : ErrRec) : (d.report r).reef = d.reef := rfl
@[simp] theorem Dev.report_net (d : Dev) (r : ErrRec) : (d.report r).net = d.net := rfl
@[simp] theorem Dev.report_sw (d : Dev) (r : ErrRec) : (d.report r).sw = d.sw := rfl
@[simp] theorem Dev.report_shl (d : Dev) (r : ErrRec) : (d.report r).shl = d.shl := rfl
@[simp] theorem Dev.report_out (d : Dev) (r : ErrRec) : (d.report r).out = d.out := rfl

/-! fwDenied -/

@[simp] theorem Dev.fwDenied_free (d : Dev) (ag : Agent) (off : Nat) (w : Bool) : (d.fwDenied ag off w).free = d.free := by cases ag <;> rfl
@[simp] theorem Dev.fwDenied_mem (d : Dev) (ag : Agent) (off : Nat) (w : Bool) : (d.fwDenied ag off w).mem = d.mem := by cases ag <;> rfl
@[simp] theorem Dev.fwDenied_boot (d : Dev) (ag : Agent) (off : Nat) (w : Bool) : (d.fwDenied ag off w).boot = d.boot := by cases ag <;> rfl
@[simp] theorem Dev.fwDenied_mon (d : Dev) (ag : Agent) (off : Nat) (w : Bool) : (d.fwDenied ag off w).mon = d.mon := by cases ag <;> rfl
@[simp] theorem Dev.fwDenied_clk (d : Dev) (ag : Agent) (off : Nat) (w : Bool) : (d.fwDenied ag off w).clk = d.clk := by cases ag <;> rfl
@[simp] theorem Dev.fwDenied_servo (d : Dev) (ag : Agent) (off : Nat) (w : Bool) : (d.fwDenied ag off w).servo = d.servo := by cases ag <;> rfl
@[simp] theorem Dev.fwDenied_adm (d : Dev) (ag : Agent) (off : Nat) (w : Bool) : (d.fwDenied ag off w).adm = d.adm := by cases ag <;> rfl
@[simp] theorem Dev.fwDenied_pair (d : Dev) (ag : Agent) (off : Nat) (w : Bool) : (d.fwDenied ag off w).pair = d.pair := by cases ag <;> rfl
@[simp] theorem Dev.fwDenied_cal (d : Dev) (ag : Agent) (off : Nat) (w : Bool) : (d.fwDenied ag off w).cal = d.cal := by cases ag <;> rfl
@[simp] theorem Dev.fwDenied_ops (d : Dev) (ag : Agent) (off : Nat) (w : Bool) : (d.fwDenied ag off w).ops = d.ops := by cases ag <;> rfl
@[simp] theorem Dev.fwDenied_nextOp (d : Dev) (ag : Agent) (off : Nat) (w : Bool) : (d.fwDenied ag off w).nextOp = d.nextOp := by cases ag <;> rfl
@[simp] theorem Dev.fwDenied_chans (d : Dev) (ag : Agent) (off : Nat) (w : Bool) : (d.fwDenied ag off w).chans = d.chans := by cases ag <;> rfl
@[simp] theorem Dev.fwDenied_engOut (d : Dev) (ag : Agent) (off : Nat) (w : Bool) : (d.fwDenied ag off w).engOut = d.engOut := by cases ag <;> rfl
@[simp] theorem Dev.fwDenied_host (d : Dev) (ag : Agent) (off : Nat) (w : Bool) : (d.fwDenied ag off w).host = d.host := by cases ag <;> rfl
@[simp] theorem Dev.fwDenied_cry (d : Dev) (ag : Agent) (off : Nat) (w : Bool) : (d.fwDenied ag off w).cry = d.cry := by cases ag <;> rfl
@[simp] theorem Dev.fwDenied_reef (d : Dev) (ag : Agent) (off : Nat) (w : Bool) : (d.fwDenied ag off w).reef = d.reef := by cases ag <;> rfl
@[simp] theorem Dev.fwDenied_net (d : Dev) (ag : Agent) (off : Nat) (w : Bool) : (d.fwDenied ag off w).net = d.net := by cases ag <;> rfl
@[simp] theorem Dev.fwDenied_sw (d : Dev) (ag : Agent) (off : Nat) (w : Bool) : (d.fwDenied ag off w).sw = d.sw := by cases ag <;> rfl
@[simp] theorem Dev.fwDenied_out (d : Dev) (ag : Agent) (off : Nat) (w : Bool) : (d.fwDenied ag off w).out = d.out := by cases ag <;> rfl

/-! discarded -/

@[simp] theorem Dev.discarded_free (d : Dev) (ag : Agent) (off : Nat) : (d.discarded ag off).free = d.free := by
  unfold Dev.discarded; split <;> simp [Dev.reportCtl]
@[simp] theorem Dev.discarded_mem (d : Dev) (ag : Agent) (off : Nat) : (d.discarded ag off).mem = d.mem := by
  unfold Dev.discarded; split <;> simp [Dev.reportCtl]
@[simp] theorem Dev.discarded_boot (d : Dev) (ag : Agent) (off : Nat) : (d.discarded ag off).boot = d.boot := by
  unfold Dev.discarded; split <;> simp [Dev.reportCtl]
@[simp] theorem Dev.discarded_mon (d : Dev) (ag : Agent) (off : Nat) : (d.discarded ag off).mon = d.mon := by
  unfold Dev.discarded; split <;> simp [Dev.reportCtl]
@[simp] theorem Dev.discarded_clk (d : Dev) (ag : Agent) (off : Nat) : (d.discarded ag off).clk = d.clk := by
  unfold Dev.discarded; split <;> simp [Dev.reportCtl]
@[simp] theorem Dev.discarded_servo (d : Dev) (ag : Agent) (off : Nat) : (d.discarded ag off).servo = d.servo := by
  unfold Dev.discarded; split <;> simp [Dev.reportCtl]
@[simp] theorem Dev.discarded_adm (d : Dev) (ag : Agent) (off : Nat) : (d.discarded ag off).adm = d.adm := by
  unfold Dev.discarded; split <;> simp [Dev.reportCtl]
@[simp] theorem Dev.discarded_pair (d : Dev) (ag : Agent) (off : Nat) : (d.discarded ag off).pair = d.pair := by
  unfold Dev.discarded; split <;> simp [Dev.reportCtl]
@[simp] theorem Dev.discarded_cal (d : Dev) (ag : Agent) (off : Nat) : (d.discarded ag off).cal = d.cal := by
  unfold Dev.discarded; split <;> simp [Dev.reportCtl]
@[simp] theorem Dev.discarded_ops (d : Dev) (ag : Agent) (off : Nat) : (d.discarded ag off).ops = d.ops := by
  unfold Dev.discarded; split <;> simp [Dev.reportCtl]
@[simp] theorem Dev.discarded_nextOp (d : Dev) (ag : Agent) (off : Nat) : (d.discarded ag off).nextOp = d.nextOp := by
  unfold Dev.discarded; split <;> simp [Dev.reportCtl]
@[simp] theorem Dev.discarded_chans (d : Dev) (ag : Agent) (off : Nat) : (d.discarded ag off).chans = d.chans := by
  unfold Dev.discarded; split <;> simp [Dev.reportCtl]
@[simp] theorem Dev.discarded_engOut (d : Dev) (ag : Agent) (off : Nat) : (d.discarded ag off).engOut = d.engOut := by
  unfold Dev.discarded; split <;> simp [Dev.reportCtl]
@[simp] theorem Dev.discarded_host (d : Dev) (ag : Agent) (off : Nat) : (d.discarded ag off).host = d.host := by
  unfold Dev.discarded; split <;> simp [Dev.reportCtl]
@[simp] theorem Dev.discarded_cry (d : Dev) (ag : Agent) (off : Nat) : (d.discarded ag off).cry = d.cry := by
  unfold Dev.discarded; split <;> simp [Dev.reportCtl]
@[simp] theorem Dev.discarded_reef (d : Dev) (ag : Agent) (off : Nat) : (d.discarded ag off).reef = d.reef := by
  unfold Dev.discarded; split <;> simp [Dev.reportCtl]
@[simp] theorem Dev.discarded_net (d : Dev) (ag : Agent) (off : Nat) : (d.discarded ag off).net = d.net := by
  unfold Dev.discarded; split <;> simp [Dev.reportCtl]
@[simp] theorem Dev.discarded_sw (d : Dev) (ag : Agent) (off : Nat) : (d.discarded ag off).sw = d.sw := by
  unfold Dev.discarded; split <;> simp [Dev.reportCtl]
@[simp] theorem Dev.discarded_out (d : Dev) (ag : Agent) (off : Nat) : (d.discarded ag off).out = d.out := by
  unfold Dev.discarded; split <;> simp [Dev.reportCtl]

/-- A write that the firewall does not refuse touches no thread as it is discarded. -/
theorem Dev.discarded_shl (d : Dev) (ag : Agent) (off : Nat) (h : d.fwRefuses ag off = false) : (d.discarded ag off).shl = d.shl := by
  simp [Dev.discarded, h, Dev.reportCtl]

/-! checkRefused -/

@[simp] theorem Dev.checkRefused_free (d : Dev) (ag : Agent) (off : Nat) : (d.checkRefused ag off).free = d.free := rfl
@[simp] theorem Dev.checkRefused_mem (d : Dev) (ag : Agent) (off : Nat) : (d.checkRefused ag off).mem = d.mem := rfl
@[simp] theorem Dev.checkRefused_boot (d : Dev) (ag : Agent) (off : Nat) : (d.checkRefused ag off).boot = d.boot := rfl
@[simp] theorem Dev.checkRefused_mon (d : Dev) (ag : Agent) (off : Nat) : (d.checkRefused ag off).mon = d.mon := rfl
@[simp] theorem Dev.checkRefused_clk (d : Dev) (ag : Agent) (off : Nat) : (d.checkRefused ag off).clk = d.clk := rfl
@[simp] theorem Dev.checkRefused_servo (d : Dev) (ag : Agent) (off : Nat) : (d.checkRefused ag off).servo = d.servo := rfl
@[simp] theorem Dev.checkRefused_adm (d : Dev) (ag : Agent) (off : Nat) : (d.checkRefused ag off).adm = d.adm := rfl
@[simp] theorem Dev.checkRefused_pair (d : Dev) (ag : Agent) (off : Nat) : (d.checkRefused ag off).pair = d.pair := rfl
@[simp] theorem Dev.checkRefused_cal (d : Dev) (ag : Agent) (off : Nat) : (d.checkRefused ag off).cal = d.cal := rfl
@[simp] theorem Dev.checkRefused_ops (d : Dev) (ag : Agent) (off : Nat) : (d.checkRefused ag off).ops = d.ops := rfl
@[simp] theorem Dev.checkRefused_nextOp (d : Dev) (ag : Agent) (off : Nat) : (d.checkRefused ag off).nextOp = d.nextOp := rfl
@[simp] theorem Dev.checkRefused_chans (d : Dev) (ag : Agent) (off : Nat) : (d.checkRefused ag off).chans = d.chans := rfl
@[simp] theorem Dev.checkRefused_engOut (d : Dev) (ag : Agent) (off : Nat) : (d.checkRefused ag off).engOut = d.engOut := rfl
@[simp] theorem Dev.checkRefused_host (d : Dev) (ag : Agent) (off : Nat) : (d.checkRefused ag off).host = d.host := rfl
@[simp] theorem Dev.checkRefused_cry (d : Dev) (ag : Agent) (off : Nat) : (d.checkRefused ag off).cry = d.cry := rfl
@[simp] theorem Dev.checkRefused_reef (d : Dev) (ag : Agent) (off : Nat) : (d.checkRefused ag off).reef = d.reef := rfl
@[simp] theorem Dev.checkRefused_net (d : Dev) (ag : Agent) (off : Nat) : (d.checkRefused ag off).net = d.net := rfl
@[simp] theorem Dev.checkRefused_sw (d : Dev) (ag : Agent) (off : Nat) : (d.checkRefused ag off).sw = d.sw := rfl
@[simp] theorem Dev.checkRefused_shl (d : Dev) (ag : Agent) (off : Nat) : (d.checkRefused ag off).shl = d.shl := rfl
@[simp] theorem Dev.checkRefused_out (d : Dev) (ag : Agent) (off : Nat) : (d.checkRefused ag off).out = d.out := rfl

/-! mgmt -/

@[simp] theorem Dev.mgmt_free (d : Dev) (c : Cause) : (d.mgmt c).free = d.free := rfl
@[simp] theorem Dev.mgmt_mem (d : Dev) (c : Cause) : (d.mgmt c).mem = d.mem := rfl
@[simp] theorem Dev.mgmt_boot (d : Dev) (c : Cause) : (d.mgmt c).boot = d.boot := rfl
@[simp] theorem Dev.mgmt_mon (d : Dev) (c : Cause) : (d.mgmt c).mon = d.mon := rfl
@[simp] theorem Dev.mgmt_clk (d : Dev) (c : Cause) : (d.mgmt c).clk = d.clk := rfl
@[simp] theorem Dev.mgmt_servo (d : Dev) (c : Cause) : (d.mgmt c).servo = d.servo := rfl
@[simp] theorem Dev.mgmt_log (d : Dev) (c : Cause) : (d.mgmt c).log = d.log := rfl
@[simp] theorem Dev.mgmt_adm (d : Dev) (c : Cause) : (d.mgmt c).adm = d.adm := rfl
@[simp] theorem Dev.mgmt_pair (d : Dev) (c : Cause) : (d.mgmt c).pair = d.pair := rfl
@[simp] theorem Dev.mgmt_cal (d : Dev) (c : Cause) : (d.mgmt c).cal = d.cal := rfl
@[simp] theorem Dev.mgmt_ops (d : Dev) (c : Cause) : (d.mgmt c).ops = d.ops := rfl
@[simp] theorem Dev.mgmt_nextOp (d : Dev) (c : Cause) : (d.mgmt c).nextOp = d.nextOp := rfl
@[simp] theorem Dev.mgmt_chans (d : Dev) (c : Cause) : (d.mgmt c).chans = d.chans := rfl
@[simp] theorem Dev.mgmt_engOut (d : Dev) (c : Cause) : (d.mgmt c).engOut = d.engOut := rfl
@[simp] theorem Dev.mgmt_host (d : Dev) (c : Cause) : (d.mgmt c).host = d.host := rfl
@[simp] theorem Dev.mgmt_cry (d : Dev) (c : Cause) : (d.mgmt c).cry = d.cry := rfl
@[simp] theorem Dev.mgmt_reef (d : Dev) (c : Cause) : (d.mgmt c).reef = d.reef := rfl
@[simp] theorem Dev.mgmt_net (d : Dev) (c : Cause) : (d.mgmt c).net = d.net := rfl
@[simp] theorem Dev.mgmt_sw (d : Dev) (c : Cause) : (d.mgmt c).sw = d.sw := rfl
@[simp] theorem Dev.mgmt_shl (d : Dev) (c : Cause) : (d.mgmt c).shl = d.shl := rfl
@[simp] theorem Dev.mgmt_out (d : Dev) (c : Cause) : (d.mgmt c).out = d.out := rfl

/-! emit -/

@[simp] theorem Dev.emit_free (d : Dev) (o : Out) : (d.emit o).free = d.free := rfl
@[simp] theorem Dev.emit_mem (d : Dev) (o : Out) : (d.emit o).mem = d.mem := rfl
@[simp] theorem Dev.emit_boot (d : Dev) (o : Out) : (d.emit o).boot = d.boot := rfl
@[simp] theorem Dev.emit_mon (d : Dev) (o : Out) : (d.emit o).mon = d.mon := rfl
@[simp] theorem Dev.emit_regs (d : Dev) (o : Out) : (d.emit o).regs = d.regs := rfl
@[simp] theorem Dev.emit_clk (d : Dev) (o : Out) : (d.emit o).clk = d.clk := rfl
@[simp] theorem Dev.emit_servo (d : Dev) (o : Out) : (d.emit o).servo = d.servo := rfl
@[simp] theorem Dev.emit_log (d : Dev) (o : Out) : (d.emit o).log = d.log := rfl
@[simp] theorem Dev.emit_adm (d : Dev) (o : Out) : (d.emit o).adm = d.adm := rfl
@[simp] theorem Dev.emit_pair (d : Dev) (o : Out) : (d.emit o).pair = d.pair := rfl
@[simp] theorem Dev.emit_cal (d : Dev) (o : Out) : (d.emit o).cal = d.cal := rfl
@[simp] theorem Dev.emit_ops (d : Dev) (o : Out) : (d.emit o).ops = d.ops := rfl
@[simp] theorem Dev.emit_nextOp (d : Dev) (o : Out) : (d.emit o).nextOp = d.nextOp := rfl
@[simp] theorem Dev.emit_chans (d : Dev) (o : Out) : (d.emit o).chans = d.chans := rfl
@[simp] theorem Dev.emit_engOut (d : Dev) (o : Out) : (d.emit o).engOut = d.engOut := rfl
@[simp] theorem Dev.emit_host (d : Dev) (o : Out) : (d.emit o).host = d.host := rfl
@[simp] theorem Dev.emit_cry (d : Dev) (o : Out) : (d.emit o).cry = d.cry := rfl
@[simp] theorem Dev.emit_reef (d : Dev) (o : Out) : (d.emit o).reef = d.reef := rfl
@[simp] theorem Dev.emit_net (d : Dev) (o : Out) : (d.emit o).net = d.net := rfl
@[simp] theorem Dev.emit_sw (d : Dev) (o : Out) : (d.emit o).sw = d.sw := rfl
@[simp] theorem Dev.emit_shl (d : Dev) (o : Out) : (d.emit o).shl = d.shl := rfl

/-! memPut -/

@[simp] theorem Dev.memPut_free (d : Dev) (a : Nat) (l : List Byte) : (d.memPut a l).free = d.free := rfl
@[simp] theorem Dev.memPut_boot (d : Dev) (a : Nat) (l : List Byte) : (d.memPut a l).boot = d.boot := rfl
@[simp] theorem Dev.memPut_mon (d : Dev) (a : Nat) (l : List Byte) : (d.memPut a l).mon = d.mon := rfl
@[simp] theorem Dev.memPut_regs (d : Dev) (a : Nat) (l : List Byte) : (d.memPut a l).regs = d.regs := rfl
@[simp] theorem Dev.memPut_clk (d : Dev) (a : Nat) (l : List Byte) : (d.memPut a l).clk = d.clk := rfl
@[simp] theorem Dev.memPut_servo (d : Dev) (a : Nat) (l : List Byte) : (d.memPut a l).servo = d.servo := rfl
@[simp] theorem Dev.memPut_log (d : Dev) (a : Nat) (l : List Byte) : (d.memPut a l).log = d.log := rfl
@[simp] theorem Dev.memPut_adm (d : Dev) (a : Nat) (l : List Byte) : (d.memPut a l).adm = d.adm := rfl
@[simp] theorem Dev.memPut_pair (d : Dev) (a : Nat) (l : List Byte) : (d.memPut a l).pair = d.pair := rfl
@[simp] theorem Dev.memPut_cal (d : Dev) (a : Nat) (l : List Byte) : (d.memPut a l).cal = d.cal := rfl
@[simp] theorem Dev.memPut_ops (d : Dev) (a : Nat) (l : List Byte) : (d.memPut a l).ops = d.ops := rfl
@[simp] theorem Dev.memPut_nextOp (d : Dev) (a : Nat) (l : List Byte) : (d.memPut a l).nextOp = d.nextOp := rfl
@[simp] theorem Dev.memPut_chans (d : Dev) (a : Nat) (l : List Byte) : (d.memPut a l).chans = d.chans := rfl
@[simp] theorem Dev.memPut_engOut (d : Dev) (a : Nat) (l : List Byte) : (d.memPut a l).engOut = d.engOut := rfl
@[simp] theorem Dev.memPut_host (d : Dev) (a : Nat) (l : List Byte) : (d.memPut a l).host = d.host := rfl
@[simp] theorem Dev.memPut_cry (d : Dev) (a : Nat) (l : List Byte) : (d.memPut a l).cry = d.cry := rfl
@[simp] theorem Dev.memPut_reef (d : Dev) (a : Nat) (l : List Byte) : (d.memPut a l).reef = d.reef := rfl
@[simp] theorem Dev.memPut_net (d : Dev) (a : Nat) (l : List Byte) : (d.memPut a l).net = d.net := rfl
@[simp] theorem Dev.memPut_sw (d : Dev) (a : Nat) (l : List Byte) : (d.memPut a l).sw = d.sw := rfl
@[simp] theorem Dev.memPut_shl (d : Dev) (a : Nat) (l : List Byte) : (d.memPut a l).shl = d.shl := rfl
@[simp] theorem Dev.memPut_out (d : Dev) (a : Nat) (l : List Byte) : (d.memPut a l).out = d.out := rfl

/-! setThr -/

@[simp] theorem Dev.setThr_free (d : Dev) (t : Nat) (x : Thread) : (d.setThr t x).free = d.free := rfl
@[simp] theorem Dev.setThr_mem (d : Dev) (t : Nat) (x : Thread) : (d.setThr t x).mem = d.mem := rfl
@[simp] theorem Dev.setThr_boot (d : Dev) (t : Nat) (x : Thread) : (d.setThr t x).boot = d.boot := rfl
@[simp] theorem Dev.setThr_mon (d : Dev) (t : Nat) (x : Thread) : (d.setThr t x).mon = d.mon := rfl
@[simp] theorem Dev.setThr_regs (d : Dev) (t : Nat) (x : Thread) : (d.setThr t x).regs = d.regs := rfl
@[simp] theorem Dev.setThr_clk (d : Dev) (t : Nat) (x : Thread) : (d.setThr t x).clk = d.clk := rfl
@[simp] theorem Dev.setThr_servo (d : Dev) (t : Nat) (x : Thread) : (d.setThr t x).servo = d.servo := rfl
@[simp] theorem Dev.setThr_log (d : Dev) (t : Nat) (x : Thread) : (d.setThr t x).log = d.log := rfl
@[simp] theorem Dev.setThr_adm (d : Dev) (t : Nat) (x : Thread) : (d.setThr t x).adm = d.adm := rfl
@[simp] theorem Dev.setThr_pair (d : Dev) (t : Nat) (x : Thread) : (d.setThr t x).pair = d.pair := rfl
@[simp] theorem Dev.setThr_cal (d : Dev) (t : Nat) (x : Thread) : (d.setThr t x).cal = d.cal := rfl
@[simp] theorem Dev.setThr_ops (d : Dev) (t : Nat) (x : Thread) : (d.setThr t x).ops = d.ops := rfl
@[simp] theorem Dev.setThr_nextOp (d : Dev) (t : Nat) (x : Thread) : (d.setThr t x).nextOp = d.nextOp := rfl
@[simp] theorem Dev.setThr_chans (d : Dev) (t : Nat) (x : Thread) : (d.setThr t x).chans = d.chans := rfl
@[simp] theorem Dev.setThr_engOut (d : Dev) (t : Nat) (x : Thread) : (d.setThr t x).engOut = d.engOut := rfl
@[simp] theorem Dev.setThr_host (d : Dev) (t : Nat) (x : Thread) : (d.setThr t x).host = d.host := rfl
@[simp] theorem Dev.setThr_cry (d : Dev) (t : Nat) (x : Thread) : (d.setThr t x).cry = d.cry := rfl
@[simp] theorem Dev.setThr_reef (d : Dev) (t : Nat) (x : Thread) : (d.setThr t x).reef = d.reef := rfl
@[simp] theorem Dev.setThr_net (d : Dev) (t : Nat) (x : Thread) : (d.setThr t x).net = d.net := rfl
@[simp] theorem Dev.setThr_sw (d : Dev) (t : Nat) (x : Thread) : (d.setThr t x).sw = d.sw := rfl
@[simp] theorem Dev.setThr_out (d : Dev) (t : Nat) (x : Thread) : (d.setThr t x).out = d.out := rfl

/-! updThr -/

@[simp] theorem Dev.updThr_free (d : Dev) (t : Nat) (f : Thread → Thread) : (d.updThr t f).free = d.free := rfl
@[simp] theorem Dev.updThr_mem (d : Dev) (t : Nat) (f : Thread → Thread) : (d.updThr t f).mem = d.mem := rfl
@[simp] theorem Dev.updThr_boot (d : Dev) (t : Nat) (f : Thread → Thread) : (d.updThr t f).boot = d.boot := rfl
@[simp] theorem Dev.updThr_mon (d : Dev) (t : Nat) (f : Thread → Thread) : (d.updThr t f).mon = d.mon := rfl
@[simp] theorem Dev.updThr_regs (d : Dev) (t : Nat) (f : Thread → Thread) : (d.updThr t f).regs = d.regs := rfl
@[simp] theorem Dev.updThr_clk (d : Dev) (t : Nat) (f : Thread → Thread) : (d.updThr t f).clk = d.clk := rfl
@[simp] theorem Dev.updThr_servo (d : Dev) (t : Nat) (f : Thread → Thread) : (d.updThr t f).servo = d.servo := rfl
@[simp] theorem Dev.updThr_log (d : Dev) (t : Nat) (f : Thread → Thread) : (d.updThr t f).log = d.log := rfl
@[simp] theorem Dev.updThr_adm (d : Dev) (t : Nat) (f : Thread → Thread) : (d.updThr t f).adm = d.adm := rfl
@[simp] theorem Dev.updThr_pair (d : Dev) (t : Nat) (f : Thread → Thread) : (d.updThr t f).pair = d.pair := rfl
@[simp] theorem Dev.updThr_cal (d : Dev) (t : Nat) (f : Thread → Thread) : (d.updThr t f).cal = d.cal := rfl
@[simp] theorem Dev.updThr_ops (d : Dev) (t : Nat) (f : Thread → Thread) : (d.updThr t f).ops = d.ops := rfl
@[simp] theorem Dev.updThr_nextOp (d : Dev) (t : Nat) (f : Thread → Thread) : (d.updThr t f).nextOp = d.nextOp := rfl
@[simp] theorem Dev.updThr_chans (d : Dev) (t : Nat) (f : Thread → Thread) : (d.updThr t f).chans = d.chans := rfl
@[simp] theorem Dev.updThr_engOut (d : Dev) (t : Nat) (f : Thread → Thread) : (d.updThr t f).engOut = d.engOut := rfl
@[simp] theorem Dev.updThr_host (d : Dev) (t : Nat) (f : Thread → Thread) : (d.updThr t f).host = d.host := rfl
@[simp] theorem Dev.updThr_cry (d : Dev) (t : Nat) (f : Thread → Thread) : (d.updThr t f).cry = d.cry := rfl
@[simp] theorem Dev.updThr_reef (d : Dev) (t : Nat) (f : Thread → Thread) : (d.updThr t f).reef = d.reef := rfl
@[simp] theorem Dev.updThr_net (d : Dev) (t : Nat) (f : Thread → Thread) : (d.updThr t f).net = d.net := rfl
@[simp] theorem Dev.updThr_sw (d : Dev) (t : Nat) (f : Thread → Thread) : (d.updThr t f).sw = d.sw := rfl
@[simp] theorem Dev.updThr_out (d : Dev) (t : Nat) (f : Thread → Thread) : (d.updThr t f).out = d.out := rfl

/-! setChan -/

@[simp] theorem Dev.setChan_free (d : Dev) (n : Nat) (c : Chan) : (d.setChan n c).free = d.free := rfl
@[simp] theorem Dev.setChan_mem (d : Dev) (n : Nat) (c : Chan) : (d.setChan n c).mem = d.mem := rfl
@[simp] theorem Dev.setChan_boot (d : Dev) (n : Nat) (c : Chan) : (d.setChan n c).boot = d.boot := rfl
@[simp] theorem Dev.setChan_mon (d : Dev) (n : Nat) (c : Chan) : (d.setChan n c).mon = d.mon := rfl
@[simp] theorem Dev.setChan_regs (d : Dev) (n : Nat) (c : Chan) : (d.setChan n c).regs = d.regs := rfl
@[simp] theorem Dev.setChan_clk (d : Dev) (n : Nat) (c : Chan) : (d.setChan n c).clk = d.clk := rfl
@[simp] theorem Dev.setChan_servo (d : Dev) (n : Nat) (c : Chan) : (d.setChan n c).servo = d.servo := rfl
@[simp] theorem Dev.setChan_log (d : Dev) (n : Nat) (c : Chan) : (d.setChan n c).log = d.log := rfl
@[simp] theorem Dev.setChan_adm (d : Dev) (n : Nat) (c : Chan) : (d.setChan n c).adm = d.adm := rfl
@[simp] theorem Dev.setChan_pair (d : Dev) (n : Nat) (c : Chan) : (d.setChan n c).pair = d.pair := rfl
@[simp] theorem Dev.setChan_cal (d : Dev) (n : Nat) (c : Chan) : (d.setChan n c).cal = d.cal := rfl
@[simp] theorem Dev.setChan_ops (d : Dev) (n : Nat) (c : Chan) : (d.setChan n c).ops = d.ops := rfl
@[simp] theorem Dev.setChan_nextOp (d : Dev) (n : Nat) (c : Chan) : (d.setChan n c).nextOp = d.nextOp := rfl
@[simp] theorem Dev.setChan_engOut (d : Dev) (n : Nat) (c : Chan) : (d.setChan n c).engOut = d.engOut := rfl
@[simp] theorem Dev.setChan_host (d : Dev) (n : Nat) (c : Chan) : (d.setChan n c).host = d.host := rfl
@[simp] theorem Dev.setChan_cry (d : Dev) (n : Nat) (c : Chan) : (d.setChan n c).cry = d.cry := rfl
@[simp] theorem Dev.setChan_reef (d : Dev) (n : Nat) (c : Chan) : (d.setChan n c).reef = d.reef := rfl
@[simp] theorem Dev.setChan_net (d : Dev) (n : Nat) (c : Chan) : (d.setChan n c).net = d.net := rfl
@[simp] theorem Dev.setChan_sw (d : Dev) (n : Nat) (c : Chan) : (d.setChan n c).sw = d.sw := rfl
@[simp] theorem Dev.setChan_shl (d : Dev) (n : Nat) (c : Chan) : (d.setChan n c).shl = d.shl := rfl
@[simp] theorem Dev.setChan_out (d : Dev) (n : Nat) (c : Chan) : (d.setChan n c).out = d.out := rfl

/-! counted -/

@[simp] theorem Dev.counted_free (d : Dev) (t : Nat) : (d.counted t).free = d.free := rfl
@[simp] theorem Dev.counted_mem (d : Dev) (t : Nat) : (d.counted t).mem = d.mem := rfl
@[simp] theorem Dev.counted_boot (d : Dev) (t : Nat) : (d.counted t).boot = d.boot := rfl
@[simp] theorem Dev.counted_mon (d : Dev) (t : Nat) : (d.counted t).mon = d.mon := rfl
@[simp] theorem Dev.counted_regs (d : Dev) (t : Nat) : (d.counted t).regs = d.regs := rfl
@[simp] theorem Dev.counted_clk (d : Dev) (t : Nat) : (d.counted t).clk = d.clk := rfl
@[simp] theorem Dev.counted_servo (d : Dev) (t : Nat) : (d.counted t).servo = d.servo := rfl
@[simp] theorem Dev.counted_log (d : Dev) (t : Nat) : (d.counted t).log = d.log := rfl
@[simp] theorem Dev.counted_adm (d : Dev) (t : Nat) : (d.counted t).adm = d.adm := rfl
@[simp] theorem Dev.counted_pair (d : Dev) (t : Nat) : (d.counted t).pair = d.pair := rfl
@[simp] theorem Dev.counted_cal (d : Dev) (t : Nat) : (d.counted t).cal = d.cal := rfl
@[simp] theorem Dev.counted_ops (d : Dev) (t : Nat) : (d.counted t).ops = d.ops := rfl
@[simp] theorem Dev.counted_nextOp (d : Dev) (t : Nat) : (d.counted t).nextOp = d.nextOp := rfl
@[simp] theorem Dev.counted_chans (d : Dev) (t : Nat) : (d.counted t).chans = d.chans := rfl
@[simp] theorem Dev.counted_engOut (d : Dev) (t : Nat) : (d.counted t).engOut = d.engOut := rfl
@[simp] theorem Dev.counted_host (d : Dev) (t : Nat) : (d.counted t).host = d.host := rfl
@[simp] theorem Dev.counted_cry (d : Dev) (t : Nat) : (d.counted t).cry = d.cry := rfl
@[simp] theorem Dev.counted_reef (d : Dev) (t : Nat) : (d.counted t).reef = d.reef := rfl
@[simp] theorem Dev.counted_net (d : Dev) (t : Nat) : (d.counted t).net = d.net := rfl
@[simp] theorem Dev.counted_sw (d : Dev) (t : Nat) : (d.counted t).sw = d.sw := rfl
@[simp] theorem Dev.counted_out (d : Dev) (t : Nat) : (d.counted t).out = d.out := rfl

end Sys2Proof.Machine
end

