-- ==== Sys2Proof/Laws/Tab.lean ====
section
/-! SUPPORT. Laws of sparse arrays, of memory's bytes and of the sorting of lists: read after write, the canonical form, and what a
sorted list holds. -/

namespace Sys2Proof.Machine

open Sys2Proof

variable {α : Type}

/-! Reading after a write -/

@[simp] theorem Tab.get_nil (d : α) (k : Nat) : Tab.get d [] k = d := rfl

theorem Tab.get_cons (d : α) (j : Nat) (v : α) (t : Tab α) (k : Nat) :
    Tab.get d ((j, v) :: t) k = if j = k then v else Tab.get d t k := by
  by_cases h : j = k <;> simp [Tab.get, h]

theorem Tab.get_erase (d : α) (t : Tab α) (k j : Nat) :
    Tab.get d (Tab.erase t k) j = if j = k then d else Tab.get d t j := by
  induction t with
  | nil => simp [Tab.erase]
  | cons p r ih =>
    obtain ⟨i, v⟩ := p
    simp only [Tab.erase, List.filter_cons] at ih ⊢
    by_cases hi : i = k
    · subst hi
      by_cases hj : j = i
      · subst hj; simpa using ih
      · simp [ih, Tab.get_cons, hj, Ne.symm hj]
    · have h1 : (!(i == k)) = true := by simp [hi]
      simp only [h1, if_true, Tab.get_cons, ih]
      by_cases hij : i = j
      · subst hij; simp [hi]
      · simp [hij]

/-- Index k is not listed. -/
def Tab.free (t : Tab α) (k : Nat) : Prop := ∀ p ∈ t, p.1 ≠ k

theorem Tab.erase_free (t : Tab α) (k : Nat) : Tab.free (Tab.erase t k) k := by
  intro p hp
  simpa [Tab.erase] using (List.mem_filter.mp hp).2

theorem Tab.get_insert (d : α) (t : Tab α) (k j : Nat) (v : α) (h : Tab.free t k) :
    Tab.get d (Tab.insert t k v) j = if j = k then v else Tab.get d t j := by
  induction t with
  | nil => simp [Tab.insert, Tab.get_cons, eq_comm]
  | cons p r ih =>
    obtain ⟨i, u⟩ := p
    have hi : i ≠ k := h (i, u) (by simp)
    have hr : Tab.free r k := fun q hq => h q (by simp [hq])
    by_cases hki : k < i
    · simp [Tab.insert, hki, Tab.get_cons, eq_comm]
    · simp only [Tab.insert, hki, if_false, Tab.get_cons, ih hr]
      by_cases hij : i = j
      · subst hij; simp [hi]
      · simp [hij]

/-- A read after a write: the value at its own index, and what stood there at every other. -/
theorem Tab.get_set [DecidableEq α] (d : α) (t : Tab α) (k j : Nat) (v : α) :
    Tab.get d (Tab.set d t k v) j = if j = k then v else Tab.get d t j := by
  unfold Tab.set
  split
  · next h => rw [Tab.get_erase, h]
  · rw [Tab.get_insert _ _ _ _ _ (Tab.erase_free t k), Tab.get_erase]
    split <;> rfl

@[simp] theorem Tab.get_set_same [DecidableEq α] (d : α) (t : Tab α) (k : Nat) (v : α) :
    Tab.get d (Tab.set d t k v) k = v := by simp [Tab.get_set]

theorem Tab.get_set_ne [DecidableEq α] (d : α) (t : Tab α) {k j : Nat} (v : α) (h : j ≠ k) :
    Tab.get d (Tab.set d t k v) j = Tab.get d t j := by simp [Tab.get_set, h]

/-- A write with one default leaves what every other index reads as with any default. -/
theorem Tab.get_set_other [DecidableEq α] (d e : α) (t : Tab α) {k j : Nat} (v : α) (h : j ≠ k) :
    Tab.get e (Tab.set d t k v) j = Tab.get e t j := by
  unfold Tab.set
  split
  · simp [Tab.get_erase, h]
  · rw [Tab.get_insert _ _ _ _ _ (Tab.erase_free t k), Tab.get_erase]; simp [h]

/-! The canonical form -/

/-- Every listed index is above j. -/
def Tab.above (j : Nat) (t : Tab α) : Prop := ∀ p ∈ t, j < p.1

theorem Tab.wf_cons [DecidableEq α] (d : α) (j : Nat) (v : α) (t : Tab α) :
    Tab.wf d ((j, v) :: t) = true ↔ v ≠ d ∧ Tab.above j t ∧ Tab.wf d t = true := by
  induction t generalizing j v with
  | nil => simp [Tab.wf, Tab.above]
  | cons p r ih =>
    obtain ⟨k, u⟩ := p
    have hk := ih k u
    simp only [Tab.wf, Bool.and_eq_true, Bool.not_eq_true', decide_eq_true_eq, decide_eq_false_iff_not]
    constructor
    · rintro ⟨⟨hv, hjk⟩, hr⟩
      obtain ⟨-, ha, -⟩ := hk.mp hr
      refine ⟨hv, ?_, hr⟩
      intro q hq
      rcases List.mem_cons.mp hq with rfl | hq
      · exact hjk
      · exact Nat.lt_trans hjk (ha q hq)
    · rintro ⟨hv, ha, hr⟩
      exact ⟨⟨hv, ha (k, u) (by simp)⟩, hr⟩

theorem Tab.wf_erase [DecidableEq α] (d : α) (t : Tab α) (k : Nat) (h : Tab.wf d t = true) :
    Tab.wf d (Tab.erase t k) = true := by
  induction t with
  | nil => simp [Tab.erase, Tab.wf]
  | cons p r ih =>
    obtain ⟨j, v⟩ := p
    obtain ⟨hv, ha, hr⟩ := (Tab.wf_cons d j v r).mp h
    have hk := ih hr
    simp only [Tab.erase, List.filter_cons] at hk ⊢
    split
    · exact (Tab.wf_cons _ _ _ _).mpr ⟨hv, fun q hq => ha q (List.mem_filter.mp hq).1, hk⟩
    · exact hk

theorem Tab.mem_insert (t : Tab α) (k : Nat) (v : α) (p : Nat × α) (h : p ∈ Tab.insert t k v) : p = (k, v) ∨ p ∈ t := by
  induction t with
  | nil => simpa [Tab.insert] using h
  | cons q r ih =>
    obtain ⟨j, u⟩ := q
    simp only [Tab.insert] at h
    split at h
    · rcases List.mem_cons.mp h with rfl | h
      · exact .inl rfl
      · exact .inr h
    · rcases List.mem_cons.mp h with rfl | h
      · exact .inr (by simp)
      · rcases ih h with h | h
        · exact .inl h
        · exact .inr (by simp [h])

theorem Tab.wf_insert [DecidableEq α] (d : α) (t : Tab α) (k : Nat) (v : α) (hv : v ≠ d) (hf : Tab.free t k)
    (h : Tab.wf d t = true) : Tab.wf d (Tab.insert t k v) = true := by
  induction t with
  | nil => simp [Tab.insert, Tab.wf, hv]
  | cons p r ih =>
    obtain ⟨j, u⟩ := p
    obtain ⟨hu, ha, hr⟩ := (Tab.wf_cons d j u r).mp h
    have hj : j ≠ k := hf (j, u) (by simp)
    simp only [Tab.insert]
    split
    · next hk =>
      refine (Tab.wf_cons _ _ _ _).mpr ⟨hv, ?_, h⟩
      intro q hq
      rcases List.mem_cons.mp hq with rfl | hq
      · exact hk
      · exact Nat.lt_trans hk (ha q hq)
    · next hk =>
      refine (Tab.wf_cons _ _ _ _).mpr ⟨hu, ?_, ih (fun q hq => hf q (by simp [hq])) hr⟩
      intro q hq
      rcases Tab.mem_insert r k v q hq with rfl | hq
      · show j < k; omega
      · exact ha q hq

/-- A write keeps the canonical form. -/
theorem Tab.wf_set [DecidableEq α] (d : α) (t : Tab α) (k : Nat) (v : α) (h : Tab.wf d t = true) :
    Tab.wf d (Tab.set d t k v) = true := by
  unfold Tab.set
  split
  · exact Tab.wf_erase d t k h
  · next hv => exact Tab.wf_insert d _ k v hv (Tab.erase_free t k) (Tab.wf_erase d t k h)

/-- A change of one index keeps the canonical form. -/
theorem Tab.wf_upd [DecidableEq α] (d : α) (t : Tab α) (k : Nat) (f : α → α) (h : Tab.wf d t = true) :
    Tab.wf d (Tab.upd d t k f) = true := Tab.wf_set d t k _ h

/-! Sorting -/

theorem insertIn_perm (le : α → α → Bool) (x : α) (l : List α) : (insertIn le x l).Perm (x :: l) := by
  induction l with
  | nil => exact List.Perm.refl _
  | cons y r ih =>
    simp only [insertIn]
    split
    · exact (ih.cons y).trans (List.Perm.swap x y r)
    · exact List.Perm.refl _

theorem sortIn_foldl_perm (le : α → α → Bool) (l acc : List α) :
    (l.foldl (fun t x => insertIn le x t) acc).Perm (acc ++ l) := by
  induction l generalizing acc with
  | nil => simp
  | cons x r ih =>
    simp only [List.foldl_cons]
    refine (ih (insertIn le x acc)).trans (((insertIn_perm le x acc).append_right r).trans ?_)
    simpa using (List.perm_middle (a := x) (l₁ := acc) (l₂ := r)).symm

/-- Sorting loses nothing and adds nothing. -/
theorem sortIn_perm (le : α → α → Bool) (l : List α) : (sortIn le l).Perm l := by
  simpa [sortIn] using sortIn_foldl_perm le l []

end Sys2Proof.Machine
end

