-- ==== Sys2Proof/Laws/Regs.lean ====
section
/-! SUPPORT. What each operation over register fields, threads and channels does to what is read of them, and what a command run on the
device leaves alone. -/

namespace Sys2Proof.Machine

open Sys2Proof

/-! A command -/

/-- Out of reset, a command's next state is its effect on the device. -/
theorem State.run_live (s : State) (f : Dev → Dev) (h : s.dev.boot.inReset = false) :
    s.run f = .next { s with dev := f s.dev } := by simp [State.run, h]

/-- In reset a command changes nothing (R488). -/
theorem State.run_reset (s : State) (f : Dev → Dev) (h : s.dev.boot.inReset = true) : s.run f = .next s := by simp [State.run, h]

/-- A command answers a next state, and touches neither the queue nor the device as the last tick left it. -/
theorem State.run_frame (s : State) (f : Dev → Dev) : ∃ t, s.run f = .next t ∧ t.pending = s.pending ∧ t.prev = s.prev := by
  refine ⟨_, rfl, ?_, ?_⟩ <;> split <;> rfl

/-! Rights (R31): what an agent may write or read has its effect; what it may not is discarded and logged, or reads nothing -/

theorem Dev.byRight_yes (d : Dev) {ag : Agent} {off : Nat} (f : Dev → Dev) (h : d.mayWrite ag off = true) : d.byRight ag off f = f d := by
  simp [Dev.byRight, h]
theorem Dev.byRight_no (d : Dev) {ag : Agent} {off : Nat} (f : Dev → Dev) (h : d.mayWrite ag off = false) :
    d.byRight ag off f = d.discarded ag off := by simp [Dev.byRight, h]
theorem Dev.byRead_yes (d : Dev) {ag : Agent} {off : Nat} (f : Dev → Dev) (h : d.mayRead ag off = true) : d.byRead ag off f = f d := by
  simp [Dev.byRead, h]
theorem Dev.byRead_refused (d : Dev) {ag : Agent} {off : Nat} (f : Dev → Dev) (h : d.mayRead ag off = false) (hf : d.fwRefuses ag off = true) :
    d.byRead ag off f = d.fwDenied ag off false := by simp [Dev.byRead, h, hf]
theorem Dev.byRead_nothing (d : Dev) {ag : Agent} {off : Nat} (f : Dev → Dev) (h : d.mayRead ag off = false) (hf : d.fwRefuses ag off = false) :
    d.byRead ag off f = d := by simp [Dev.byRead, h, hf]

/-! Fields: the value last written or set, and the value in force -/

@[simp] theorem Dev.rd_put (d : Dev) (f : Fld) (v : Nat) : (d.put f v).rd f = v % 2 ^ f.width := Tab.get_set_same _ _ _ _
@[simp] theorem Dev.inF_put (d : Dev) (f : Fld) (v : Nat) : (d.put f v).inF f = v % 2 ^ f.width := Tab.get_set_same _ _ _ _
@[simp] theorem Dev.rd_putBit (d : Dev) (f : Fld) (b : Bool) : (d.putBit f b).rd f = (if b then 1 else 0) % 2 ^ f.width := Dev.rd_put _ _ _
@[simp] theorem Dev.inF_putBit (d : Dev) (f : Fld) (b : Bool) : (d.putBit f b).inF f = (if b then 1 else 0) % 2 ^ f.width := Dev.inF_put _ _ _
@[simp] theorem Dev.rd_storeNow (d : Dev) (f : Fld) (v : Nat) : (d.storeNow f v).rd f = v % 2 ^ f.width := Dev.rd_put _ _ _
@[simp] theorem Dev.inF_storeNow (d : Dev) (f : Fld) (v : Nat) : (d.storeNow f v).inF f = v % 2 ^ f.width := Dev.inF_put _ _ _
@[simp] theorem Dev.rd_putNow (d : Dev) (f : Fld) (v : Nat) : (d.putNow f v).rd f = v % 2 ^ f.width := Dev.rd_put _ _ _
@[simp] theorem Dev.inF_putNow (d : Dev) (f : Fld) (v : Nat) : (d.putNow f v).inF f = v % 2 ^ f.width := Dev.inF_put _ _ _
@[simp] theorem Dev.rd_store (d : Dev) (f : Fld) (v : Nat) : (d.store f v).rd f = v % 2 ^ f.width := Tab.get_set_same _ _ _ _
@[simp] theorem Dev.rd_later (d : Dev) (f : Fld) (v : Nat) : (d.later f v).rd f = v % 2 ^ f.width := Tab.get_set_same _ _ _ _
@[simp] theorem Dev.rd_bump (d : Dev) (f : Fld) (n : Nat) : (d.bump f n).rd f = min (d.rd f + n) (2 ^ f.width - 1) := Tab.get_set_same _ _ _ _
@[simp] theorem Dev.rd_raise (d : Dev) (f : Fld) (b : Nat) : (d.raise f b).rd f = (d.rd f ||| b) % 2 ^ f.width := Tab.get_set_same _ _ _ _
@[simp] theorem Dev.rd_peak (d : Dev) (f : Fld) (v : Nat) : (d.peak f v).rd f = max (d.rd f) (v % 2 ^ f.width) := Tab.get_set_same _ _ _ _

/-! Another field -/

theorem Dev.rd_put_ne (d : Dev) {f g : Fld} (v : Nat) (h : g.key ≠ f.key) : (d.put f v).rd g = d.rd g := Tab.get_set_other _ _ _ _ h
theorem Dev.rd_putBit_ne (d : Dev) {f g : Fld} (b : Bool) (h : g.key ≠ f.key) : (d.putBit f b).rd g = d.rd g := Tab.get_set_other _ _ _ _ h
theorem Dev.rd_storeNow_ne (d : Dev) {f g : Fld} (v : Nat) (h : g.key ≠ f.key) : (d.storeNow f v).rd g = d.rd g := Tab.get_set_other _ _ _ _ h
theorem Dev.rd_putNow_ne (d : Dev) {f g : Fld} (v : Nat) (h : g.key ≠ f.key) : (d.putNow f v).rd g = d.rd g := Tab.get_set_other _ _ _ _ h
theorem Dev.rd_store_ne (d : Dev) {f g : Fld} (v : Nat) (h : g.key ≠ f.key) : (d.store f v).rd g = d.rd g := Tab.get_set_other _ _ _ _ h
theorem Dev.rd_later_ne (d : Dev) {f g : Fld} (v : Nat) (h : g.key ≠ f.key) : (d.later f v).rd g = d.rd g := Tab.get_set_other _ _ _ _ h
theorem Dev.rd_bump_ne (d : Dev) {f g : Fld} (n : Nat) (h : g.key ≠ f.key) : (d.bump f n).rd g = d.rd g := Tab.get_set_other _ _ _ _ h
theorem Dev.rd_raise_ne (d : Dev) {f g : Fld} (b : Nat) (h : g.key ≠ f.key) : (d.raise f b).rd g = d.rd g := Tab.get_set_other _ _ _ _ h
theorem Dev.rd_peak_ne (d : Dev) {f g : Fld} (v : Nat) (h : g.key ≠ f.key) : (d.peak f v).rd g = d.rd g := Tab.get_set_other _ _ _ _ h
theorem Dev.rd_clearCount_ne (d : Dev) {f g : Fld} (h : g.key ≠ f.key) : (d.clearCount f).rd g = d.rd g := Tab.get_set_other _ _ _ _ h
theorem Dev.rd_clearBits_ne (d : Dev) {f g : Fld} (b : Nat) (h : g.key ≠ f.key) : (d.clearBits f b).rd g = d.rd g := Tab.get_set_other _ _ _ _ h
theorem Dev.inF_put_ne (d : Dev) {f g : Fld} (v : Nat) (h : g.key ≠ f.key) : (d.put f v).inF g = d.inF g := Tab.get_set_other _ _ _ _ h
theorem Dev.inF_putBit_ne (d : Dev) {f g : Fld} (b : Bool) (h : g.key ≠ f.key) : (d.putBit f b).inF g = d.inF g := Tab.get_set_other _ _ _ _ h
theorem Dev.inF_storeNow_ne (d : Dev) {f g : Fld} (v : Nat) (h : g.key ≠ f.key) : (d.storeNow f v).inF g = d.inF g := Tab.get_set_other _ _ _ _ h
theorem Dev.inF_putNow_ne (d : Dev) {f g : Fld} (v : Nat) (h : g.key ≠ f.key) : (d.putNow f v).inF g = d.inF g := Tab.get_set_other _ _ _ _ h

/-! A write that waits, a counter and an alert leave every value in force -/

@[simp] theorem Dev.inF_store (d : Dev) (f g : Fld) (v : Nat) : (d.store f v).inF g = d.inF g := rfl
@[simp] theorem Dev.inF_later (d : Dev) (f g : Fld) (v : Nat) : (d.later f v).inF g = d.inF g := rfl
@[simp] theorem Dev.inF_bump (d : Dev) (f g : Fld) (n : Nat) : (d.bump f n).inF g = d.inF g := rfl
@[simp] theorem Dev.inF_raise (d : Dev) (f g : Fld) (b : Nat) : (d.raise f b).inF g = d.inF g := rfl
@[simp] theorem Dev.inF_peak (d : Dev) (f g : Fld) (v : Nat) : (d.peak f v).inF g = d.inF g := rfl
@[simp] theorem Dev.inF_clearCount (d : Dev) (f g : Fld) : (d.clearCount f).inF g = d.inF g := rfl
@[simp] theorem Dev.inF_clearBits (d : Dev) (f g : Fld) (b : Nat) : (d.clearBits f b).inF g = d.inF g := rfl

end Sys2Proof.Machine
end

