-- ==== Sys2Proof/Laws/Commands.lean ====
section
/-! SUPPORT. How a command that is run on the device completes, and what a change of one stored field leaves alone. -/

namespace Sys2Proof.Machine

open Sys2Proof

/-- Out of reset, a command that runs f completes with f's device. -/
theorem completes_run (c : Instr) (s : State) (f : Dev → Dev) (he : exec c s = s.run f) (hl : Live s) (P : State → Prop)
    (hP : P { s with dev := f s.dev }) : Completes c s P :=
  ⟨_, he.trans (State.run_live s f hl), hP⟩

/-- The same, with the device that f makes given by an equation. -/
theorem completes_as (c : Instr) (s : State) (f : Dev → Dev) (d : Dev) (he : exec c s = s.run f) (hl : Live s) (hd : f s.dev = d)
    (P : State → Prop) (hP : P { s with dev := d }) : Completes c s P := by
  subst hd; exact completes_run c s f he hl P hP

/-- In reset, a command that runs f completes and changes nothing (R488). -/
theorem completes_reset (c : Instr) (s : State) (f : Dev → Dev) (he : exec c s = s.run f) (hr : s.dev.boot.inReset = true) :
    Completes c s fun t => t = s :=
  ⟨_, he.trans (State.run_reset s f hr), rfl⟩

/-- One move of the error log: nothing changes, or the oldest record leaves the FIFO and is one of at most four of its tick (R426). -/
theorem Dev.ringStep_cases (d : Dev) :
    d.ringStep = d ∨ ∃ r l, d.log.fifo = r :: l ∧ d.ringRoom = true ∧ d.log.moved < 4 ∧ d.ringStep.log.fifo = l ∧
      d.ringStep.log.moved = d.log.moved + 1 := by
  unfold Dev.ringStep
  split
  · exact .inl rfl
  · rename_i r l h
    split
    · rename_i hr
      simp only [Bool.and_eq_true, decide_eq_true_eq] at hr
      exact .inr ⟨r, l, h, hr.1, hr.2, rfl, rfl⟩
    · exact .inl rfl

end Sys2Proof.Machine
end

