-- ==== Sys2Proof/Laws/Memory.lean ====
section
/-! SUPPORT. Laws of the bytes of memory: a read after a write, the bytes that a write leaves alone, and the canonical form, which
every operation over memory keeps. -/

namespace Sys2Proof.Machine

open Sys2Proof

/-- Memory after reset is in canonical form. -/
theorem Memory.wf_nil : Memory.wf [] = true := rfl

/-- Every write of bytes keeps the canonical form. -/
theorem Memory.wf_poke (m : List Host.Cell) (a : Nat) (l : List Byte) (h : Memory.wf m = true) : Memory.wf (poke m a l) = true := by
  induction l generalizing m a with
  | nil => exact h
  | cons b r ih => exact ih _ _ (Tab.wf_set blankByte m a b h)

/-- Taking entries out keeps the canonical form. -/
theorem Memory.wf_filter (m : List Host.Cell) (p : Host.Cell → Bool) (h : Memory.wf m = true) : Memory.wf (m.filter p) = true := by
  induction m with
  | nil => exact h
  | cons q r ih =>
    obtain ⟨j, v⟩ := q
    obtain ⟨hv, ha, hr⟩ := (Tab.wf_cons blankByte j v r).mp h
    simp only [List.filter_cons]
    split
    · exact (Tab.wf_cons _ _ _ _).mpr ⟨hv, fun q hq => ha q (List.mem_filter.mp hq).1, ih hr⟩
    · exact ih hr

/-- A read after a write of bytes: the byte written where the write reaches, and what stood there everywhere else. -/
theorem Memory.get_poke (m : List Host.Cell) (a : Nat) (l : List Byte) (j : Nat) :
    Tab.get blankByte (poke m a l) j = if h : a ≤ j ∧ j < a + l.length then l[j - a]'(by omega) else Tab.get blankByte m j := by
  induction l generalizing m a with
  | nil =>
    have h : ¬ (a ≤ j ∧ j < a) := by omega
    simp [poke, h]
  | cons b r ih =>
    simp only [poke, ih, Tab.get_set, List.length_cons]
    by_cases h1 : j = a
    · subst h1
      have h2 : ¬ (j + 1 ≤ j ∧ j < j + 1 + r.length) := by omega
      simp [h2]
    · by_cases h2 : a + 1 ≤ j ∧ j < a + 1 + r.length
      · have h3 : a ≤ j ∧ j < a + (r.length + 1) := by omega
        have h4 : j - a = (j - (a + 1)) + 1 := by omega
        simp [h2, h3, h4]
      · have h3 : ¬ (a ≤ j ∧ j < a + (r.length + 1)) := by omega
        rw [dif_neg h2, dif_neg h3, if_neg h1]

@[simp] theorem Dev.memPut_mem (d : Dev) (a : Nat) (l : List Byte) : (d.memPut a l).mem.mem = poke d.mem.mem a l := rfl

/-- A byte within a write reads as the byte written. -/
theorem Dev.byte_memPut_in (d : Dev) (a : Nat) (l : List Byte) (i : Nat) (h : i < l.length) : (d.memPut a l).byte (a + i) = l[i] := by
  have h1 : a ≤ a + i ∧ a + i < a + l.length := by omega
  simp [Dev.byte, Memory.get_poke, h1]

/-- A byte outside a write reads as before. -/
theorem Dev.byte_memPut_out (d : Dev) (a : Nat) (l : List Byte) (j : Nat) (h : j < a ∨ a + l.length ≤ j) :
    (d.memPut a l).byte j = d.byte j := by
  have h1 : ¬ (a ≤ j ∧ j < a + l.length) := by omega
  simp [Dev.byte, Memory.get_poke, h1]

/-- A write of bytes keeps the canonical form of the device's memory. -/
theorem Dev.wf_memPut (d : Dev) (a : Nat) (l : List Byte) (h : Memory.wf d.mem.mem = true) : Memory.wf (d.memPut a l).mem.mem = true :=
  Memory.wf_poke _ _ _ h

end Sys2Proof.Machine
end

