-- ==== Sys2Proof/Laws/Threads.lean ====
section
/-! SUPPORT. What operations on threads do to registers, predicates and other threads, and what a ready Limoon instruction does when it
issues. -/

namespace Sys2Proof.Machine

open Sys2Proof

/-! Threads of the device -/

@[simp] theorem Dev.thr_setThr (d : Dev) (t : Nat) (x : Thread) : (d.setThr t x).thr t = x := Tab.get_set_same _ _ _ _
theorem Dev.thr_setThr_ne (d : Dev) {t u : Nat} (x : Thread) (h : u ≠ t) : (d.setThr t x).thr u = d.thr u := Tab.get_set_ne _ _ _ h
@[simp] theorem Dev.thr_updThr (d : Dev) (t : Nat) (f : Thread → Thread) : (d.updThr t f).thr t = f (d.thr t) := Tab.get_set_same _ _ _ _
theorem Dev.thr_updThr_ne (d : Dev) {t u : Nat} (f : Thread → Thread) (h : u ≠ t) : (d.updThr t f).thr u = d.thr u := Tab.get_set_ne _ _ _ h
@[simp] theorem Dev.thr_counted (d : Dev) (t : Nat) : (d.counted t).thr t = { d.thr t with instret := (d.thr t).instret + 1 } :=
  Tab.get_set_same _ _ _ _
theorem Dev.thr_counted_ne (d : Dev) {t u : Nat} (h : u ≠ t) : (d.counted t).thr u = d.thr u := Tab.get_set_ne _ _ _ h

/-- e differs from d at most in its threads and in the counts of instructions issued. -/
def Dev.Threads (d e : Dev) : Prop := ∃ a b, e = { d with shl := { d.shl with threads := a, issued := b } }

theorem Dev.threads_refl (d : Dev) : Dev.Threads d d := ⟨d.shl.threads, d.shl.issued, rfl⟩
theorem Dev.threads_trans {a b c : Dev} (h : Dev.Threads a b) (k : Dev.Threads b c) : Dev.Threads a c := by
  obtain ⟨x, y, rfl⟩ := h; obtain ⟨z, w, rfl⟩ := k; exact ⟨z, w, rfl⟩
theorem Dev.threads_setThr (d : Dev) (t : Nat) (x : Thread) : Dev.Threads d (d.setThr t x) := ⟨_, d.shl.issued, rfl⟩
theorem Dev.threads_updThr (d : Dev) (t : Nat) (f : Thread → Thread) : Dev.Threads d (d.updThr t f) := Dev.threads_setThr d t _
theorem Dev.threads_counted (d : Dev) (t : Nat) : Dev.Threads d (d.counted t) := ⟨_, _, rfl⟩

/-! Registers and predicates of a thread -/

/-- g0 reads as zero (R172). -/
@[simp] theorem Thread.reg_zero (x : Thread) : x.reg 0 = 0 := by simp [Thread.reg]

/-- A register after a write: the value written, unless it is g0. -/
@[simp] theorem Thread.reg_setReg (x : Thread) (r : BitVec 5) (v : Word) : (x.setReg r v).reg r = if r = 0 then 0 else v := by
  by_cases h : r = 0#5 <;> simp [Thread.reg, Thread.setReg, h]

theorem Thread.reg_setReg_ne (x : Thread) {r q : BitVec 5} (v : Word) (h : q ≠ r) : (x.setReg r v).reg q = x.reg q := by
  have hn : q.toNat ≠ r.toNat := fun e => h (BitVec.eq_of_toNat_eq e)
  by_cases hr : r = 0#5
  · simp [Thread.setReg, hr]
  · by_cases hq : q = 0#5
    · simp [Thread.reg, hq]
    · simp [Thread.reg, Thread.setReg, hr, hq, Tab.get_set, hn]

/-- p0 reads as 1. -/
@[simp] theorem Thread.pred_zero (x : Thread) : x.pred 0 = true := by simp [Thread.pred]

theorem Thread.testBit_mask (p q : BitVec 3) : (255 - 2 ^ p.toNat).testBit q.toNat = decide (q ≠ p) := by
  revert p q; decide

@[simp] theorem Thread.pred_setPred (x : Thread) (p : BitVec 3) (b : Bool) : (x.setPred p b).pred p = (p = 0 || b) := by
  by_cases h : p = 0#3
  · simp [Thread.pred, h]
  · cases b <;> simp [Thread.pred, Thread.setPred, h, Nat.testBit_or, Nat.testBit_and, Thread.testBit_mask, Nat.testBit_two_pow_self]

theorem Thread.pred_setPred_ne (x : Thread) {p q : BitVec 3} (b : Bool) (h : q ≠ p) : (x.setPred p b).pred q = x.pred q := by
  have hn : ¬ p.toNat = q.toNat := fun e => h (BitVec.eq_of_toNat_eq e.symm)
  by_cases hp : p = 0#3
  · simp [Thread.setPred, hp]
  · cases b
    · simp [Thread.pred, Thread.setPred, hp, Nat.testBit_and, Thread.testBit_mask, h]
    · simp [Thread.pred, Thread.setPred, hp, Nat.testBit_or, Nat.testBit_two_pow_of_ne hn]

/-! Writing one register or predicate as an instruction does -/

theorem wroteReg_setReg (x : Thread) (r : BitVec 5) (v : Word) (pc : Nat) :
    WroteReg x { ({ x with instret := x.instret + 1 } : Thread).setReg r v with pc := pc } pc r v := by
  refine ⟨?_, ?_, rfl, ?_, ?_, ?_⟩
  · exact Thread.reg_setReg { x with instret := x.instret + 1 } r v
  · intro q h; exact Thread.reg_setReg_ne { x with instret := x.instret + 1 } v h
  · unfold Thread.setReg; split <;> rfl
  · unfold SameAccesses Thread.setReg
    split
    · rfl
    · simp only [List.map_map]
      apply List.map_congr_left
      intro a _
      simp only [Function.comp_apply]
      split <;> rfl
  · unfold Thread.setReg; split <;> rfl

theorem Thread.setReg_nextPc (x : Thread) (r : BitVec 5) (v : Word) : (x.setReg r v).nextPc = x.nextPc := by
  unfold Thread.setReg; split <;> rfl

theorem wroteReg_step1 (x : Thread) (r : BitVec 5) (v : Word) :
    WroteReg x (({ x with instret := x.instret + 1 } : Thread).setReg r v).step1 x.nextPc r v := by
  have e : ∀ y : Thread, y.nextPc = x.nextPc → y.step1 = { y with pc := x.nextPc } := fun y h => by rw [Thread.step1, h]
  rw [e (({ x with instret := x.instret + 1 } : Thread).setReg r v) (Thread.setReg_nextPc { x with instret := x.instret + 1 } r v)]
  exact wroteReg_setReg x r v x.nextPc

theorem wrotePred_setPred (x : Thread) (p : BitVec 3) (b : Bool) :
    WrotePred x (({ x with instret := x.instret + 1 } : Thread).setPred p b).step1 p b := by
  refine ⟨?_, ?_, ?_, ?_, ?_⟩
  · exact Thread.pred_setPred { x with instret := x.instret + 1 } p b
  · intro q h; exact Thread.pred_setPred_ne { x with instret := x.instret + 1 } b h
  · unfold Thread.setPred; split <;> rfl
  · unfold Thread.setPred; split <;> rfl
  · unfold Thread.setPred; split <;> rfl

/-! Issue -/

theorem Dev.settleAcc_none (d : Dev) (t : Nat) (op : LimOp) (l : List MemAcc) (h : ∀ a ∈ l, (d.thr t).blockedBy op a = false) :
    d.settleAcc t op l = (d, false) := by
  induction l with
  | nil => rfl
  | cons a r ih =>
    have ha : (d.thr t).blockedBy op a = false := h a (by simp)
    simp [Dev.settleAcc, ha, ih (fun b hb => h b (by simp [hb]))]

theorem Dev.passFences_none (d : Dev) (t : Nat) (h : (d.thr t).fences = []) : d.passFences t = d := by simp [Dev.passFences, h]

/-- A ready, legal instruction issues without waiting: with a false guard it is counted and no more; without the level it needs it raises
PRIVILEGE; else it is performed, or raises its exception. -/
theorem Dev.limoon_ready (s : State) (i : Issue) (op : LimOp) (h : Ready s i op) (prev : Dev) (hl : limLegal op = true)
    (hg : (i.n && i.p == 0) = false) :
    Dev.limoon prev s.dev i op =
      (if !(s.dev.thr i.th.toNat).guard i.n i.p then (s.dev.counted i.th.toNat).onward i.th.toNat
       else if limPrivileged op && !(s.dev.thr i.th.toNat).priv then s.dev.takePrecise i.th.toNat 2 0 0
       else match Dev.perform prev (s.dev.counted i.th.toNat) i.th.toNat op with
         | .ok d => d
         | .error (num, k, a) =>
           (match num == 6, (s.dev.thr i.th.toNat).chanOf op with
            | true, some ch => s.dev.misuse ch
            | _, _ => s.dev).takePrecise i.th.toNat num k a) := by
  obtain ⟨_, hm, hf, hn, hr⟩ := h
  have hb : ∀ a ∈ (s.dev.thr i.th.toNat).loads, (s.dev.thr i.th.toNat).blockedBy op a = false := by
    intro a ha
    simp only [Dev.ready, Bool.and_eq_true, Bool.not_eq_true', List.any_eq_false] at hr
    simpa using hr.1.1.1.1 a ha
  unfold Dev.limoon Dev.issueLegal
  simp only [hm, hf, hl, hg, Dev.settleAcc_none _ _ _ _ hb, Dev.passFences_none _ _ hn, hr, Bool.not_true, Bool.or_false,
    Bool.false_eq_true, if_false]
  all_goals rfl

/-- An instruction that issues is performed, or raises its exception. -/
theorem Dev.limoon_issues (s : State) (i : Issue) (op : LimOp) (h : Issues s i op) (prev : Dev) :
    Dev.limoon prev s.dev i op =
      (match Dev.perform prev (s.dev.counted i.th.toNat) i.th.toNat op with
       | .ok d => d
       | .error (num, k, a) =>
         (match num == 6, (s.dev.thr i.th.toNat).chanOf op with
          | true, some ch => s.dev.misuse ch
          | _, _ => s.dev).takePrecise i.th.toNat num k a) := by
  obtain ⟨hr, hl, hg, hgd, hp⟩ := h
  rw [Dev.limoon_ready s i op hr prev hl hg]
  have : (limPrivileged op && !(s.dev.thr i.th.toNat).priv) = false := by
    cases hq : limPrivileged op <;> simp [hp, hq]
  simp [hgd, this]

/-- The command of a Limoon instruction issues it, with the device as the last tick left it for what reads the past. -/
theorem exec_issued (c : Instr) (i : Issue) (op : LimOp) (s : State) (h : c.issued = some (i, op)) :
    exec c s = s.run fun d => Dev.limoon s.prev d i op := by
  cases c <;> simp only [Instr.issued, Option.some.injEq, Prod.mk.injEq, reduceCtorEq] at h <;> obtain ⟨rfl, rfl⟩ := h <;> rfl

/-- A Limoon instruction that issues and is performed completes, with what it performs. -/
theorem completes_issued (c : Instr) (i : Issue) (op : LimOp) (s : State) (hc : c.issued = some (i, op)) (h : Issues s i op) (d : Dev)
    (hd : Dev.perform s.prev (s.dev.counted i.th.toNat) i.th.toNat op = .ok d) (P : State → Prop) (hP : P { s with dev := d }) :
    Completes c s P := by
  refine ⟨{ s with dev := d }, ?_, hP⟩
  rw [exec_issued c i op s hc, State.run_live _ _ h.1.1, Dev.limoon_issues s i op h, hd]

/-- A change of one thread, with a count on its core, is a change of that thread alone. -/
theorem onlyThread_of (s t : State) (th : Nat) (d : Dev) (ht : t = { s with dev := d })
    (h1 : ∀ u, u ≠ th → d.thr u = s.dev.thr u)
    (h2 : Dev.Threads s.dev d) : OnlyThread th s t := by
  subst ht
  obtain ⟨a, b, rfl⟩ := h2
  exact ⟨h1, rfl⟩

/-- What put1 after counted does: one register, in one thread. -/
theorem put1_counted (s : State) (th : Nat) (r : BitVec 5) (v : Word) :
    OnlyThread th s { s with dev := (s.dev.counted th).put1 th r v } ∧
    WroteReg (s.dev.thr th) (((s.dev.counted th).put1 th r v).thr th) (s.dev.thr th).nextPc r v := by
  constructor
  · refine onlyThread_of s _ th _ rfl (fun u h => ?_) (Dev.threads_trans (Dev.threads_counted _ _) (Dev.threads_updThr _ _ _))
    rw [Dev.put1, Dev.thr_updThr_ne _ _ h, Dev.thr_counted_ne _ h]
  · rw [Dev.put1, Dev.thr_updThr, Dev.thr_counted]
    exact wroteReg_step1 (s.dev.thr th) r v

/-- What putP after counted does: one predicate, in one thread. -/
theorem putP_counted (s : State) (th : Nat) (p : BitVec 3) (b : Bool) :
    OnlyThread th s { s with dev := (s.dev.counted th).putP th p b } ∧
    WrotePred (s.dev.thr th) (((s.dev.counted th).putP th p b).thr th) p b := by
  constructor
  · refine onlyThread_of s _ th _ rfl (fun u h => ?_) (Dev.threads_trans (Dev.threads_counted _ _) (Dev.threads_updThr _ _ _))
    rw [Dev.putP, Dev.thr_updThr_ne _ _ h, Dev.thr_counted_ne _ h]
  · rw [Dev.putP, Dev.thr_updThr, Dev.thr_counted]
    exact wrotePred_setPred (s.dev.thr th) p b

/-- What an instruction performs once it issues, from what perform answers. -/
theorem performs_of (c : Instr) (i : Issue) (op : LimOp) (P : Nat → State → State → Prop) (hc : c.issued = some (i, op))
    (hp : ∀ s, Issues s i op → ∃ d, Dev.perform s.prev (s.dev.counted i.th.toNat) i.th.toNat op = .ok d ∧
      P i.th.toNat s { s with dev := d }) : Performs c P := by
  unfold Performs
  rw [hc]
  intro s h
  obtain ⟨d, hd, hP⟩ := hp s h
  exact completes_issued c i op s hc h d hd _ hP

/-- An instruction that does no more than write a register. -/
theorem writes_of (c : Instr) (i : Issue) (op : LimOp) (r : BitVec 5) (v : Thread → Word) (hc : c.issued = some (i, op))
    (hv : ∀ (x : Thread) n, v { x with instret := n } = v x)
    (hp : ∀ prev d t, Dev.perform prev d t op = .ok (d.put1 t r (v (d.thr t)))) : Writes c r v := by
  refine performs_of c i op _ hc fun s _ => ⟨_, hp _ _ _, ?_⟩
  rw [Dev.thr_counted, hv]
  exact put1_counted s i.th.toNat r _

/-- An instruction that does no more than write a predicate. -/
theorem decides_of (c : Instr) (i : Issue) (op : LimOp) (p : BitVec 3) (v : Thread → Bool) (hc : c.issued = some (i, op))
    (hv : ∀ (x : Thread) n, v { x with instret := n } = v x)
    (hp : ∀ prev d t, Dev.perform prev d t op = .ok (d.putP t p (v (d.thr t)))) : Decides c p v := by
  refine performs_of c i op _ hc fun s _ => ⟨_, hp _ _ _, ?_⟩
  rw [Dev.thr_counted, hv]
  exact putP_counted s i.th.toNat p _

end Sys2Proof.Machine
end

