-- ==== Sys2Proof/Tests/Slice0.lean ====
section
/-! SUPPORT. Tests: ill-formed commands, words of the spec, and for the statements states and operands that meet their hypotheses. -/

namespace Sys2Proof.Tests

open Sys2Proof Sys2Proof.Machine

set_option Elab.async false

/-- Reset, with the device changed by f. -/
def on (f : Dev → Dev) : State := { State.reset with dev := f Dev.reset }

theorem live_reset : Live State.reset := rfl

/-! Limoon instructions: states in which they issue -/

/-- Reset, with thread 0 as x and the firewall regions l. -/
def withThread (x : Thread) (l : List FwRegion := []) : State :=
  { State.reset with dev := { Dev.reset with shl := { Dev.reset.shl with threads := [(0, x)] }, mem := { Dev.reset.mem with regions := l } } }

/-- A thread that runs in the SRAM of shoal 0, with g1 holding v, g2 w. -/
def runner (v : Nat := 0x30000001000) (w : Nat := 0) : Thread :=
  { st := 1, pc := 0x30000000000, regs := [(1, BitVec.ofNat 64 v), (2, BitVec.ofNat 64 w)] }

/-- Thread 0 with a guard that is true. -/
def i0 : Issue := { th := 0 }

/-- The command c is of an operation that issues at s. -/
def CanIssue (c : Instr) (s : State) : Prop := ∃ i op, c.issued = some (i, op) ∧ Issues s i op

/-- Every Limoon instruction issues in some state (O1 to O9, O12, O13): its fields are legal, the guard true, the thread privileged. -/
theorem wit_issues : ∀ op ∈ ([.alu .add false 3 1 2, .alu .sub true 3 1 2, .alu .clz false 3 1 0, .mul .mul true 3 1 2, .mul .mulhu false 3 1 2,
    .mul .div true 3 1 2, .imm .add 3 1 0x800, .shfi .sra true 3 1 31, .shfi .ror false 3 1 63, .lim 3 0x10000, .shi 3 0xFFFF, .cmp .any 1 1 2,
    .cmpi .lt 7 1 0x400, .plog .andn 3 0 0, .plog .mov 1 2 0, .load .d false 3 1 0, .load .w true 0 1 4, .store .b 2 1 0xFFF, .ldx .h true 3 3 1 2,
    .stx .d 0 2 1 0, .atom .cas true 3 3 1 2, .br 0x3FFFFE, .call 1, .jmpr 1, .callr 31, .fence 31, .dcinv 1, .dcinvall, .icinv, .trap 31, .brk,
    .xret, .stop, .mfs 3 0x003, .mts 1 0x008, .chPut 2 1, .chSeal 1 2, .chTry 1 2, .chGet 1 3 2 8, .dlchk 3 1 2, .dlleft 3 1, .pwOpen true 3 1,
    .pwClose false, .pwFree 1, .eng .book 3 1 2, .eng .movSub 3 1 2] : List LimOp), Issues (withThread runner) i0 op := by
  simp only [Issues, Ready, Live]; decide +kernel

/-- Loads (O5): from SRAM, from a poisoned line, outside the grants, from a host window. -/
theorem wit_loads :
    (Reaches (withThread runner).dev 0 0x30000001000 8 .read ∧ Answers (withThread runner).dev 0 0x30000001000) ∧
    (withThread runner).dev.threadGrant 0 0x30000400000 8 .read ≠ .granted ∧
    (withThread runner).dev.threadGrant 0 0x30004000000 8 .read ≠ .granted ∧
    (Reaches (withThread runner [⟨0x40000000000, 0x44000000000, 0, 0, 1, true, true, true⟩]).dev 0 0x43FFFFFFFF8 8 .read ∧
      ∃ tid off, (withThread runner).dev.place 0x43FFFFFFFF8 = .host tid off) := by
  refine ⟨⟨by unfold Reaches; decide +kernel, .inl ⟨0, by decide +kernel⟩⟩, by decide +kernel, by decide +kernel,
    by unfold Reaches; decide +kernel, 0, 0x3FFFFFFFF8, by decide +kernel⟩

/-- A load of 2 bytes that is outstanding, with its data or without. -/
def anAccess (back : Option Nat) : MemAcc :=
  ⟨7, 0, 3, 2, true, false, 0, none, back, false, false, none⟩

/-- LOAD_RETURN (O5): an access that has its data, and one without an answer. -/
theorem wit_load_returns :
    (Live (withThread { runner with loads := [anAccess (some 0x8000)] }) ∧
      ((withThread { runner with loads := [anAccess (some 0x8000)] }).dev.thr 0).loads.find? (fun a => a.id == 7) = some (anAccess (some 0x8000))) ∧
    ((withThread { runner with loads := [anAccess none] }).dev.thr 0).loads.find? (fun a => a.id == 7) = some (anAccess none) := by
  unfold Live; decide +kernel

/-- Stores and atomics (O6): to SRAM without poison, to a host window, to control space, outside the grants. -/
theorem wit_stores :
    (Reaches (withThread runner).dev 0 0x300003FFFF8 8 .write ∧ (withThread runner).dev.place 0x300003FFFF8 = .sram 0 ∧
      (withThread runner).dev.partialPoison 0x300003FFFF8 8 = none ∧ (withThread runner).dev.anyPoison 0x300003FFFF8 8 = false ∧
      Reaches (withThread runner).dev 0 0x300003FFFF8 8 .read) ∧
    Reaches (withThread runner [⟨0x40000000000, 0x44000000000, 0, 0, 1, true, true, true⟩]).dev 0 0x40000000000 8 .write ∧
    (withThread runner).dev.threadGrant 0 0x30000400000 8 .write ≠ .granted := by
  unfold Reaches; decide +kernel

theorem wit_store_control :
    let s : State := { withThread runner with dev := { (withThread runner).dev with regs :=
      { cur := [], force := [((Reg.MEM_FW_CTL 0).key, 1)], waiting := [], hot := [], cleared := [] } } }
    Reaches s.dev 0 0x3F000000008 8 .write ∧ s.dev.place 0x3F000000008 = .control 8 := by
  unfold Reaches; decide +kernel

/-- Where an instruction traps (O10): an illegal encoding, a user thread at a privileged instruction, a fetch that faults, a target and an address
that are not aligned, and user accesses to control space and outside the ranges. -/
theorem wit_traps :
    limLegal (.mfs 3 0x004) = false ∧ limLegal (.alu .ror true 3 1 2) = false ∧
    (withThread { runner with pc := 0x30004000000 }).dev.fetchFault 0 = some 5 ∧
    (Ready (withThread { runner with priv := false, ranges := [(0, 0x30000000000), (1, 0x30000002000)] }) i0 .xret ∧
      limPrivileged .xret = true) ∧
    (Issues (withThread (runner 0x30000000002)) i0 (.jmpr 1) ∧ 0x30000000002 % 4 ≠ 0) ∧
    (Issues (withThread (runner 0x30000000FFF)) i0 (.load .h false 3 1 0) ∧ 0x30000000FFF % sizeBytes .h ≠ 0) ∧
    (withThread { runner with priv := false }).dev.userFault 0 0x3F000000000 8 = some 3 ∧
    (withThread { runner with priv := false }).dev.userFault 0 0x30000001000 8 = some 4 := by
  simp only [Issues, Ready, Live]; decide +kernel

/-- A false guard (O11). -/
theorem wit_false_guard :
    Ready (withThread runner) { th := 0, p := 5 } (.alu .add false 3 1 2) ∧ (runner).guard false 5 = false ∧ limLegal (.alu .add false 3 1 2) = true := by
  simp only [Ready, Live]; decide +kernel
/-! Control space and Tide -/

/-- Register writes (O14): a size, a place and a right that are refused, and what the writes that are taken need. -/
theorem wit_register_writes :
    ((3 : BitVec 4).toNat ≠ 4 ∧ (3 : BitVec 4).toNat ≠ 8) ∧ (0x10004 : BitVec 28).toNat % 8 ≠ 0 ∧ 0xE00000 ≤ (0xFFFFFF8 : BitVec 28).toNat ∧
    (0xAFFFF8 : BitVec 28).toNat < 0xB00000 ∧ State.reset.dev.mayWrite (.thread 0) 0xA00008 = false ∧ State.reset.dev.mayWrite .oob 0x10040 = false ∧
    State.reset.dev.mayWrite .headland 0x10040 = false ∧ State.reset.dev.mayWrite .steward 0x10020 = true ∧ State.reset.dev.regs.hot = [] := by
  decide +kernel

/-- Counters (O14): no event of this tick stands against the clear. -/
theorem wit_counter_reads : Live State.reset ∧ State.reset.dev.regs.hot = [] ∧ State.reset.dev.regs.cleared = [] := ⟨rfl, rfl, rfl⟩

/-- Measurements (O15): at the limit of 256 ns and beyond it, before and after release; edges. -/
theorem wit_tide_measurements :
    let s := on fun d => d.put Reg.TIDE_CONTROL_SOURCE 1
    let r := on fun d => (d.put Reg.TIDE_CONTROL_SOURCE 1).put Reg.HDL_CONTROL_BWK_RELEASE 1
    let p := on fun d => { d.put Reg.TIDE_CONTROL_SOURCE 2 with servo := { d.servo with ppsLast := some 65536 } }
    Live s ∧ s.dev.mayWrite .steward 0x10028 = true ∧ s.dev.clk.stepTick = false ∧ s.dev.inF Reg.TIDE_CONTROL_SOURCE = 1 ∧
    s.dev.inF Reg.TIDE_LIMITS_STEP_LIMIT = 1000 ∧
    WithinLimit s.dev (1000 * 65536) ∧ ¬ WithinLimit s.dev (1000 * 65536 + 1) ∧ s.dev.inF Reg.HDL_CONTROL_BWK_RELEASE = 0 ∧
    Live r ∧ r.dev.inF Reg.HDL_CONTROL_BWK_RELEASE ≠ 0 ∧ ¬ WithinLimit r.dev (-1000 * 65536 - 1) ∧
    Live p ∧ p.dev.inF Reg.TIDE_CONTROL_SOURCE = 2 ∧ (∀ l, p.dev.servo.ppsLast = some l → l + 500000000 * 65536 ≤ 1000000000 * 65536) ∧
    WithinLimit p.dev (1 * (1000000000 * 65536) - 1000000000 * 65536) ∧ (65536 : Nat) < 65536 + 500000000 * 65536 := by
  refine ⟨rfl, ?_, ?_, ?_, ?_, ?_, ?_, ?_, rfl, ?_, ?_, rfl, ?_, ?_, ?_, ?_⟩ <;> (try unfold WithinLimit) <;> first | decide +kernel | skip

/-- The source timeout at the tick where it runs out, and a load of Tide time by right (O15). -/
theorem wit_tide_pins :
    let s := on fun d => { d.put Reg.TIDE_STATUS_STATE 1 with clk := { d.clk with tide := 3000000000 } }
    Live s ∧ s.dev.rd Reg.TIDE_STATUS_STATE = 1 ∧
    s.dev.servo.timeoutFrom + s.dev.inF Reg.TIDE_LIMITS_SOURCE_TIMEOUT * 1000000 = s.dev.clk.tide ∧ s.dev.mayWrite .steward 0x10060 = true := by
  refine ⟨rfl, ?_, ?_, ?_⟩ <;> decide +kernel

/-- The forced step (O16): before a request, requested, held, and in the step tick. -/
theorem wit_forced_step :
    (State.reset.dev.rd Reg.TIDE_STATUS_ADMIT_HOLD = 0 ∧ State.reset.dev.clk.stepTick = false) ∧
    (on fun d => d.put Reg.TIDE_STATUS_ADMIT_HOLD 1).dev.rd Reg.TIDE_STATUS_ADMIT_HOLD ≠ 0 ∧
    (let s := on fun d => { d with clk := { d.clk with due := [.stepHold] }, servo := { d.servo with phase := .requested } }
     Live s ∧ .stepHold ∈ s.dev.clk.due ∧ s.dev.servo.phase = .requested) ∧
    (let s := on fun d => { d with clk := { d.clk with due := [.stepApply] }, servo := { d.servo with phase := .holding } }
     Live s ∧ .stepApply ∈ s.dev.clk.due ∧ s.dev.servo.phase = .holding) := by
  unfold Live; decide +kernel

/-- Boundaries that are due (O16). -/
theorem wit_boundaries :
    let s := on fun d => { d with clk := { d.clk with slotDue := true, epochDue := true, reqSlot := [.gatePend 1], reqEpoch := [.fwCheck] } }
    Live s ∧ s.dev.clk.slotDue = true ∧ s.dev.clk.epochDue = true := by
  unfold Live; decide +kernel

/-! Strand, fuses and the start -/

/-- Strand writes (O17): by region, of a writable word, a worn one, and during a power failure; a write that waits. -/
theorem wit_strand :
    (State.reset.dev.strandRegion .steward 0x200 = true ∧ State.reset.dev.strandRegion .steward 0x1FF = false ∧
      State.reset.dev.strandRegion .headland 0x0FF = true ∧ State.reset.dev.strandRegion .headland 0x100 = false ∧
      Writable State.reset.dev 0x200 ∧ State.reset.dev.strandRead 0x200 < 2 ^ 64) ∧
    100000000 ≤ Tab.get 0 (on fun d => { d with boot := { d.boot with wear := [(0x200, 100000000)] } }).dev.boot.wear 0x200 ∧
    (on fun d => { d with boot := { d.boot with pfTodo := [(0x10, 0)] } }).dev.boot.pfTodo ≠ [] ∧
    (on fun d => { d with boot := { d.boot with strandQ := [⟨0x200, 5, false, 0, none⟩] } }).dev.boot.strandQ = [⟨0x200, 5, false, 0, none⟩] := by
  unfold Writable; decide +kernel

/-- Power failure (O17): armed and not. -/
theorem wit_power_fail :
    Writable State.reset.dev 0x010 ∧ State.reset.dev.boot.holdArmed = false ∧
    (on fun d => { d with boot := { d.boot with holdArmed := true } }).dev.boot.holdArmed = true := by
  unfold Writable; decide +kernel

/-- Fuse commits (O18): none runs, confirmed, with the condition met and not; a blow that runs, of each kind. -/
theorem wit_fuses :
    let s := on fun d => (d.put Reg.HDL_STATUS_BOOT_CONFIRMED 1).put Reg.HDL_IMAGE_HDL_SVN 1
    Live s ∧ s.dev.boot.fuseJob = none ∧ s.dev.rd Reg.HDL_STATUS_BOOT_CONFIRMED ≠ 0 ∧ s.dev.boot.hdlCount < s.dev.rd Reg.HDL_IMAGE_HDL_SVN ∧
    ¬ s.dev.boot.shlCount < s.dev.rd Reg.HDL_IMAGE_SHL_SVN ∧ State.reset.dev.rd Reg.HDL_STATUS_BOOT_CONFIRMED = 0 ∧
    (∀ w, w < 3 → (on fun d => { d with boot := { d.boot with fuseJob := some (w, 1) } }).dev.boot.fuseJob = some (w, 1)) := by
  refine ⟨rfl, rfl, ?_, ?_, ?_, rfl, fun _ _ => rfl⟩ <;> decide +kernel

/-- BOOT_SELECT (O18): no slot, and slot A or B first. Whether a bundle verifies rests on its signatures, which are opaque; that one does not
verify is met by an empty one. -/
theorem wit_boot_choice :
    let s := on fun d => d.put Reg.HDL_STATUS_STAGE 3
    let t := on fun d => { d.put Reg.HDL_STATUS_STAGE 3 with boot := { d.boot with strand := [(0, 512), (1, 258)] } }
    (Live s ∧ s.dev.rd Reg.HDL_STATUS_STAGE = 3 ∧ s.dev.boot.bootSrc = false ∧ ∀ w, w < 2 → Tab.get 0 s.dev.boot.strand w < 256) ∧
    (Live t ∧ t.dev.rd Reg.HDL_STATUS_STAGE = 3 ∧ 256 ≤ Tab.get 0 t.dev.boot.strand 0 ∧
      Tab.get 0 t.dev.boot.strand (1 - 0) / 256 < Tab.get 0 t.dev.boot.strand 0 / 256 + (1 - 0) ∧ Tab.get 0 t.dev.boot.strand 0 % 256 < 3 ∧
      256 ≤ Tab.get 0 t.dev.boot.strand (1 - 0) ∧ t.dev.verifyBundle (t.dev.flashSlot 0) = some 1) := by
  unfold Live; refine ⟨⟨rfl, ?_, rfl, ?_⟩, rfl, ?_, ?_, ?_, ?_, ?_, rfl⟩ <;> decide +kernel

/-- Transfers (O18): right and wrong stages, lengths at both ends, a bundle that does not verify, and an update that ends. -/
theorem wit_transfers :
    let s := on fun d => ((d.put Reg.HDL_STATUS_STAGE 0x0E).put (Reg.HST_TEN_BME 0) 1).put (Reg.HST_LINK_LINK_UP 0) 1
    s.dev.mayIssue 0 = true ∧ State.reset.dev.mayIssue 0 = false ∧ Live s ∧ s.dev.rd Reg.HDL_XFER_CTL_BUSY = 0 ∧ s.dev.rd Reg.HDL_STATUS_STAGE = 0x0E ∧ State.reset.dev.rd Reg.HDL_STATUS_STAGE = 1 ∧
    64 ≤ (64 : BitVec 28).toNat ∧ (0x4000000 : BitVec 28).toNat ≤ 67108864 ∧ ¬ (0x4000001 : BitVec 28).toNat ≤ 67108864 ∧
    ¬ 64 ≤ (63 : BitVec 28).toNat ∧ s.dev.verifyBundle ((List.replicate 64 (0 : Byte)).take 64) = some 1 ∧
    (on fun d => { d with boot := { d.boot with updates := [⟨.xfer, [], true⟩] } }).dev.boot.updates = [⟨.xfer, [], true⟩] ∧
    s.dev.verifyBundle [] = some 1 := by
  refine ⟨?_, ?_, rfl, ?_, ?_, ?_, ?_, ?_, ?_, ?_, rfl, ?_, rfl⟩ <;> decide +kernel

/-- The start (O19): CONFIGURE at its stage, a confirmed slot, the release, and shoals that are and are not fit. -/
theorem wit_start :
    let c := on fun d => d.put Reg.HDL_STATUS_STAGE 6
    let r := on fun d => { (d.put Reg.HDL_CONTROL_KEY_LOCK 1).put Reg.MEM_TRAIN_DONE 1 with boot := { d.boot with bistA := some true, bistB := some false } }
    let b := on fun d => { d with mon := { d.mon with bist := some 15 } }
    (c.dev.rd Reg.HDL_STATUS_STAGE = 6 ∧ c.dev.boot.identityKey = false) ∧ State.reset.dev.rd Reg.HDL_STATUS_STAGE ≠ 6 ∧
    (∀ a, a < 2 → Writable State.reset.dev a) ∧ State.reset.dev.rd Reg.HDL_STATUS_ACTIVE_SLOT = 3 ∧
    (on fun d => d.put Reg.HDL_STATUS_ACTIVE_SLOT 1).dev.rd Reg.HDL_STATUS_ACTIVE_SLOT = 1 ∧
    (Live r ∧ r.dev.inF Reg.HDL_CONTROL_KEY_LOCK ≠ 0 ∧ r.dev.rd Reg.MEM_TRAIN_DONE ≠ 0 ∧ r.dev.boot.bistA.isSome = true ∧
      r.dev.boot.bistB.isSome = true ∧ r.dev.rd Reg.HDL_CONTROL_BWK_RELEASE = 0 ∧ r.dev.rd Reg.HDL_STATUS_WAIT_STEWARD = 0) ∧
    (b.dev.rd (Reg.SHL_STATUS_IN_RESET 15) ≠ 0 ∧ b.dev.shoalUnfit 15 = true ∧ b.dev.shoalUnfit 14 = false ∧ b.dev.boot.running = []) := by
  unfold Live Writable; decide +kernel

/-- Self-test failures (O20) at power-up and later; PORST_N low and high. -/
theorem wit_reset_pin :
    State.reset.dev.rd Reg.HDL_STATUS_STAGE = 1 ∧ (on fun d => d.put Reg.HDL_STATUS_STAGE 8).dev.rd Reg.HDL_STATUS_STAGE ≠ 1 ∧
    (on fun d => { d with boot := { d.boot with inReset := true } }).dev.boot.inReset = true ∧ State.reset.dev.boot.strandQ = [] := by
  decide +kernel

/-! Channels, packet windows, engines -/

/-- Reset with thread 0 running, an enabled channel 0 that it both produces and consumes, and the messages m in it. -/
def channel (x : Thread) (m : List (List Nat)) : State :=
  on fun d => { (((d.put (Reg.SHL_CH_ENABLE 0 0) 1).put (Reg.SHL_CH_PRODUCER 0 0) 0).put (Reg.SHL_CH_CONSUMER 0 0) 0) with
    shl := { d.shl with threads := [(0, x)] }, chans := [(0, { msgs := m })] }

/-- Channel instructions (O12): with no cause, empty, holding one message and full, and with the causes of Table 6.5 from 1 to 6. -/
theorem wit_channels :
    let f := channel { runner with staged := [1], bound := some 0 } (List.replicate 16 [7])
    let e := channel runner []
    (e.dev.putCause 0 0 = none ∧ f.dev.sealCause 0 0 = none ∧ e.dev.tryCause 0 0 = none ∧ e.dev.getCause 0 0 30 2 = none) ∧
    (16 ≤ (f.dev.chan 0).msgs.length ∧ (e.dev.chan 0).msgs.length < 16 ∧ (e.dev.chan 0).msgs = [] ∧
      (channel runner [[7]]).dev.chan 0 = { msgs := [7] :: [] }) ∧
    (e.dev.putCause 1 0 = some 1 ∧ State.reset.dev.tryCause 0 0 = some 2 ∧
      (channel { runner with staged := List.replicate 8 1, bound := some 0 } []).dev.putCause 0 0 = some 3 ∧
      (channel { runner with staged := [1], bound := some 1 } []).dev.putCause 0 0 = some 4 ∧ e.dev.sealCause 0 0 = some 5 ∧
      e.dev.getCause 0 0 31 2 = some 6) := by decide +kernel

/-- Packet windows and runs (O13): a run of shoal 0 with its handle, no window and an open one, a handle that names no run, and a run freed in
the tick before. -/
theorem wit_windows :
    let s := on fun d => { d with shl := { d.shl with threads := [(0, runner)], freed := [(5, 0)] }, net := { d.net with runs := [⟨0, 5, 0, 64, 0⟩] }, clk := { d.clk with tick := 1 } }
    (s.dev.openCause 0 0 5 = none ∧ s.dev.openCause 0 0 6 = some 1 ∧ (s.dev.runOf 0 5).isSome = true ∧ (s.dev.runOf 0 6).isNone = true ∧
      Tab.get 0 (s.dev.thr 0).windows 0 = 0) ∧
    (on fun d => { d with shl := { d.shl with threads := [(0, { runner with windows := [(0, 2 ^ 63 + 5)] })] }, net := s.dev.net }).dev.openCause 0 0 5 = some 2 ∧
    (Live s ∧ (5, 0) ∈ s.dev.shl.freed ∧ 0 < s.dev.clk.tick ∧ ⟨0, 5, 0, 64, 0⟩ ∈ s.dev.net.runs) := by
  unfold Live; decide +kernel

/-- Engine commands (O13): an enabled channel from the engine to the thread, and the details 3 to 7 of failed checks. -/
theorem wit_engines :
    let s (p : Nat) (x : Thread) := on fun d => { ((d.put (Reg.SHL_CH_ENABLE 0 0) 1).put (Reg.SHL_CH_PRODUCER 0 0) p) with shl := { d.shl with threads := [(0, x)] } }
    let b := { runner with bookTid := 32768 }
    ((s 0x830 b).dev.engCause 0 .book 0x30000000FC0 0 = none ∧ (s 0x832 runner).dev.engCause 0 .reefLook 0x30000000000 0 = none ∧
      (s 0x832 runner).dev.engCause 0 .reefIns 0x300003FFFC0 0 = none ∧ (s 0x832 runner).dev.engCause 0 .reefDel 0x30000000000 0 = none ∧
      (s 0xC20 runner).dev.engCause 0 .cySub0 0x30000000000 0 = none ∧ (s 0xD20 runner).dev.engCause 0 .cySub1 0x30000000000 0 = none ∧
      (s 0xA20 runner).dev.engCause 0 .patSub 0x30000000000 0 = none ∧ (s 0xB20 runner).dev.engCause 0 .movSub 0x30000000000 0 = none) ∧
    ((s 0x830 b).dev.engCause 0 .book 0x30000000001 0 = some 3 ∧ (s 0 b).dev.engCause 0 .book 0x30000000000 0 = some 4 ∧
      (on fun d => { (s 0x830 b).dev with engOut := [(0, 16)] , free := d.free }).dev.engCause 0 .book 0x30000000000 0 = some 5 ∧
      (s 0x830 runner).dev.engCause 0 .book 0x30000000000 0 = some 6) := by decide +kernel

/-! Ciphers -/

/-- An operation of a kind, with its code, its descriptor and where it came from. -/
def anOp (kind : Nat) (code : Nat := 0) (desc : Desc := {}) (org : Origin := .ring 0 0) (tid : Nat := 0) : Op :=
  { req := { id := 1, kind := kind, code := code, cls := 2, tid := tid, src := 0, org := org, desc := desc, tick := 0, time := 0 }, admitted := 0, promise := 1000000, slack := true }

/-- Channel 3 locked for the steward, key slot 16383 in a state. -/
def sealed (st : Nat) (key : List Byte := []) : Dev → Dev := fun d =>
  { ((d.put (Reg.CRY_CHAN_STEWARD 3) 1).put (Reg.CRY_SLOT_STATE 16383) st) with
    cry := { d.cry with keys := Tab.set [] [] 16383 key, wrapKey := some [1], data := [(24, 9)] } }

/-- Commands of sealed channels (O21): owned, foreign, busy, disabled; EMPTY and READY slots; empty and full records with and without the
wrapping key. -/
theorem wit_sealed_channels :
    let s := on (sealed 0)
    let r := on (sealed 1 (List.replicate 32 5))
    let f := on fun d => let d := d.memPut (recordAddr 2097151) [1]; { d with cry := { d.cry with wrapKey := none } }
    TakesCommand .steward 3 s ∧ TakesCommand .steward 3 r ∧ s.dev.ownsChannel .headland 3 = false ∧
    (on fun d => (sealed 0 [] d).put (Reg.CRY_CHAN_BUSY 3) 1).dev.rd (Reg.CRY_CHAN_BUSY 3) ≠ 0 ∧
    (on fun d => { d with cry := { d.cry with disabled := true } }).dev.cry.disabled = true ∧
    s.dev.slotState 16383 = 0 ∧ s.dev.slotMode 16383 < 10 ∧ (∃ b ∈ s.dev.chanData 3, b ≠ 0) ∧ r.dev.slotState 16383 = 1 ∧
    (r.dev.recordFull 2097151 = false ∧ r.dev.cry.wrapKey ≠ none ∧ (r.dev.slotKey 16383).length ≤ 32) ∧
    (f.dev.recordFull 2097151 = true ∧ f.dev.cry.wrapKey = none ∧ f.dev.slotState 0 = 0) := by
  unfold TakesCommand Live
  refine ⟨?_, ?_, ?_, ?_, ?_, ?_, ?_, ⟨9, ?_⟩, ?_⟩ <;> decide +kernel

/-- A record that unwraps (O21): what its bytes hold rests on the opaque key wrap, so they are written as recordBytes gives them. Stated of the
record alone, without the bytes. -/
theorem wit_unwrap :
    let s := on fun d => { sealed 0 [] d with cry := { (sealed 0 [] d).cry with records := [(0, some ⟨[5], [], [1]⟩)] } }
    Tab.get none s.dev.cry.records 0 = some ⟨[5], [], [1]⟩ ∧ s.dev.cry.wrapKey = some [1] := by decide +kernel

/-- Key slots (O21): draining slots, named by nothing or by an operation, with and without a WRAP that waits; channels locked and free. -/
theorem wit_key_slots :
    let s := on fun d => { sealed 2 [5] d with cry := { (sealed 2 [5] d).cry with wraps := [(16383, 3, 0)] } }
    let n := on fun d => { sealed 2 [5] d with ops := [anOp 7 0 { keySlot := 16383 }] }
    let p := on fun d => d.put (Reg.CRY_SLOT_STATE 0) 3
    (State.reset.dev.mayWrite (.thread 0) 0x700048 = false ∧ p.dev.mayWrite .steward 0x700048 = true ∧
      p.dev.slotState (p.dev.inF Reg.CRY_SLOT_SELECT_SLOT) = 3) ∧
    ((on (sealed 2 [5])).dev.slotState 16383 = 2 ∧ (on (sealed 2 [5])).dev.slotNamed 16383 = false ∧ (on (sealed 2)).dev.cry.wraps = []) ∧
    (s.dev.slotState 16383 = 2 ∧ s.dev.slotNamed 16383 = false ∧ s.dev.cry.wraps = [(16383, 3, 0)] ∧ s.dev.cry.wrapKey = some [1]) ∧
    (n.dev.slotNamed 16383 = true ∧ State.reset.dev.slotState 0 ≠ 2) ∧
    (State.reset.dev.mayWrite .headland (chanOff 3 0) = true ∧ State.reset.dev.rd (Reg.CRY_CHAN_HEADLAND 3) = 0 ∧
      State.reset.dev.rd (Reg.CRY_CHAN_STEWARD 3) = 0 ∧ (on (sealed 0)).dev.rd (Reg.CRY_CHAN_STEWARD 3) ≠ 0 ∧
      (on fun d => d.put (Reg.CRY_CHAN_HEADLAND 3) 1).dev.rd (Reg.CRY_CHAN_HEADLAND 3) ≠ 0) := by decide +kernel

/-- An operation at a stage that takes one unit of a resource. -/
def staged (o : Op) (r : Res) (n : Nat := 1) : Op := { o with plan := [⟨1, [⟨r, n⟩], 0⟩], fetched := true }

/-- Cipher engines (O22): engine 31 with a request that may start, one to suspend for a tighter one, one to resume, and RX_OPEN due. -/
theorem wit_cipher_engines :
    let q : Op := staged (anOp 7 0 { length := 64, keySlot := 5 }) (laRes 31)
    let q : Op := { q with data := List.replicate 128 0 }
    let base := fun d => ((d.put (Reg.CRY_TENANT_TQ 0) 1023).put (Reg.CRY_TENANT_TQ_VALID 0) 1).put (Reg.CRY_SLOT_STATE 5) 1
    let s := on fun d => { base d with ops := [q] }
    let u := on fun d => { base d with ops := [{ q with req := { q.req with id := 2 }, going := [laRes 31] }, { q with slack := false }], cry := { d.cry with runs := [⟨2, 31, 0, 0, false, 0, 0, 64⟩] } }
    let r := on fun d => { base d with cry := { d.cry with runs := [⟨2, 31, 16, 0, true, 0, 16, 64⟩] } }
    let x := on fun d => { d.put (Reg.CRY_TENANT_RX_OPEN 511) 1 with clk := { d.clk with due := [.rxOpen 511] } }
    (Live s ∧ s.dev.boot.thermTrip = false ∧ s.dev.running 31 = none ∧ s.dev.pickRequest 31 = some q ∧ s.dev.suspendedOn 31 = [] ∧
      s.dev.op? q.id = some q ∧ q.fetched = true ∧ q.reads = 0 ∧ q.req.org = .ring 0 0 ∧
      blockOk (s.dev.slotMode 5) q.req.code 64 (q.data.take 128) = true ∧ s.dev.slotState 5 = 1) ∧
    (u.dev.running 31 = some ⟨2, 31, 0, 0, false, 0, 0, 64⟩ ∧ (u.dev.op? 2).isSome = true ∧ u.dev.tighterWaits 31 3 = true ∧
      ((u.dev.op? 2).map Op.laClass) = some 3 ∧ suspendable 0 64 0 0 16 = true) ∧
    (r.dev.running 31 = none ∧ r.dev.suspendedOn 31 = [⟨2, 31, 16, 0, true, 0, 16, 64⟩] ∧ r.dev.tighterWaits 31 (((r.dev.op? 2).map Op.laClass).getD 4) = false) ∧
    (.rxOpen 511 ∈ x.dev.clk.due ∧ x.dev.inF (Reg.CRY_TENANT_RX_OPEN 511) ≠ 0 ∧ x.dev.rd (Reg.CRY_TENANT_RX_OPEN_IN_FORCE 511) = 0 ∧
      x.dev.tenantPolicers 511 = [] ∧ State.reset.dev.inF (Reg.CRY_TENANT_RX_OPEN 0) = 0) := by
  unfold Live; decide +kernel

/-! Monitors, memory -/

/-- Monitors, pins and sensors (O23). A watched pin's ENABLE, and a sensor's readings below, at and above the trip level of 460. -/
theorem wit_monitors :
    let b := on fun d => ((d.put (Reg.SHL_STATUS_DRAINED 15) 1).put (Reg.SHL_STATUS_IN_RESET 15) 1)
    let r := on fun d => { d with mon := { d.mon with bist := some 15 } }
    let p := on fun d => d.put (Reg.MON_PIN_ENABLE 8) 1
    let t := on fun d => { d with mon := { d.mon with trips := [(23, 3)] } }
    (State.reset.dev.mayWrite .steward 0xC00008 = true ∧ State.reset.dev.mayWrite .oob 0xC00008 = false ∧
      State.reset.dev.mayWrite .steward 0xC00068 = true) ∧
    (b.dev.mon.bist = none ∧ b.dev.bistAllowed 15 = true ∧ b.dev.bistAllowed 14 = false ∧ b.dev.bistAllowed 24 = false ∧ r.dev.mon.bist = some 15 ∧
      r.dev.boot.running = []) ∧
    (pinKind 8 = .output ∧ p.dev.inF (Reg.MON_PIN_ENABLE 8) ≠ 0 ∧ p.dev.rd (Reg.MON_PIN_FAULT 8) ≠ 2 ∧ pinKind 0 = .toggling ∧ pinKind 3 = .idleHigh ∧
      pinKind 5 = .idleHigh ∧ pinKind 10 = .present ∧ (on fun d => d.put (Reg.MON_PIN_ENABLE 71) 0).dev.inF (Reg.MON_PIN_ENABLE 71) = 0) ∧
    ((459 : BitVec 16).toInt < 460 ∧ (0x8000 : BitVec 16).toInt < 460 ∧ Tab.get 0 State.reset.dev.mon.trips 23 < 3 ∧ 460 ≤ (460 : BitVec 16).toInt ∧
      3 ≤ Tab.get 0 t.dev.mon.trips 23 ∧ t.dev.boot.thermTrip = false) := by decide +kernel

/-- Out of band (O24): after self-test, with right and without, a bad offset, DEBUG_EN on and off. -/
theorem wit_oob :
    let s := on fun d => (d.put Reg.HDL_STATUS_STAGE 2).put Reg.MON_OOB_WRITE_BLOCKS 0xFFF
    let g := on fun d => d.put Reg.MON_DEBUG_EN 1
    Live s ∧ s.dev.rd Reg.HDL_STATUS_STAGE ≠ 1 ∧ (0xDFFFFC : BitVec 32).toNat % 8 ≠ 0 ∧ 0xE00000 ≤ (0xE00000 : BitVec 32).toNat ∧
    State.reset.dev.mayWrite .oob 0x10020 = false ∧ s.dev.mayWrite .oob 0x10020 = true ∧ State.reset.dev.inF Reg.MON_DEBUG_EN = 0 ∧ g.dev.inF Reg.MON_DEBUG_EN ≠ 0 := by
  unfold Live; decide +kernel

/-- Memory control (O25). -/
theorem wit_memory_control :
    let g := on fun d => { d with mem := { d.mem with training := true, escalated := [127] } }
    let f := on fun d => { d with clk := { d.clk with due := [.fwCheck] } }
    let b := on fun d => { ((d.put (Reg.MEM_FW_CTL 0) 1).put (Reg.MEM_FW_BASE 0) 5) with clk := { d.clk with due := [.fwCheck] } }
    let p := on fun d => d.put Reg.MEM_PATROL_EN 1
    let e := on fun d => { d.put Reg.ERR_CTRL_ENABLE 1 with log := { d.log with fifo := [{}] } }
    (State.reset.dev.mayWrite .steward 0x900008 = true ∧ State.reset.dev.mem.training = false ∧ State.reset.dev.rd Reg.MEM_TRAIN_DONE = 0 ∧
      State.reset.dev.inF Reg.HDL_CONTROL_BWK_RELEASE = 0 ∧ g.dev.mem.training = true) ∧
    (g.dev.mayWrite .steward (0x901000 + 8 * 127) = true ∧ 127 ∈ g.dev.mem.escalated ∧ 0 ∉ g.dev.mem.escalated) ∧
    (.fwCheck ∈ f.dev.clk.due ∧ regionsOk f.dev.regionSet = true ∧ .fwCheck ∈ b.dev.clk.due) ∧
    (p.dev.inF Reg.MEM_PATROL_EN ≠ 0 ∧ p.dev.mem.scrubbed ≠ some (p.dev.clk.tide / 256)) ∧
    (let q := on fun d => { d with mem := { d.mem with scrubbed := some 0 } }; q.dev.mem.scrubbed = some (q.dev.clk.tide / 256)) ∧
    (State.reset.dev.inF Reg.ERR_CTRL_ENABLE = 0 ∧
      (let h := on fun d => { d with log := { d.log with moved := 4 } }; 4 ≤ h.dev.log.moved) ∧
      (let h := on fun d => d.put Reg.ERR_RING_TAIL 65535; (h.dev.rd Reg.ERR_RING_TAIL + 1) % 65536 = h.dev.inF Reg.ERR_RING_HEAD)) ∧
    (e.dev.inF Reg.ERR_CTRL_ENABLE ≠ 0 ∧ e.dev.log.fifo = [{}] ∧ e.dev.log.moved < 4 ∧ (e.dev.rd Reg.ERR_RING_TAIL + 1) % 65536 ≠ e.dev.inF Reg.ERR_RING_HEAD) := by
  decide +kernel

/-- Region sets that do not stand: empty, over a fixed range, overlapping (O25). -/
theorem wit_regions :
    regionsOk [⟨0x200000, 0x200000, 0, 0, 0, true, true, true⟩] = false ∧
    regionsOk [⟨0x20000000, 0x20200000, 0, 0, 0, true, true, true⟩, ⟨0x20000000, 0x20200000, 0, 0, 0, true, true, true⟩] = false := by decide +kernel

/-- A good codeword, one with a wrong byte, the poison pattern, and one beyond correction (O25), against the address they are read from. -/
theorem wit_read_errors :
    let s := on fun d => (d.put (Reg.MEM_SOURCE_HANDLING 0x60) 1).put (Reg.MEM_SOURCE_LEVEL 0x60) 1
    let z := List.replicate 36 (0 : Byte)
    (s.dev.readSource 0x30000000000 .patrol = some 0x60 ∧ s.dev.rd (Reg.MEM_SOURCE_HANDLING 0x60) = 1 ∧ s.dev.rd (Reg.MEM_SOURCE_LEVEL 0x60) = 1 ∧
      State.reset.dev.rd (Reg.MEM_SOURCE_HANDLING 0x60) = 0) ∧
    decodeLine 0 z = .good ∧ decodeLine 0 (z.set 5 7) = .corrected 5 7 ∧ decodeLine 0 ((z.set 5 7).set 6 9) = .uncorrectable ∧
    decodeLine 0 (z.set 32 0x5C |>.set 33 0x5C |>.set 34 0x5C |>.set 35 0x5C) = .poisoned := by decide +kernel

/-! Shoals -/

/-- Control of shoals, cores and threads (O26): with right and without, a booked thread of a shoal that is not drained and of one that is. -/
theorem wit_shoal_control :
    let b := on fun d => d.put (Reg.SHL_STATUS_BOOKED_IN_FORCE 15) 1
    let c := on fun d => d.put (Reg.SHL_CORE_CORE_RESET 15 7) 1
    let r := on fun d => d.put Reg.HDL_CONTROL_BWK_RELEASE 1
    let k := on fun d => d.put (Reg.SHL_STATUS_DRAINED 15) 1
    (State.reset.dev.mayWrite (.thread 0) 0x1F0FE0 = false ∧ State.reset.dev.mayWrite .steward 0x1F0FE0 = true ∧
      Booked 1023 State.reset.dev = false ∧ Booked 960 b.dev = true) ∧
    (((List.range 8).any fun k => b.dev.protectedThread (127 * 8 + k)) = false ∧
      ((List.range 8).any fun k => b.dev.protectedThread (120 * 8 + k)) = true ∧ State.reset.dev.mayWrite .headland 0x1F04E8 = true ∧
      c.dev.rd (Reg.SHL_CORE_CORE_RESET (127 / 8) (127 % 8)) ≠ 0) ∧
    ((State.reset.dev.rd (Reg.SHL_STATUS_DRAINED 15) == 0) = true ∧ (k.dev.rd (Reg.SHL_STATUS_DRAINED 15) == 0) = false) ∧
    (r.dev.inF Reg.HDL_CONTROL_BWK_RELEASE ≠ 0 ∧ r.dev.rd (Reg.SHL_STATUS_IN_RESET 15) ≠ 0) := by decide +kernel

/-- What thread boundaries need (O26): running, halted with nothing parked, off in a released shoal; a channel's count below its end. -/
theorem wit_thread_boundary :
    let s := on fun d => { d.put (Reg.SHL_STATUS_RELEASED 15) 1 with shl := { d.shl with threads := [(0, { st := 1 }), (1, { st := 2 })] } }
    (s.dev.thr 0).st = 1 ∧ (s.dev.thr 1).st = 2 ∧ (s.dev.thr 1).parked = [] ∧ (s.dev.thr 1023).st = 0 ∧
    s.dev.rd (Reg.SHL_STATUS_RELEASED (1023 / 64)) ≠ 0 ∧ s.dev.rd (Reg.SHL_CORE_CORE_RESET (1023 / 64) (1023 % 64 / 8)) = 0 ∧
    s.dev.rd (Reg.SHL_CH_DISCARDED (8191 / 512) (8191 % 512)) < 2 ^ 32 := by decide +kernel

/-- Services of a shoal (O27): a halted thread to debug; claim channels, channels on and off, valid endpoints and others; held messages; a
drain; a deadlock that is due. -/
theorem wit_shoal_services :
    let h := on fun d => { d.put (Reg.SHL_DBG_SELECT_ITEM 15) 0x21 with shl := { d.shl with threads := [(960, { st := 2 })] } }
    let b := on fun d => d.put (Reg.SHL_STATUS_BOOKED_IN_FORCE 15) 1
    let c := on fun d => (((d.put (Reg.SHL_CH_ENABLE 15 511) 1).put (Reg.SHL_CH_PRODUCER 15 511) 0x830).put (Reg.SHL_CH_CONSUMER 15 511) 960)
    let p := on fun d => { c.dev with chans := [(8191, { held := [⟨0x830, [1], none, 1, false⟩, ⟨0x830, [2], none, 1, true⟩] })], free := d.free }
    let r := on fun d => d.put (Reg.SHL_STATUS_DRAIN_ACTIVE 15) 1
    let l := on fun d => { d with shl := { d.shl with counts := [(15 * 8 + 7, 2 ^ 40)] } }
    let again := on fun d => { d.put (Reg.SHL_FAULT_DEADLOCK 15) 1 with shl := { d.shl with counts := [(15 * 8 + 7, 2 ^ 40)] } }
    (State.reset.dev.mayWrite .oob 0x1F0070 = false ∧ h.dev.mayWrite .steward 0x1F0070 = true ∧ (h.dev.thr 960).st = 2 ∧
      h.dev.inF (Reg.SHL_DBG_SELECT_ITEM 15) = 0x21 ∧ (State.reset.dev.thr 960).st ≠ 2) ∧
    (b.dev.claimIndex (15 * 512 + b.dev.claimBase 15) ≠ none ∧ State.reset.dev.claimIndex 8191 = none ∧ validEnd 0x3FF = true ∧
      validEnd 0x400 = false ∧ validEnd 0xDFF = false ∧ State.reset.dev.rd (Reg.SHL_CH_ENABLE 15 511) = 0 ∧ c.dev.rd (Reg.SHL_CH_ENABLE 15 511) ≠ 0 ∧
      c.dev.rd (Reg.SHL_CH_PRODUCER 15 511) = 0x830 ∧ c.dev.rd (Reg.SHL_CH_CONSUMER 15 511) = 960) ∧
    (p.dev.chanOn 8191 = true ∧ (∀ m ∈ (p.dev.chan 8191).held, m.unit = p.dev.chanProducer 8191) ∧ State.reset.dev.chanOn 8191 = false) ∧
    (r.dev.rd (Reg.SHL_STATUS_DRAIN_ACTIVE 15) ≠ 0 ∧ r.dev.shoalIdle 15 = true) ∧
    (l.dev.dlDue 15 7 = true ∧ l.dev.rd (Reg.SHL_FAULT_DEADLOCK 15) = 0 ∧ again.dev.dlDue 15 7 = true ∧
      again.dev.rd (Reg.SHL_FAULT_DEADLOCK 15) ≠ 0) := by decide +kernel

/-! Contracts, the governor, gate lists and policers -/

/-- Contract and governor writes (O28): valid selections at the floor and the horizon and beyond them, Slack, and frozen interfaces. -/
theorem wit_contract_writes :
    let s := on fun d => (d.put Reg.BWK_CT_SELECT_KIND 2).put Reg.BWK_CT_SELECT_TID 511
    let x := on fun d => (d.put Reg.BWK_CT_SELECT_CLASS 3).put Reg.BWK_BUDGET_SELECT_CLASS 3
    let f := on fun d => ((d.put Reg.BWK_CT_SELECT_KIND 2).put (Reg.HST_TEN_TDI_STATE 0) 1)
    (s.dev.mayWrite .steward 0x20010 = true ∧ s.dev.inF Reg.BWK_CT_SELECT_KIND = 2 ∧ s.dev.inF Reg.BWK_CT_SELECT_CLASS ≠ 3 ∧
      floorOf 2 0 ≤ floorOf 2 0 ∧ floorOf 2 0 ≤ 4194048 ∧ ¬ floorOf 2 0 ≤ floorOf 2 0 - 1 ∧ s.dev.rd (Reg.HST_TEN_TDI_STATE 511) = 0) ∧
    (x.dev.inF Reg.BWK_CT_SELECT_CLASS = 3 ∧ x.dev.inF Reg.BWK_BUDGET_SELECT_CLASS = 3 ∧ State.reset.dev.inF Reg.BWK_BUDGET_SELECT_CLASS ≠ 3 ∧
      State.reset.dev.inF Reg.BWK_CT_SELECT_KIND = 0) ∧
    (f.dev.rd (Reg.HST_TEN_TDI_STATE 0) ≠ 0 ∧ f.dev.rd (Reg.BWK_CT_DATA_ENABLE 8) < 2 ∧ f.dev.rd (Reg.BWK_CT_DATA_BOUND 8) < 2 ^ 23 ∧
      f.dev.rd (Reg.BWK_CT_DATA_BOUND 8) ≠ 1 ∧ f.dev.rd (Reg.BWK_BUDGET_DATA_DEPTH 0) ≠ 1) ∧
    (State.reset.dev.mayWrite (.thread 0) 0x20010 = false ∧ State.reset.dev.mayWrite .oob 0x20020 = false ∧ State.reset.dev.mayWrite .jtag 0x20038 = false ∧
      s.dev.mayWrite .headland 0x20020 = true ∧ s.dev.mayWrite .steward 0x20038 = true ∧ s.dev.inF Reg.BWK_GOV_POLICY_H_MAX < 256) := by
  decide +kernel

/-- The governor (O28): stale, and temperatures at T_START, between, and at T_LIMIT. -/
theorem wit_governor :
    let s := on fun d => { d with clk := { d.clk with due := [.govStale] } }
    let g (q : Int) := on fun d => { ((d.put Reg.BWK_GOV_POLICY_T_START 90).put Reg.BWK_GOV_POLICY_T_LIMIT 110) with mon := { d.mon with tMax := some q } }
    s.dev.clk.due.contains .govStale = true ∧ State.reset.dev.clk.due.contains .govStale = false ∧
    (∀ q ∈ ([360, 361, 400, 439, 440] : List Int), (g q).dev.mon.tMax = some q ∧ (g q).dev.inF Reg.BWK_GOV_POLICY_F_MIN ≤ (g q).dev.fMax ∧
      (g q).dev.inF Reg.BWK_GOV_POLICY_T_START < (g q).dev.inF Reg.BWK_GOV_POLICY_T_LIMIT) := by decide +kernel

/-- Gate lists (O29): due with a list that passes, one that fails (a length of 1025), none, and a pending list. -/
theorem wit_gate_lists :
    let v (n : Nat) := on fun d => { (((d.put (Reg.CAL_GATE_CTRL_ADMIN_ENABLE 15) 1).put (Reg.CAL_GATE_CTRL_ADMIN_LEN 15) n).put (Reg.CAL_GATE_ENTRY_W 15 0) (8 * 2 ^ 17)) with clk := { d.clk with due := [.gatePend 15] } }
    let o := on fun d => { d with cal := { d.cal with pend := [(15, some ⟨0, [8]⟩)] }, clk := { d.clk with due := [.gateOper 15] } }
    (State.reset.dev.mayWrite .oob 0x40068 = false ∧ State.reset.dev.mayWrite .steward 0x40068 = true ∧ State.reset.dev.inF Reg.CAL_GATE_SELECT_PORT = 0) ∧
    ((v 1).dev.clk.due.contains (.gatePend 15) = true ∧ (v 1).dev.inF (Reg.CAL_GATE_CTRL_ADMIN_LEN 15) = 1 ∧ (v 1025).dev.inF (Reg.CAL_GATE_CTRL_ADMIN_LEN 15) = 1025 ∧
      (v 1025).dev.gateListOk 15 = false ∧ (v 0).dev.gateListOk 15 = false) ∧
    (o.dev.clk.due.contains (.gateOper 15) = true ∧ Tab.get none o.dev.cal.pend 15 = some ⟨0, [8]⟩ ∧ Tab.get none o.dev.cal.pend 0 = none) := by
  decide +kernel

/-- A policer check (O29): due, on and off, kept, and a burst that fits a bound and one that does not. -/
theorem wit_policer_check :
    let s := on fun d => { ((((d.put (Reg.CAL_POL_ENABLE 4095) 1).put (Reg.BWK_CT_DATA_ENABLE 8) 1).put (Reg.BWK_CT_DATA_BOUND 8) 768).put (Reg.CAL_POL_CIR 4095) 256) with
      clk := { d.clk with due := [.policer 4095] } }
    let k := on fun d => { d.put (Reg.CAL_POL_ENABLE 4095) 1 with cal := { d.cal with policers := [(4095, { active := true })] } }
    (s.dev.clk.due.contains (.policer 4095) = true ∧ s.dev.inF (Reg.CAL_POL_ENABLE 4095) ≠ 0 ∧
      ¬ ((Tab.get {} s.dev.cal.policers 4095).active = true) ∧ (s.dev.policerSet 4095).cbs ≤ 1 * (s.dev.contractBound 0 2 0 / 256 - 2)) ∧
    State.reset.dev.inF (Reg.CAL_POL_ENABLE 4095) = 0 ∧
    ((Tab.get {} k.dev.cal.policers 4095).active = true ∧ samePolicer (Tab.get {} k.dev.cal.policers 4095) (k.dev.policerSet 4095) = true) := by
  decide +kernel

/-! The Breakwater pair -/

/-- Reset with unit 0 active and unit 1 in state p. -/
def withPeer (p : Nat) (f : Dev → Dev := id) : State :=
  on fun d => f ((d.put (Reg.BWK_UNIT_STATUS_STATE 0) 5).put (Reg.BWK_UNIT_STATUS_STATE 1) p)

/-- Journals and takeovers (O30), for each state of the peer. -/
theorem wit_journal :
    (∀ p, p < 8 → p ≠ 5 → (withPeer p).dev.activeUnit = some 0 ∧ (withPeer p).dev.pair.void = none ∧ (withPeer p).dev.unitState (peerOf 0) = p) ∧
    (withPeer 4 fun d => { d with pair := { d.pair with void := some 4 } }).dev.pair.void.isSome = true ∧
    (withPeer 0).dev.lost = false ∧
    (let r := withPeer 7 fun d => { d with clk := { d.clk with due := [.recopy 1] }, pair := { d.pair with lapses := [(1, 0), (1, 0), (1, 0)] } }
     r.dev.clk.due.contains (.recopy 1) = true ∧ 3 ≤ (r.dev.pair.lapses.filter fun x => x.1 == 1 && r.dev.clk.epochs < x.2 + 64).length ∧
      r.dev.unitState 1 = 7) ∧
    (on fun d => { d with pair := { d.pair with draining := some 1 } }).dev.pair.draining = some 1 ∧ State.reset.dev.activeUnit = none := by
  decide +kernel

/-- Swaps and repair (O30). -/
theorem wit_swap :
    let l := on fun d => d.put Reg.DEV_STATUS_BREAKWATER_LOST 1
    let due (x : Due) (s : State) : State := { s with dev := { s.dev with clk := { s.dev.clk with due := [x] } } }
    (State.reset.dev.mayWrite .oob 0x30208 = false ∧ (withPeer 4).dev.mayWrite .steward 0x20208 = true) ∧
    ((withPeer 6).dev.unitState 1 = 6 ∧ (withPeer 7).dev.unitState 1 = 7 ∧ (withPeer 6).dev.pair.draining ≠ some 1 ∧ (withPeer 6).dev.adm.entries = []) ∧
    (l.dev.lost = true ∧ l.dev.unitState 1 = 0 ∧ l.dev.adm.entries = [] ∧ l.dev.activeUnit = none ∧ l.dev.rd Reg.ERR_STATUS_FATAL = 0) ∧
    ((due .swap (withPeer 4)).dev.clk.due.contains .swap = true ∧ (due .swap (withPeer 4)).dev.activeUnit = some 0) ∧
    (State.reset.dev.released = false ∧ (withPeer 1 fun d => d.put Reg.HDL_CONTROL_BWK_RELEASE 1).dev.released = true ∧
      (withPeer 1).dev.unitState 1 = 1) ∧
    ((withPeer 2).dev.unitState 1 = 2 ∧ (withPeer 2).dev.activeUnit = some (peerOf 1)) ∧
    ((due (.standbyEnter 1) (withPeer 3)).dev.clk.due.contains (.standbyEnter 1) = true ∧ (withPeer 3).dev.unitState 1 = 3) ∧
    ((due (.recover 1) l).dev.clk.due.contains (.recover 1) = true ∧ (due .lostClear l).dev.clk.due.contains .lostClear = true) := by
  decide +kernel

/-! Admission and work -/

/-- Reset with unit 0 active, host link 0 and port 0 up, and a TX contract of tenant 0 with tokens. -/
def deciding (f : Dev → Dev := id) : State :=
  withPeer 0 fun d => f { ((((d.put (Reg.HST_LINK_LINK_UP 0) 1).put (Reg.MAC_STATUS_LINK_STATE 0) 3).put (Reg.BWK_CT_DATA_ENABLE (ctKey 0 1 2)) 1).put
    (Reg.BWK_CT_DATA_BOUND (ctKey 0 1 2)) 65536) with adm := { d.adm with tokens := [(2, 100000)] } }

/-- A request for TX of 64 bytes in a class. -/
def aTx (cls : BitVec 2) (n : BitVec 32 := 64) : Req :=
  { id := 0, kind := 1, cls := cls.toNat, tid := 0, src := 0x010, org := .ring 0 0, desc := { cls := cls, length := n }, tick := 0, time := 0 }

/-- Submissions (O32): a booking that is accepted, Slack, the last decision of a tick and none left, and grounds of refusal from each list. -/
theorem wit_submissions :
    let s := deciding
    Live s ∧ s.dev.deciding = true ∧ s.dev.adm.waiting = [] ∧ s.dev.adm.decided < 32 ∧
    NoGround (anyRefusal s.dev (aTx 3)) ∧ NoGround (anyRefusal s.dev (aTx 2) ++ bookingRefusal s.dev (aTx 2)) ∧
    (match searched s.dev (aTx 2) with | .ok _ => true | .error _ => false) = true ∧
    (match searched (deciding fun d => d.put (Reg.BWK_CT_DATA_BOUND (ctKey 0 1 2)) 512).dev (aTx 2) with | .ok _ => false | .error _ => true) = true ∧
    (anyRefusal s.dev (aTx 2 0)).map (·.1) = [false, false, false, true, false, false] ∧
    (bookingRefusal s.dev (aTx 1)).map (·.1) = [true, false, false, false, true, false, false] ∧
    32 ≤ (deciding fun d => { d with adm := { d.adm with decided := 32 } }).dev.adm.decided := by
  simp only [Live, NoGround]; decide +kernel

/-- A search that books two stages over a room of 3 a slot (O31): its plan meets the hypotheses, and something is booked. -/
theorem wit_bookings_fit :
    let plan : List Stage := [⟨1, [⟨⟨0, 0, false⟩, 4⟩, ⟨⟨1, 0, false⟩, 1⟩], 256⟩, ⟨2, [⟨⟨0, 0, false⟩, 3⟩], 0⟩]
    (plan.map (·.no)).Nodup ∧ (∀ st ∈ plan, (st.needs.map (·.res)).Nodup) ∧
    (match takeStages (fun _ _ => 3) 9 1 plan with | .ok h => h.length | .error _ => 0) = 4 := by decide +kernel

/-- A decision of a refused or accepted request. -/
def aDecision (org : Origin) (st : Nat) : Decision := ⟨{ aTx 2 with org := org }, none, st == 0, 0, st, 1, []⟩

/-- Decisions (O32): acknowledged, with a standby that has not yet done so, void; one of a BOOK, one of a ring that is refused and whose
completion ring has room. -/
theorem wit_decisions :
    let d (x : Decision) (f : Dev → Dev := id) := deciding fun d => f { d with pair := { d.pair with decisions := [x] } }
    let r := d (aDecision (.ring 0 0) 3) fun d => ((d.put (Reg.HST_TEN_BME 0) 1).put (Reg.TEN_Q_ENABLE 0 (qKey 1 0)) 1).put (Reg.TEN_Q_SIZE_LOG2 0 (qKey 1 0)) 4
    ((d (aDecision (.book 0 0 0) 0)).dev.pair.void = none ∧ (d (aDecision (.book 0 0 0) 0)).dev.peerStandby = false) ∧
    (withPeer 4).dev.peerStandby = true ∧ (withPeer 4).dev.pair.acked = false ∧
    (withPeer 0 fun d => { d with pair := { d.pair with void := some 1 } }).dev.pair.void ≠ none ∧
    (r.dev.pair.decisions = [aDecision (.ring 0 0) 3] ∧ (aDecision (.ring 0 0) 3).status ≠ 0 ∧ (aDecision (.ring 0 0) 3).req.desc.interrupt = false ∧
      r.dev.boundRing 0 0 0 = 0 ∧ r.dev.ringLive 0 0 = true ∧ r.dev.ringBusy 0 0 = false) := by
  decide +kernel

/-- Work (O33): a booked operation and a Slack one ready for a DMA engine, none, and after a thermal trip; one on its engine whose stage has one
or two needs; a host read within its bound and past it. -/
theorem wit_work :
    let r : Res := ⟨2, 0, false⟩
    let o : Op := { staged (anOp 1) r with slack := false }
    let b := on fun d => { d with ops := [o] }
    let k := on fun d => { d with ops := [{ o with slack := true }] }
    let g : Op := { o with going := [r], plan := [⟨1, [⟨r, 1⟩], 0⟩, ⟨2, [⟨r, 1⟩], 0⟩] }
    let h := on fun d => { d with ops := [g], host := { d.host with reads := [⟨0, 5, 0, 0, 64, .data 1 0, 0, true, false, false⟩, ⟨0, 6, 0, 0, 64, .thread 0 0, 0, true, true, false⟩] } }
    let l := { h with dev := { h.dev with clk := { h.dev.clk with tide := 100000 } } }
    (b.dev.boot.thermTrip = false ∧ r.general = true ∧ b.dev.pickBooked r = some o ∧ o.fetched = true) ∧
    (k.dev.pickBooked r = none ∧ (k.dev.pickSlack r).map (·.1) = some { o with slack := true }) ∧
    (State.reset.dev.pickBooked r = none ∧ (State.reset.dev.pickSlack r).isNone = true ∧ Res.general ⟨5, 0, false⟩ = false ∧
      Res.general ⟨4, 0x10, false⟩ = false) ∧
    (h.dev.op? 1 = some g ∧ r ∈ g.going ∧ g.ended = false ∧ (∀ p ∈ h.dev.ops, p.req.id = 1 → p = g) ∧ State.reset.dev.op? 1 = none) ∧
    (h.dev.host.reads.find? (fun r => r.link == 0 && r.tag == 5) = some ⟨0, 5, 0, 0, 64, .data 1 0, 0, true, false, false⟩ ∧
      h.dev.clk.tide ≤ 0 + h.dev.inF Reg.BWK_ENV_HOST_READ_BOUND ∧ 0 + l.dev.inF Reg.BWK_ENV_HOST_READ_BOUND < l.dev.clk.tide ∧
      h.dev.host.reads.find? (fun r => r.link == 1 && r.tag == 5) = none) := by decide +kernel

/-- Scans and copies (O34): none, blocks that break their layout, and ones that run. -/
theorem wit_patterns_and_mover :
    let s := on fun d => { d with shl := { d.shl with scans := [⟨15, 960, 7680, 0, [1 * 2 ^ 52, 0x30003C00000, 16384], [], 0, false, none⟩]
                                                    , movers := [⟨15, 960, 7680, 0, [0x30003C00000, 0x30003C01000, 4096], [], 0, false, none⟩] } }
    let j : EngJob := ⟨15, 960, 7680, 0, [1 * 2 ^ 52, 0x30003C00000, 16384], [], 0, false, none⟩
    let m : EngJob := ⟨15, 960, 7680, 0, [0x30003C00000, 0x30003C01000, 4096], [], 0, false, none⟩
    s.dev.shl.scans = [j] ∧ j.shoal = 15 ∧ s.dev.scanOk j = true ∧ s.dev.anyPoison 0x30003C00000 16384 = false ∧
    s.dev.cleanBytes 0x30003C00000 16384 = 16384 ∧ j.bad = none ∧ s.dev.scanOk { j with words := [1 * 2 ^ 52, 0x30003C00000, 16385] } = false ∧
    s.dev.shl.movers = [m] ∧ moveBad m = false ∧ s.dev.moveRefusal m = 0 ∧ s.dev.place 0x30003C00000 = .sram 15 ∧
    s.dev.cleanBytes 0x30003C00000 4096 = 4096 ∧ s.dev.partialPoison 0x30003C01000 4096 = none := by decide +kernel

/-! Reef -/

/-- Reset with Breakwater released and the exact-match entries l. -/
def reef (l : List (Nat × List Byte)) (f : Reef → Reef := id) : State :=
  on fun d => { d.put Reg.HDL_CONTROL_BWK_RELEASE 1 with reef := f { d.reef with em := l.foldl (fun t x => Tab.set none t x.1 (some { key := x.2, act0 := 5, act1 := 6 })) [] } }

/-- Reef commands of the steward (O35): by right, busy, before release, a field out of range; a key found at the first and at a later place,
absent with room, absent with a path; a prefix entry that matches. -/
theorem wit_reef_commands :
    let key : List Byte := List.replicate 8 0
    let s := reef []
    let l := s.dev.places key
    let hit := reef [(l.getD 5 0, key)]
    let full := reef (l.map fun p => (p, [BitVec.ofNat 8 (p % 256), 1, 2, 3, 4, 5, 6, 7]))
    let p := reef [] fun r => { r with pfx := [(0, some ⟨0, 8, 1, 2⟩)] }
    (s.dev.released = true ∧ s.dev.reef.writes = [] ∧ s.dev.reef.emPath = none ∧ s.dev.reef.pfxPath = none ∧ s.dev.reef.emStepped = false ∧ s.dev.rd Reg.REEF_CMD_BUSY = 0 ∧ State.reset.dev.released = false ∧
      s.dev.mayWrite (.thread 0) 0x400100 = false ∧ (on fun d => d.put Reg.REEF_CMD_BUSY 1).dev.rd Reg.REEF_CMD_BUSY ≠ 0) ∧
    ((∀ op ∈ [1, 2, 3], (stewardReef s.dev op false 0 8 0 false).bad = false ∧ s.dev.cmdFits (stewardReef s.dev op false 0 8 0 false) = true) ∧
      (stewardReef s.dev 1 false 3 8 0 false).bad = true ∧ (stewardReef s.dev 1 false 1 20 0 false).bad = false ∧ s.dev.cmdKey.take 8 = key) ∧
    ((∀ q ∈ l, Tab.get false s.dev.reef.emPoison q = false) ∧ Tab.get false s.dev.reef.tagPoison (s.dev.bucketsOf key).1 = false ∧
      (∀ q ∈ l, ¬ hasKey key (s.dev.em q)) ∧ (∀ q ∈ l.take 5, ¬ hasKey key (hit.dev.em q)) ∧ hasKey key (hit.dev.em (l.getD 5 0)) = true ∧
      s.dev.em (l.getD 0 0) = none) ∧
    ((∀ q ∈ l, full.dev.em q ≠ none) ∧ (∀ q ∈ l, ¬ hasKey key (full.dev.em q)) ∧ (full.dev.findPath key).isSome = true) ∧
    (p.dev.reef.pfx = [] ++ (0, some ⟨0, 8, 1, 2⟩) :: [] ∧ Tab.get false p.dev.reef.pfxPoison 0 = false ∧ PEntry.matches ⟨0, 8, 1, 2⟩ 0 = true) := by
  decide +kernel

/-- A key without any place or path (O35): both of its buckets hold only entries whose other bucket is full as well. -/
theorem wit_reef_no_path :
    let key : List Byte := List.replicate 8 0
    let r := reef ((State.reset.dev.places key).map fun p => (p, key))
    let s : State := { r with dev := r.dev.put Reg.REEF_CTRL_MAX_KICKS 1 }
    (∀ q ∈ s.dev.places key, s.dev.em q ≠ none) ∧ s.dev.findPath key = none := by decide +kernel

/-- Reef's own work (O35): replies, paths with moves and at their end, learning, the sweep; done in this tick, and not. -/
theorem wit_reef_upkeep :
    let e : REntry := { key := List.replicate 8 0, act0 := 1, act1 := 2 }
    let c : RCmd := stewardReef State.reset.dev 2 false 0 8 0 false
    let s := reef [] fun r => { r with replies := [(0, 0, [1])], emPath := some ⟨[(4, 5)], 4, some e, some c, [4, 5]⟩, pfxPath := some ⟨[(1, 2)], 1, some ⟨0, 8, 1, 2⟩, c, [1, 2]⟩ }
    let f := reef [] fun r => { r with emPath := some ⟨[], 4, some e, some c, [4, 5]⟩, pfxPath := some ⟨[], 1, some ⟨0, 8, 1, 2⟩, c, [1, 2]⟩, learnQ := [⟨List.replicate 8 0, 1, 2, 0, 0⟩] }
    let n := reef [] fun r => { r with emStepped := true, pfxStepped := true, committed := true, swept := true }
    (State.reset.dev.reef.replies = [] ∧ s.dev.reef.replies = [(0, 0, [1])] ∧ s.dev.reef.emStepped = false ∧ s.dev.reef.emPath = some ⟨[(4, 5)], 4, some e, some c, [4, 5]⟩) ∧
    (f.dev.reef.emPath = some ⟨[], 4, some e, some c, [4, 5]⟩ ∧ ((some c).map (·.by_)) = some (.steward false) ∧ f.dev.reef.pfxPath = some ⟨[], 1, some ⟨0, 8, 1, 2⟩, c, [1, 2]⟩ ∧
      s.dev.reef.pfxPath = some ⟨[(1, 2)], 1, some ⟨0, 8, 1, 2⟩, c, [1, 2]⟩ ∧ f.dev.reef.pfxStepped = false) ∧
    ((reef [] fun r => { r with learnQ := f.dev.reef.learnQ }).dev.reef.learnQ = [⟨List.replicate 8 0, 1, 2, 0, 0⟩] ∧ f.dev.reef.committed = false ∧ f.dev.reef.writes = [] ∧
      (reef [] fun r => { r with learnQ := f.dev.reef.learnQ }).dev.reef.pfxPath = none ∧ f.dev.reef.emStepped = false) ∧
    (f.dev.reef.swept = false ∧ n.dev.reef.emStepped = true ∧ n.dev.reef.pfxStepped = true ∧ n.dev.reef.committed = true ∧ n.dev.reef.swept = true) := by
  decide +kernel

/-! Swash -/

/-- Reset with connection 1048575 in a state, its template IPv4 at offset 14, port 0 up, window 4194303 of tenant 0 valid, and f. -/
def swash (st : Nat) (f : Dev → Dev := id) : State :=
  on fun d => f { ((((((d.put (Reg.SWH_C_STATE 1048575) st).put (Reg.SWH_TMPL_W 0 15) (42 * 2 ^ 56 + 14 * 2 ^ 48)).put (Reg.SWH_TMPL_W 0 1) (0x45 * 2 ^ 48)).put
    (Reg.MAC_STATUS_LINK_STATE 0) 3).put (Reg.SWH_W_STATE 4194303) 1).put (Reg.SWH_C_PLACE_CLASS 1048575) 3) with
    sw := { d.sw with windows := [(4194303, { base := 4096, len := 4096, key := 7, read := true, write := true })] } }

/-- Connections (O37): opens and closes in each state, templates and placements that pass and fail, a close that is due, one that is drained,
and the period before its end and at it. -/
theorem wit_connections :
    let due (x : Due) : Dev → Dev := fun d => { d with clk := { d.clk with due := [x] } }
    let o := swash 1 (due (.connOpen 1048575))
    let p (b : Nat) := swash 1 fun d => due (.connOpen 1048575) ((((d.put (Reg.SWH_C_PLACE_CLASS 1048575) 0).put (Reg.BWK_CT_DATA_ENABLE 16) 1).put (Reg.BWK_CT_DATA_BOUND 16) 1024).put (Reg.SWH_C_PLACE_BYTES 1048575) b)
    let a := on fun d => { d with sw := { d.sw with period := 1 } }
    (State.reset.dev.mayWrite .oob 0x500048 = false ∧ State.reset.dev.mayWrite .steward 0x500048 = true ∧ State.reset.dev.connState 0 = 0 ∧
      (swash 2).dev.connState 1048575 ≠ 0) ∧
    (o.dev.clk.due.contains (.connOpen 1048575) = true ∧ o.dev.connState 1048575 = 1 ∧ o.dev.tmplOk 1048575 = true ∧
      o.dev.inF (Reg.SWH_C_PLACE_CLASS 1048575) = 3 ∧ (on fun d => d.put (Reg.SWH_C_STATE 0) 1).dev.tmplOk 0 = false) ∧
    ((p 0).dev.tmplOk 1048575 = true ∧ (p 0).dev.inF (Reg.SWH_C_PLACE_CLASS 1048575) ≠ 3 ∧ (p 0).dev.placeOk 1048575 = true ∧
      (p 0).dev.standingRoom 0 ((p 0).dev.placeNeeds 1048575) = true ∧ (p 16777215).dev.standingRoom 0 ((p 16777215).dev.placeNeeds 1048575) = false ∧
      (swash 1 fun d => d.put (Reg.SWH_C_PLACE_CLASS 1048575) 0).dev.placeOk 1048575 = false) ∧
    ((∀ st, st = 2 ∨ st = 4 → (swash st (due (.connClose 1048575))).dev.clk.due.contains (.connClose 1048575) = true) ∧ (swash 4).dev.connState 1048575 = 4) ∧
    ((swash 3).dev.connState 1048575 = 3 ∧ ((swash 3).dev.conn 1048575).out = [] ∧ (swash 3).dev.connOps 1048575 = []) ∧
    (State.reset.dev.sw.period < Max.max 1 (State.reset.dev.inF Reg.SWH_CTRL_CC_PERIOD) ∧ Max.max 1 ((on fun d => d.put Reg.SWH_CTRL_CC_PERIOD 0).dev.inF Reg.SWH_CTRL_CC_PERIOD) ≤ a.dev.sw.period) := by
  refine ⟨?_, ?_, ?_, ⟨?_, ?_⟩, ?_, ?_⟩ <;> first | decide +kernel | (intro st h; rcases h with rfl | rfl <;> decide +kernel)

/-- A packet of connection 1048575 with an opcode and a window's key. -/
def aPacket (op : Nat) (key : Nat := 7) (psn : Nat := 0) (off : Nat := 0) (body : List Byte := []) : SwPacket :=
  { port := 0, target := 1048575, src := [0, 0, 0, 0], body := body
    words := [BitVec.ofNat 32 (2 ^ 28 + op * 2 ^ 24), 0xFFFFF, BitVec.ofNat 32 psn, 0, BitVec.ofNat 32 off, 0, 4194303, BitVec.ofNat 32 key, 0, 0, 0, 0] }

/-- Packets (O36): good headers of each opcode, a bad one, one that is not for its connection, duplicates of each state, writes and reads that a
window allows and refuses, read responses, and answers of an outstanding packet. -/
theorem wit_swash_packets :
    let s := swash 2
    let e (st : Nat) := swash 2 fun d => { d with sw := { d.sw with ring := [(ringKey 1048575 0, some ⟨st, 0, 1⟩)] } }
    let r := swash 2 fun d => { d with ops := [anOp 5 0 { length := 64 }], sw := { d.sw with conns := [(1048575, { msgs := [{ op := 1, msn := 0, total := 1 }] })] } }
    let a := swash 2 fun d => { d with sw := { d.sw with conns := [(1048575, { out := [{ psn := 0, msn := 0, op := none, hdr := [], data := [] }] })] } }
    (Live s ∧ (∀ op, 1 ≤ op → op ≤ 5 → pkOp (aPacket op) = op ∧ badHdr (aPacket op) = false ∧ s.dev.notForConn (aPacket op) = false) ∧
      badHdr { aPacket 1 with lenOk := false } = true ∧ s.dev.notForConn { aPacket 1 with src := [1] } = true ∧ s.dev.ringAt 1048575 0 = none) ∧
    (∀ st, 1 ≤ st → st ≤ 3 → (e st).dev.ringAt 1048575 (pkPsn (aPacket 1)) = some ⟨st, 0, 1⟩ ∧ pkPsn (aPacket 1) / 4096 % 2 = 0 ∧
      pkPsn (aPacket 1 7 4096) / 4096 % 2 = 1) ∧
    (s.dev.trackOf 1048575 0 = none ∧ s.dev.sw.track.length < 262144 ∧
      s.dev.windowCheck 1048575 (pkWindow (aPacket 1 8)) (pkKey (aPacket 1 8)) 0 0 0 true = (some 3, .granted) ∧
      s.dev.windowCheck 1048575 4194303 7 0 4095 1 true = (none, .granted) ∧ s.dev.windowCheck 1048575 4194303 7 0 4096 1 true = (some 4, .granted) ∧
      pkSealed (aPacket 1) = false ∧ pkFlag (aPacket 1) 22 = false) ∧
    (s.dev.windowCheck 1048575 4194303 8 0 0 64 false = (some 3, .granted) ∧ s.dev.windowCheck 1048575 4194303 7 0 0 4096 false = (none, .granted)) ∧
    (s.dev.readOf (aPacket 3) = none ∧ r.dev.readOf (aPacket 3) = some (anOp 5 0 { length := 64 }) ∧ r.dev.readOf (aPacket 3 7 0 65) = none) ∧
    ((∃ x ∈ (a.dev.conn 1048575).out, x.psn = pkPsn (aPacket 4)) ∧ (a.dev.conn 1048575).rate.sampled = false ∧ (s.dev.conn 1048575).out = []) := by
  simp only [Live]
  refine ⟨⟨rfl, ?_, ?_, ?_, ?_⟩, ?_, ?_, ?_, ?_, ?_⟩ <;>
    first | decide +kernel
          | (intro op h k; have : op = 1 ∨ op = 2 ∨ op = 3 ∨ op = 4 ∨ op = 5 := by omega
             rcases this with rfl | rfl | rfl | rfl | rfl <;> decide +kernel)
          | (intro op h k; have : op = 1 ∨ op = 2 ∨ op = 3 := by omega
             rcases this with rfl | rfl | rfl <;> decide +kernel)

/-- Placements, messages, windows, retransmissions and frames (O37), before their time and at it. -/
theorem wit_swash_work :
    let pl : Placing := ⟨1048575, 0, 0, false, 4194303, 4096, false, 0, [1], 0, false, true, false, none, false⟩
    let tr : Tracker := { conn := 1048575, msn := 0, window := 4194303, gen := 0 }
    let x : OutPsn := { psn := 0, msn := 0, op := none, hdr := [], data := [], expiry := 10 }
    let s := swash 2 fun d => { (d.put (Reg.HST_TEN_BME 0) 1).put (Reg.HST_LINK_LINK_UP 0) 1 with sw := { d.sw with placing := [pl], track := [tr], installs := [(4194303, 1)], conns := [(1048575, { out := [x, { x with psn := 1, tries := 7 }] })] } }
    let b := swash 2 fun d => { d with sw := { d.sw with placing := [{ pl with tagBad := true }], installs := [(4194303, 2)] }, clk := { d.clk with tick := 1 } }
    let w := swash 2 fun d => { d with sw := { d.sw with installs := [(4194303, 1)] }, clk := { d.clk with tick := 1, tide := 10, epochs := 4096 } }
    let q := swash 2 fun d => (d.put (Reg.SWH_W_LENGTH 0) 4096).put (Reg.SWH_WIN_QUOTA 0) 1
    let i : TxItem := { id := 3, port := 0, q := 0, tid := 0, leaf := 1048575, len := 100, what := .control 1048575 0 0 0 false }
    let c := swash 2 fun d => { d with net := { d.net with items := [i] } }
    let l (n : Nat) := swash 2 fun d => { d with net := { d.net with wire := [(0, [{ what := .frame [] none, len := n, start := 0 }])] } }
    (s.dev.sw.placing.find? (fun p => p.conn == 1048575 && p.psn == 0) = some pl ∧ pl.data ≠ [] ∧ s.dev.hostLinkOf 0 false 4096 = some 0 ∧
      s.dev.mayIssue 0 = true ∧ s.dev.trackOf 1048575 0 = some tr ∧ tr.count ≠ some 1 ∧ b.dev.sw.placing = [{ pl with tagBad := true }]) ∧
    (s.dev.clk.epochs < tr.seen + Max.max 16 (s.dev.inF Reg.SWH_CTRL_PARTIAL_TIMEOUT) ∧
      tr.seen + Max.max 16 (w.dev.inF Reg.SWH_CTRL_PARTIAL_TIMEOUT) ≤ w.dev.clk.epochs ∧ tr.swp = none) ∧
    (q.dev.mayWrite .steward 0x500120 = true ∧ 0 < (q.dev.stagedWin 0).len ∧ (q.dev.stagedWin 0).len ≤ 2 ^ 38 ∧
      ¬ q.dev.inF (Reg.SWH_WIN_QUOTA 0) ≤ q.dev.rd (Reg.SWH_WIN_COUNT 0) ∧ State.reset.dev.mayWrite .jtag 0x500120 = false ∧
      State.reset.dev.rd (Reg.SWH_W_STATE 0) = 0) ∧
    (s.dev.clk.tick ≤ 1 / 4 ∧ Tab.get 0 w.dev.sw.installs 4194303 % 4 = 1 ∧ Tab.get 0 w.dev.sw.installs 4194303 / 4 < w.dev.clk.tick ∧
      w.dev.winDrained 4194303 = true ∧ Tab.get 0 b.dev.sw.installs 4194303 % 4 = 2 ∧ s.dev.winDrained 4194303 = false) ∧
    ((s.dev.conn 1048575).out.find? (fun x => x.psn == 0) = some x ∧ s.dev.clk.tide < x.expiry ∧ x.expiry ≤ w.dev.clk.tide ∧ x.again = false ∧
      x.stopped = none ∧ x.tries < 7 ∧ (s.dev.conn 1048575).out.find? (fun x => x.psn == 1) = some { x with psn := 1, tries := 7 }) ∧
    (c.dev.lineFree 0 = some 0 ∧ c.dev.pickTx 0 0 false = some (i.cand, c.dev) ∧ c.dev.pickTx 0 0 true = some (i.cand, c.dev) ∧
      i.cand.what = .control 1048575 0 0 0 false ∧ (swash 2).dev.lineFree 0 = some 0 ∧ (swash 2).dev.pickTx 0 0 false = none ∧
      (swash 2).dev.pickTx 0 0 true = none ∧
      (swash 2 fun d => { d with cal := { d.cal with busy := [(resSched ⟨5, 0, false⟩, 8 * 65536)] } }).dev.lineFree 0 = none) ∧
    (Tab.get [] (l 64).dev.net.wire 0 = [{ what := .frame [] none, len := 64, start := 0 }] ∧
      0 + ceilDiv ((64 + 8) * 65536) (l 64).dev.portBytesPerNs < ((l 64).dev.clk.tide + 8) * 65536 ∧
      ((l 9216).dev.clk.tide + 8) * 65536 ≤ 0 + ceilDiv ((9216 + 8) * 65536) (l 9216).dev.portBytesPerNs ∧ Tab.get [] State.reset.dev.net.wire 0 = []) := by decide +kernel

/-! Ethernet ports -/

/-- Port 0 in a link state since tick 0, at a tick, changed by f. -/
def port (st : Nat) (tick : Nat := 0) (f : Dev → Dev := id) : State :=
  on fun d => f { d.put (Reg.MAC_STATUS_LINK_STATE 0) st with clk := { d.clk with tick := tick } }

/-- Link states (O38): training and alignment at and before their ends, lanes trained before or not, a port that is not active. -/
theorem wit_link_states :
    (port 1).dev.portActive 0 = true ∧ (port 1).dev.linkState 0 = 1 ∧ (port 1).dev.portActive 15 = false ∧ 1 < (port 1).dev.lanes ∧ ¬ 7 < (port 1).dev.lanes ∧
    62500000 ≤ (port 1 62500000).dev.clk.tick - Tab.get 0 (port 1).dev.net.since 0 ∧ ¬ 62500000 ≤ (port 1 62499999).dev.clk.tick - 0 ∧
    (port 2).dev.linkState 0 = 2 ∧ 6250000 ≤ (port 2 6250000).dev.clk.tick - Tab.get 0 (port 2).dev.net.since 0 ∧
    125000 ≤ (port 2 125000).dev.clk.tick - 0 ∧ (port 3).dev.linkState 0 = 3 ∧ (port 2).dev.linkState 0 ≠ 3 ∧
    Tab.get false (port 1 0 fun d => { d with net := { d.net with trained := [(0, true)] } }).dev.net.trained 0 = true ∧
    Tab.get false (port 1).dev.net.trained 0 = false := by decide +kernel

/-- A frame of 64 bytes with its check sequence: 12 zero bytes, the type, l, zeros. -/
def aFrame (l fcs : List Byte) : List Byte := List.replicate 12 0 ++ l ++ List.replicate (48 - l.length) 0 ++ fcs

/-- Frames in (O39): sound ones of each kind (their check sequences are CRC-32's), runts, frames too long, misaligned and with a wrong check
sequence; a PFC frame's mode; pauses and the repeat of a pause, before and at their time. -/
theorem wit_frames_in :
    let data := aFrame [] [0x08, 0x89, 0x12, 0x04]
    let pfc := aFrame [0x88, 0x08, 0x01, 0x01, 0x00, 0x03, 0x00, 0x01] [0xE2, 0x80, 0xBE, 0xEB]
    let pause := aFrame [0x88, 0x08, 0x00, 0x01] [0xDD, 0x90, 0x54, 0xB5]
    let s := port 3
    let sound (l : List Byte) : Prop := ¬ Max.max 1518 (Min.min 9216 (s.dev.inF (Reg.MAC_PORT_CTL_MAX_FRAME 0))) < l.length ∧ ¬ l.length < 64 ∧
      natLe 4 (crc32 (l.take (l.length - 4))) = l.drop (l.length - 4)
    let m := port 3 0 fun d => d.put (Reg.MAC_PORT_CTL_PFC_MODE 0) 1
    let z := port 3 0 fun d => { d with clk := { d.clk with tide := 10 }, net := { d.net with pauses := [(7, some 10)], xoff := [(0, some 0)] } }
    let b (tide : Nat) := port 3 0 fun d => { d with clk := { d.clk with tide := tide }, net := { d.net with xoff := [(0, some 0)], runs := [⟨0, 0, 0, 4194304, 0⟩] } }
    (s.dev.portUp 0 = true ∧ (port 2).dev.portUp 0 = false ∧ sound data ∧ sound pfc ∧ sound pause ∧ isPfc pfc = true ∧ isPfc data = false ∧
      isPause pause = true ∧ isPause data = false ∧ s.dev.pfcMode 0 = 0 ∧ m.dev.pfcMode 0 = 1 ∧ s.dev.inF (Reg.MAC_PORT_CTL_DELIVER_BAD 0) = 0) ∧
    ((be16 pfc 16).testBit 0 = true ∧ (be16 pfc 16).testBit 1 = true ∧ (be16 pfc 16).testBit 2 = false ∧ be16 pfc 18 ≠ 0 ∧ be16 pfc 20 = 0) ∧
    ((data.drop 1).length < 64 ∧ Max.max 1518 (Min.min 9216 (s.dev.inF (Reg.MAC_PORT_CTL_MAX_FRAME 0))) < (List.replicate 9217 (0 : Byte)).length ∧
      natLe 4 (crc32 ((data.set 0 1).take 60)) ≠ (data.set 0 1).drop 60) ∧
    (Tab.get none z.dev.net.pauses 7 = some 10 ∧ z.dev.clk.tide = 10 ∧ Tab.get none s.dev.net.pauses 7 = none) ∧
    (Tab.get none z.dev.net.xoff 0 = some 0 ∧ z.dev.rxOccupancy 0 ≤ z.dev.inF (Reg.MAC_PFC_XON_KIB 0) * 1024 ∧
      (b 0).dev.inF (Reg.MAC_PFC_XON_KIB 0) * 1024 < (b 0).dev.rxOccupancy 0 ∧ 0 + (b 0).dev.quantaNs ((b 0).dev.inF (Reg.MAC_PFC_QUANTA 0) / 2) ≤ (b 1000000).dev.clk.tide ∧
      (b 0).dev.clk.tide < 0 + (b 0).dev.quantaNs ((b 0).dev.inF (Reg.MAC_PFC_QUANTA 0) / 2)) := by
  decide +kernel

/-- Frames out (O39): a forwarded frame and an operation's frame that may go, none, flushes and pops by right and without, posts that are taken
and that are dropped. -/
theorem wit_frames_out :
    let i : TxItem := { id := 3, port := 0, q := 0, tid := 0, leaf := 2 ^ 20, len := 64, what := .frame [1] none }
    let f := port 3 0 fun d => { d with net := { d.net with items := [i] } }
    let o : Op := { staged (anOp 1 0 { length := 64 }) ⟨5, 0, false⟩ 64 with slack := false, data := List.replicate 60 0 }
    let g := port 3 0 fun d => { d with ops := [o] }
    let r := on fun d => d.put (Reg.TEN_Q_ENABLE 511 (512 + 255)) 1
    (f.dev.boot.thermTrip = false ∧ (f.dev.pickTx 0 0 true).map (·.1) = some i.cand ∧ (∀ e, f.dev.pickTx 0 0 true = some (i.cand, e) → e = { f.dev with cal := e.cal }) ∧
      i.cand.what = .frame [1] none) ∧
    ((g.dev.pickTx 0 0 true).map (fun x => (x.1.what, decide (x.2 = g.dev))) = some (.op 1, true) ∧ g.dev.op? 1 = some o ∧ o.req.kind = 1 ∧ o.status = 0) ∧
    ((port 3).dev.pickTx 0 0 true = none ∧ State.reset.dev.mayWrite .jtag (0x200028 + 0x4000 * 15) = false ∧
      State.reset.dev.mayWrite .steward (0x200028 + 0x4000 * 15) = true ∧ State.reset.dev.mayWrite .steward (0x200060 + 0x4000 * 15) = true) ∧
    (r.dev.rd (Reg.TEN_Q_ENABLE 511 (512 + 255)) ≠ 0 ∧ r.dev.rxWaiting 511 255 = [] ∧ State.reset.dev.rd (Reg.TEN_Q_ENABLE 0 512) = 0) := by
  refine ⟨⟨rfl, ?_, ?_, ?_⟩, ?_, ?_, ?_⟩
  · decide +kernel
  · intro e h
    have : (((port 3 0 fun d => { d with net := { d.net with items := [{ id := 3, port := 0, q := 0, tid := 0, leaf := 2 ^ 20, len := 64, what := .frame [1] none }] } }).dev.pickTx 0 0 true).map
      fun x => decide (x.2 = { (port 3 0 fun d => { d with net := { d.net with items := [{ id := 3, port := 0, q := 0, tid := 0, leaf := 2 ^ 20, len := 64, what := .frame [1] none }] } }).dev with cal := x.2.cal })) = some true := by
      decide +kernel
    rw [h] at this
    simpa using this
  all_goals decide +kernel

/-! Parsing and classification -/

/-- Programs and pattern images (O41): commits by right and without, pending; a program that passes and one that fails; an image in HBM that
fails its check, and one outside DRAM; one to activate. An image that passes is not written out: it is 2,112 bytes or more with the CRC-32C of
its set table, which the kernel takes too long to evaluate. -/
theorem wit_programs :
    let s := on fun d => { (d.put Reg.PRS_PAT_ADDR 0x20000000000).put Reg.PRS_PAT_LENGTH 64 with clk := { d.clk with due := [.progCheck, .patCheck] } }
    let b := on fun d => { d.put (Reg.PRS_TRANS_W 0) 1 with net := { d.net with patShadow := some [] }, clk := { d.clk with due := [.progCheck, .patActivate] } }
    (State.reset.dev.mayWrite .oob 0x300000 = false ∧ State.reset.dev.mayWrite .steward 0x300000 = true ∧ State.reset.dev.mayWrite .steward 0x300038 = true ∧
      State.reset.dev.rd Reg.PRS_STATUS_PAT_PENDING = 0 ∧ (on fun d => d.put Reg.PRS_STATUS_PAT_PENDING 1).dev.rd Reg.PRS_STATUS_PAT_PENDING ≠ 0) ∧
    (s.dev.clk.due.contains .progCheck = true ∧ progOk s.dev.adminProg = true ∧ b.dev.clk.due.contains .progCheck = true ∧ progOk b.dev.adminProg = false) ∧
    (s.dev.clk.due.contains .patCheck = true ∧ 0x20000000000 % 64 = 0 ∧ s.dev.inDram 0x20000000000 64 = true ∧ s.dev.anyPoison 0x20000000000 64 = false ∧
      imageOk (s.dev.bytes 0x20000000000 64) = false ∧ s.dev.inDram 0x30000000000 64 = false) ∧
    (b.dev.clk.due.contains .patActivate = true ∧ b.dev.net.patShadow = some []) := by decide +kernel

/-- A program whose extractions keep within the field vector (O40): the one without any. -/
theorem wit_parse_ends :
    (∀ st i, i < 2 → extOk (progAt [] (Reg.PRS_STATE_W st i) % 2 ^ 32) = true ∧ extOk (progAt [] (Reg.PRS_STATE_W st i) / 2 ^ 32 % 2 ^ 32) = true) :=
  fun st i _ => by
    have h (k : Fld) : progAt [] k = 0 := rfl
    rw [h]; decide +kernel

/-- Frames in the pipelines (O41), at each step before its time and at it: to be parsed; to look up with no key at a stage, and with one that
hits; settled by each action; failed with tokens and without; handed on with each fate. -/
theorem wit_classification :
    let f : RxFrame := { id := 1, port := 0, bytes := List.replicate 64 0, at_ := 0 }
    let s (f : RxFrame) (tide : Nat) := port 3 0 fun d => { d.put Reg.PRS_EXC_ENABLE 1 with
      clk := { d.clk with tide := tide }, net := { d.net with frames := [f], excTokens := [(7, 256)] } }
    let p : RxFrame := { f with passed := true, keys := [none, some (0, List.replicate 8 0)] }
    let h (a0 : Nat) : RxFrame := { p with hit := some (a0, 0, 3), next := 4 }
    let e : RxFrame := { p with fail := 7 }
    let o (l : List Fate) : RxFrame := { p with fates := some l }
    let first (f : RxFrame) := (s f 88).dev.net.frames.find? (fun f => decide (f.port = 0) && f.fates.isSome)
    let settles (f : RxFrame) := (s f 80).dev.net.frames.find? (fun f => decide (f.port = 0) && (f.passed && f.fates.isNone))
    ((s f 0).dev.net.frames.find? (fun f => decide (f.port = 0) && !f.passed) = some f ∧ (s p 0).dev.net.frames.find? (fun f => decide (f.port = 0) && !f.passed) = none) ∧
    ((s p 15).dev.net.frames.find? (fun f => decide (f.port = 0) && (f.passed && !f.looked && decide (f.next = 0))) = some p ∧ (s p 15).dev.clk.tide < p.at_ + 16 ∧
      p.keys.getD 0 none = none ∧ p.keys.getD 1 none = some (0, List.replicate 8 0)) ∧
    (settles e = some e ∧ e.fail ≠ 0 ∧ e.fail < 8 ∧ (s e 80).dev.inF Reg.PRS_EXC_ENABLE ≠ 0 ∧ 256 ≤ Tab.get 0 (s e 80).dev.net.excTokens 7 ∧
      Tab.get 0 (s e 80).dev.net.excTokens 1 < 256) ∧
    (∀ a, a < 5 → settles (h (a * 2 ^ 60)) = some (h (a * 2 ^ 60)) ∧ ((h (a * 2 ^ 60)).fv.getD 1 0).toNat.testBit 2 = false ∧ a * 2 ^ 60 / 2 ^ 60 % 16 = a ∧
      (a * 2 ^ 60).testBit 56 = false ∧ (a * 2 ^ 60).testBit 57 = false ∧ (a * 2 ^ 60).testBit 58 = false ∧ (a * 2 ^ 60).testBit 35 = false) ∧
    ((∀ l ∈ ([[], [.port 0 0 8], [.port 0 0 0]] : List (List Fate)), first (o l) = some (o l)) ∧ (s f 88).dev.pfcMode 0 = 0 ∧ (s f 88).dev.portUp 8 = false ∧
      (s f 88).dev.portUp 0 = true ∧ (s f 88).dev.queueSlack 0 0 + 64 ≤ (s f 88).dev.inF (Reg.MAC_SLACK_SLACK_LIMIT_KIB 0) * 1024 ∧
      (port 3 0 fun d => d.put (Reg.MAC_SLACK_SLACK_LIMIT_KIB 0) 0).dev.inF (Reg.MAC_SLACK_SLACK_LIMIT_KIB 0) * 1024 < 64) ∧
    (let n : Handoff := ⟨⟨15, 0, 0, 64, 0⟩, 5, 0, List.replicate 16 1, none, 0⟩
     let t := on fun d => { d with net := { d.net with handoffs := [n] } }
     (t.dev.net.handoffs.find? fun h => decide (h.run.shoal = 15)) = some n ∧ n.scan = none ∧ n.meta16.length = 16 ∧
      (t.dev.net.handoffs.find? fun h => decide (h.run.shoal = 14)) = none) := by
  refine ⟨?_, ?_, ?_, ?_, ?_, ?_⟩ <;>
    first | decide +kernel
          | (intro a h; have : a = 0 ∨ a = 1 ∨ a = 2 ∨ a = 3 ∨ a = 4 := by omega
             rcases this with rfl | rfl | rfl | rfl | rfl <;> decide +kernel)

/-- A lookup that hits (O41). -/
theorem wit_lookup_hit :
    let s := reef [((State.reset.dev.places (List.replicate 8 0)).getD 0 0, List.replicate 8 0)]
    (match (s.dev.look 0 (List.replicate 8 0) true).1 with | .hit a0 _ _ => !a0.testBit 57 && !a0.testBit 58 | .miss => false | .shed => false | .poison => false) = true := by
  decide +kernel

/-! The host links -/

/-- Running, with both host links up, the functions 0 and 256 with memory space and bus mastering, and f. -/
def hosted (f : Dev → Dev := id) : State :=
  on fun d => f (((((((d.put Reg.HDL_STATUS_STAGE 8).put (Reg.HST_LINK_LINK_UP 0) 1).put (Reg.HST_LINK_LINK_UP 1) 1).put (Reg.HST_TEN_MSE 0) 1).put (Reg.HST_TEN_BME 0) 1).put (Reg.HST_TEN_MSE 256) 1).put
    (Reg.HST_TEN_BME 256) 1)

/-- A read of 64 bytes at link 0 by tenant 0. -/
def aRead (u : ReadUse) (absorbed : Bool := false) : HostRead := ⟨0, 5, 0, 0x1000, 64, u, 0, false, false, absorbed⟩

/-- Rings (O42): enabled within their quota, without one, and when they are; disabled with reads and completions under way; doorbells that are
known and not; an entry to fetch; completions that wait with room and without. -/
theorem wit_rings :
    let s := hosted fun d => ((d.put (Reg.HST_TEN_SQ_QUOTA 0) 64).put (Reg.HST_TEN_CQ_QUOTA 0) 64).put (Reg.HST_TEN_RQ_QUOTA 0) 256
    let ok (d : Dev) (q n size : Nat) : Prop := 6 ≤ size ∧ size ≤ 16 ∧ q < 3 ∧ n < (if q = 2 then 256 else 64) ∧ d.ringsOn 0 q < d.ringQuota 0 q ∧
      d.linkRings 0 q < (if q = 2 then 8192 else 4096)
    let w : WaitingCompletion := ⟨0, 63, .words [1, 2, 3, 4] false⟩
    let n : WaitingNvme := { tid := 0, sq := 64, cid := 1, status := 0 }
    let r := hosted fun d => { (((((d.put (Reg.TEN_Q_ENABLE 0 63) 1).put (Reg.TEN_Q_SIZE_LOG2 0 63) 16).put (Reg.TEN_Q_TAIL 0 63) 1).put (Reg.TEN_Q_ENABLE 0 319) 1).put
      (Reg.TEN_Q_SIZE_LOG2 0 319) 6).put (Reg.TEN_Q_ENABLE 0 (512 + 255)) 1 with host := { d.host with
        waiting := [w], waitingNvme := [n], sqs := [(64, { size := 2, cq := 64 })], cqs := [(64, { size := 2 })] } }
    let full := hosted fun d => { (r.dev.put (Reg.TEN_Q_HEAD 0 319) 1) with host := { r.dev.host with cqs := [(64, { size := 2, head := 1 })] } }
    (s.dev.barOn 0 = true ∧ BarOpen s.dev 0 false ∧ State.reset.dev.barOn 0 = false ∧
      (hosted fun d => d.put (Reg.HST_TEN_TDI_STATE 0) 2).dev.rd (Reg.HST_TEN_TDI_STATE 0) = 2) ∧
    (ok s.dev 0 63 6 ∧ ok s.dev 1 63 16 ∧ ok s.dev 2 255 6 ∧ s.dev.rd (Reg.TEN_Q_ENABLE 0 63) = 0 ∧
      ¬ s.dev.ringsOn 256 0 < s.dev.ringQuota 256 0) ∧
    (BarOpen r.dev 0 false ∧ r.dev.rd (Reg.TEN_Q_ENABLE 0 63) ≠ 0 ∧ r.dev.rd (Reg.TEN_Q_ENABLE 0 319) ≠ 0 ∧ r.dev.rd (Reg.TEN_Q_ENABLE 0 (512 + 255)) ≠ 0 ∧
      (∀ w ∈ r.dev.host.waiting, w.tid = 0 → w.ring = 63 → ∃ ws i, w.what = .words ws i) ∧ r.dev.rxWaiting 0 255 = []) ∧
    (r.dev.ringOn 0 63 = true ∧ 65535 < 2 ^ r.dev.rd (Reg.TEN_Q_SIZE_LOG2 0 63) ∧ r.dev.ringOn 0 62 = false ∧ r.dev.ringOn 0 319 = true ∧
      63 < 2 ^ r.dev.rd (Reg.TEN_Q_SIZE_LOG2 0 319) ∧ ¬ 64 < 2 ^ r.dev.rd (Reg.TEN_Q_SIZE_LOG2 0 319) ∧ Tab.get 0 r.dev.host.fetch 63 = 0) ∧
    (s.dev.ringFetches 0 63 = false ∧ r.dev.ringFetches 0 63 = true ∧ (1 + 65536 - 0) % 65536 = 1 ∧
      r.dev.tagFor { link := 0, tag := 0, tid := 0, addr := 0, len := 64, use := .descs 63 0 1, time := 0, booked := false } = some 0) ∧
    (r.dev.host.waiting.find? (fun w => decide (w.tid = 0) && decide (w.ring = 63)) = some w ∧ r.dev.ringLive 0 63 = true ∧ r.dev.ringFull 0 319 = false ∧
      full.dev.ringFull 0 319 = true ∧ s.dev.host.waiting = []) ∧
    (r.dev.host.waitingNvme.find? (fun w => decide (w.tid = 0) && decide ((r.dev.nvSq 0 w.sq).cq = 64)) = some n ∧ r.dev.queuesLive 0 = true ∧
      (r.dev.nvCq 0 64).full = false ∧ (r.dev.nvCq 0 64).ien = false ∧ n.timing = none ∧ (full.dev.nvCq 0 64).full = true) := by
  refine ⟨?_, ?_, ⟨?_, ?_, ?_, ?_, ?_, ?_⟩, ?_, ?_, ?_, ?_⟩ <;> first
    | (unfold BarOpen; decide +kernel)
    | decide +kernel
    | (intro w h _ _; rcases List.mem_singleton.mp (show w ∈ [(⟨0, 63, .words [1, 2, 3, 4] false⟩ : WaitingCompletion)] from h) with rfl
       exact ⟨_, _, rfl⟩)

/-- Reads that return (O43): of no tag, absorbed, of entries, before their time and at it. -/
theorem wit_read_returns :
    let s (r : HostRead) (t : Nat) := hosted fun d => { d with host := { d.host with reads := [r] }, clk := { d.clk with tide := t } }
    State.reset.dev.readByTag 1 16383 = none ∧ (∀ r ∈ [aRead (.descs 63 65535 1), aRead (.descs 63 0 1) true],
      (s r 0).dev.readByTag 0 5 = some r ∧ (s r 0).dev.clk.tide < r.time + (s r 0).dev.complTimeout 0 ∧
      r.time + (s r 50000000).dev.complTimeout 0 ≤ (s r 50000000).dev.clk.tide) := by decide +kernel

/-- A function of which nothing is under way. -/
theorem host_idle_reset (f : Dev → Dev) (h : f Dev.reset = { Dev.reset with regs := (f Dev.reset).regs }) (tid : Nat) : HostIdle (on f).dev tid := by
  have e : (on f).dev = { Dev.reset with regs := (f Dev.reset).regs } := h
  rw [e]
  exact ⟨fun _ h => absurd h List.not_mem_nil, fun _ h => absurd h List.not_mem_nil, fun _ h => absurd h List.not_mem_nil, fun _ h => absurd h List.not_mem_nil,
    fun _ h => absurd h List.not_mem_nil, fun _ h => absurd h List.not_mem_nil, fun _ h => absurd h List.not_mem_nil,
    fun _ h => absurd h List.not_mem_nil, fun _ h => absurd h List.not_mem_nil⟩

/-- Function enables (O43): a function reached and not; enabled and not; in D3hot; a VF. -/
theorem wit_enables :
    let s := hosted
    let z := hosted fun d => d.put (Reg.HST_TEN_BME 256) 0
    let d3 := hosted fun d => d.put (Reg.HST_TEN_D3 256) 1
    let still (d : Dev) (u : Nat) : Prop := d.rd (Reg.HST_TEN_TDI_STATE u) ≠ 1 ∧ d.rd (Reg.HST_TEN_TDI_STATE u) ≠ 2
    HostIdle s.dev 256 ∧ (s.dev.cfgOn 256 = true ∧ State.reset.dev.cfgOn 256 = false ∧ s.dev.rd (Reg.HST_TEN_BME 256) ≠ 0 ∧ s.dev.cfgWord 256 4 < 65536 ∧
      still s.dev 256) ∧
    (z.dev.cfgOn 256 = true ∧ z.dev.rd (Reg.HST_TEN_BME 256) = 0 ∧ still z.dev 256 ∧ s.dev.rd (Reg.HST_TEN_D3 256) = 0 ∧
      d3.dev.cfgOn 256 = true ∧ d3.dev.rd (Reg.HST_TEN_D3 256) ≠ 0) ∧
    (256 % 256 < 2 ∧ (∀ u ∈ vfsOf 256, still s.dev u) ∧ (∀ o ∈ s.dev.ops, o.req.tid ≠ 256 ∧ o.req.tid ∉ vfsOf 256) ∧ 2 ≤ 258 % 256 ∧
      (hosted fun d => { d with host := { d.host with config := [(256 * 4096 + 0x170, 1), (256 * 4096 + 0x178, 1)] } }).dev.cfgOn 258 = true) ∧
    (BarOpen s.dev 0 false ∧ Tab.get 0 s.dev.regs.hot (Reg.TEN_STATUS_QUEUES_STALE 0).key = 0) := by
  refine ⟨host_idle_reset _ rfl _, ?_, ?_, ?_, ?_⟩ <;> first | decide +kernel | (unfold BarOpen; decide +kernel)

/-- Function resets (O44): begun, not yet over, over, and over by time with a read that is held. -/
theorem wit_flr :
    let s := hosted
    let r (l : List HostRead) (t : Nat) := hosted fun d => { d with host := { d.host with flrFrom := [(0, some 8)], reads := l }, clk := { d.clk with tide := t } }
    let from_ (s : State) := Tab.get none s.dev.host.flrFrom 0
    let late (s : State) : Prop := 8 + 90000000 ≤ s.dev.clk.tide
    (s.dev.cfgOn 0 = true ∧ State.reset.dev.cfgOn 0 = false ∧ FunctionIdle s.dev 0) ∧
    (from_ s = none ∧ from_ (r [] 16) = some 8 ∧ (∀ o ∈ (r [] 16).dev.ops, o.req.tid = 0 → o.ended = false) ∧ (∀ x ∈ (r [] 16).dev.host.reads, x.tid ≠ 0) ∧
      ¬ (∀ x ∈ (r [aRead (.data 0 0)] 16).dev.host.reads, x.tid ≠ 0) ∧ ¬ late (r [aRead (.data 0 0)] 16) ∧ late (r [aRead (.data 0 0)] 90000008)) := by
  refine ⟨⟨by decide +kernel, by decide +kernel, host_idle_reset _ rfl _, ?_, ?_, by decide +kernel⟩, ?_⟩ <;>
    first | (intro p h; exact absurd h List.not_mem_nil) | decide +kernel

/-- Host links, configuration and the tenant page (O44, O45): before self-test is over and after; functions reached; VFs asked for, there and not;
accesses of a size that is right and wrong, at each register; the vectors. -/
theorem wit_config :
    let s := hosted
    let vf := hosted fun d => { d with host := { d.host with config := [(256 * 4096 + 0x170, 1)] } }
    let ask := hosted fun d => { d with host := { d.host with vfAsk := [256] } }
    let even (size off : Nat) : Prop := (size = 8 ∧ off % 8 = 0) ∨ (size = 4 ∧ off % 4 = 0)
    (s.dev.rd Reg.HDL_STATUS_STAGE ≠ 1 ∧ (hosted fun d => d.put Reg.HDL_STATUS_STAGE 1).dev.rd Reg.HDL_STATUS_STAGE = 1 ∧ s.dev.ops = []) ∧
    (s.dev.cfgOn 256 = true ∧ (s.dev.cfgWord 256 0x170).testBit 0 = false ∧ s.dev.host.vfAsk = [] ∧ (vf.dev.cfgWord 256 0x170).testBit 0 = true ∧
      256 ∈ ask.dev.host.vfAsk ∧ ask.dev.cfgOn 256 = true ∧ State.reset.dev.cfgOn 256 = false) ∧
    (s.dev.cfgWord 256 0x108 < 65536 ∧ s.dev.cfgWord 256 0x104 < 65536 ∧ s.dev.cfgWord 256 0x10 < 65536 ∧ s.dev.cfgWord 256 0x12 < 65536) ∧
    (BarOpen s.dev 0 false ∧ even 8 0x2008 ∧ even 4 0x2008 ∧ ¬ even 8 4 ∧ ¬ even 2 0 ∧ s.dev.pageC 0 + 0x10 = 0x10 ∧
      (∀ k, k < 256 → Tab.get false s.dev.host.msixPending (0 * 256 + k) = false)) := by
  refine ⟨by decide +kernel, by decide +kernel, by decide +kernel, by unfold BarOpen; decide +kernel, ?_, ?_, ?_, ?_, by decide +kernel, fun _ _ => rfl⟩ <;> decide +kernel

/-- Invalidations and the management interrupt (O45): with a read that uses the entry and without; messages open and held. -/
theorem wit_tenant_page :
    let w : AtsWait := ⟨0, 31, 0, 0x1000, 64, [5]⟩
    let s (l : List HostRead) := hosted fun d => { d with host := { d.host with ats := [w], reads := l } }
    let m (f : Dev → Dev) := hosted fun d => f (d.put Reg.HST_MGMT_PENDING_EVENTS 2)
    let o := m fun d => { d with host := { d.host with config := [(0x72, 0x8000)], msixMask := [(0, false)] } }
    State.reset.dev.host.ats.find? (fun w => decide (w.link = 0) && decide (w.itag = 31)) = none ∧
    (s []).dev.host.ats.find? (fun w => decide (w.link = 0) && decide (w.itag = 31)) = some w ∧
    (∃ r ∈ (s [aRead (.data 0 0)]).dev.host.reads, r.link = w.link ∧ r.tag ∈ w.tags ∧ r.uses w.link w.tid w.addr w.len = true) ∧
    (¬ ∃ r ∈ (s []).dev.host.reads, r.link = w.link ∧ r.tag ∈ w.tags ∧ r.uses w.link w.tid w.addr w.len = true) ∧
    (o.dev.rd Reg.HST_MGMT_PENDING_EVENTS = 2 ∧ o.dev.vectorOpen 0 (o.dev.inF Reg.HST_MGMT_VECTOR) = true ∧
      (m id).dev.vectorOpen 0 ((m id).dev.inF Reg.HST_MGMT_VECTOR) = false ∧ State.reset.dev.rd Reg.HST_MGMT_PENDING_EVENTS = 0) := by decide +kernel

/-! SPDM, TDISP and the slots -/

/-- Both links up, with a responder and a TDI of tenant 1 in a state, covered by stream 7 of link 0 or not. -/
def trusted (x : Spdm) (tdi : Nat) (cover : Bool) : State :=
  hosted fun d => { d.put (Reg.HST_TEN_TDI_STATE 1) tdi with host := { d.host with
    spdm := [(0, x)], streams := if cover then [(7, { secure := true })] else []
    config := [(0x344, 1), (0x346, 0x80), (0x34C, 0x100), (0x350, 0x101)] } }

/-- Responders (O46): silent and heard; before each step and at it; a session begun, completed and none; TDIs in each state, covered and not. -/
theorem wit_trusted :
    let s (x : Spdm) := (trusted x 0 true).dev
    let b : Spdm := { step := 3, session := some 7 }
    let f : Spdm := { b with finished := true }
    (¬ State.reset.dev.linkUp 0 = true ∧ (s {}).linkUp 0 = true ∧ State.reset.dev.rd Reg.HDL_STATUS_STAGE = 1) ∧
    (∀ n, n ≤ 3 → ((s { step := n }).spdm 0).step = n) ∧
    (((s b).spdm 0).session ≠ none ∧ ((s b).spdm 0).finished = false ∧ ((s {}).spdm 0).session = none) ∧
    (((s f).spdm 0).session ≠ none ∧ ((s f).spdm 0).finished = true) ∧
    (∀ st, st ≤ 3 → (trusted f st true).dev.rd (Reg.HST_TEN_TDI_STATE 1) = st) ∧
    ((s f).covered 1 = true ∧ (trusted f 0 false).dev.covered 1 = false ∧ (s f).fnLive 1 = true ∧ (s f).fnLive 2 = false) ∧
    (∀ u, u < 2 → (s f).rd (Reg.HST_TEN_TDI_STATE u) ≠ 1 ∧ (s f).rd (Reg.HST_TEN_TDI_STATE u) ≠ 2) ∧
    ((s f).boot.identityKey = false ∧ (on fun d => { d with boot := { d.boot with identityKey := true } }).dev.boot.identityKey = true) := by
  refine ⟨?_, ?_, ?_, ?_, ?_, ?_, ?_, ?_⟩ <;> first
    | decide +kernel
    | (intro n h; have : n = 0 ∨ n = 1 ∨ n = 2 ∨ n = 3 := by omega
       rcases this with rfl | rfl | rfl | rfl <;> decide +kernel)
    | (intro n h; have : n = 0 ∨ n = 1 := by omega
       rcases this with rfl | rfl <;> decide +kernel)

/-- IDE_CHECK_FAILED (O46): a link none of whose TDIs a stream covers. -/
theorem wit_ide_check : ∀ u, u / 256 = 0 → State.reset.dev.streamHas 0 0 u = true →
    State.reset.dev.rd (Reg.HST_TEN_TDI_STATE u) ≠ 1 ∧ State.reset.dev.rd (Reg.HST_TEN_TDI_STATE u) ≠ 2 := by
  intro u _ h
  have e : State.reset.dev.streamHas 0 0 u = false := by
    have : (State.reset.dev.streamReg 0 0 4).testBit 0 = false := by decide +kernel
    simp [Dev.streamHas, this]
  rw [e] at h; cases h

/-- Slot 7 with x, powered, in reset or not, its link up or not. -/
def slotted (x : Machine.Slot) (on_ perst up : Nat) (tick : Nat := 0) : State :=
  on fun d => { (((d.put (Reg.HST_RP_POWERED 7) on_).put (Reg.HST_RP_PERST_ASSERTED 7) perst).put (Reg.HST_RP_LINK_UP 7) up) with
    host := { d.host with slots := [(7, x)] }, clk := { d.clk with tick := tick } }

/-- Slots (O47): off and on; a release and a power-off before their time and at it; links down, up and ready to come up. -/
theorem wit_slots :
    let x : Machine.Slot := { off := false, perstAt := some 5, pwrenAt := some 5 }
    let s := slotted x 1 0 0
    (Live s ∧ (s.dev.slot 7).off = false ∧ (State.reset.dev.slot 7).off = true) ∧
    ((s.dev.slot 7).perstAt = some 5 ∧ (s.dev.slot 7).pwrenAt = some 5 ∧ s.dev.clk.tick < 5 ∧ 5 ≤ (slotted x 1 0 0 5).dev.clk.tick ∧
      (State.reset.dev.slot 7).perstAt = none ∧ (State.reset.dev.slot 7).pwrenAt = none) ∧
    (s.dev.rd (Reg.HST_RP_POWERED 7) ≠ 0 ∧ s.dev.rd (Reg.HST_RP_PERST_ASSERTED 7) = 0 ∧ s.dev.rd (Reg.HST_RP_LINK_UP 7) = 0) ∧
    (State.reset.dev.rd (Reg.HST_RP_POWERED 7) = 0 ∧ (slotted x 1 0 1).dev.rd (Reg.HST_RP_LINK_UP 7) ≠ 0 ∧ (∀ o ∈ s.dev.ops, o.req.kind ≠ 6)) := by
  unfold Live; decide +kernel

/-- Slot traffic (O47): requests that the firewall grants, denies and finds no memory for; windows; configuration cycles. -/
theorem wit_slot_traffic :
    let s := slotted {} 1 0 1
    let g := on fun d => { s.dev with mem := { d.mem with regions := [⟨0x20000000000, 0x20000001000, 0, 0, 1, true, true, true⟩] } }
    let e (bus fn : Nat) : PrivCycle := ⟨0, false, bus, 0, fn, 0⟩
    let c (bus fn : Nat) (t : Nat := 0) := on fun d => { d.put Reg.HST_PCFG_BUSY 1 with
      host := { d.host with pcfg := some (e bus fn) }, clk := { d.clk with tick := t } }
    let sh := s.dev.inF (Reg.HST_RP_DMA_SHOAL 7)
    (s.dev.rd (Reg.HST_RP_LINK_UP 7) ≠ 0 ∧ State.reset.dev.rd (Reg.HST_RP_LINK_UP 7) = 0) ∧
    (g.dev.firewall (.shoal sh) 0x20000000FC0 64 .read = .granted ∧ g.dev.firewall (.shoal sh) 0x20000000FC0 64 .write = .granted ∧
      g.dev.place 0x20000000FC0 = .hbm ∧ g.dev.partialPoison 0x20000000FC0 64 = none ∧
      g.dev.firewall (.shoal sh) 0x20000001000 64 .read = .denied ∧ g.dev.firewall (.shoal sh) 0x20000001000 64 .write = .denied ∧
      g.dev.firewall (.shoal sh) 0x30004000000 64 .read = .hole) ∧
    (s.dev.mayWrite .jtag 0x8A0000 = false ∧ s.dev.mayWrite .steward 0x8A0000 = true ∧ s.dev.mayWrite .jtag 0x800048 = false ∧
      s.dev.mayWrite .steward 0x800048 = true) ∧
    (State.reset.dev.rd Reg.HST_PCFG_BUSY = 0 ∧ (c 1 0).dev.rd Reg.HST_PCFG_BUSY ≠ 0 ∧ State.reset.dev.host.pcfg = none ∧ (c 1 0).dev.host.pcfg = some (e 1 0) ∧
      (c 1 0).dev.clk.tick < 0 + 6250000 ∧ 0 + 6250000 ≤ (c 1 0 6250000).dev.clk.tick ∧ (e 1 0).bus ≠ 0 ∧
      (e 0 0).bus = 0 ∧ (e 0 0).dev < 8 ∧ (e 0 0).fn = 0 ∧ (e 0 1).fn ≠ 0) := by
  decide +kernel

/-! Storage -/

/-- Tenant 0's controller enabled with its personality, queues 0 and 64 there, namespaces 1 and 32 enabled, and f. -/
def stored (f : Dev → Dev := id) : State :=
  hosted fun d => f { (((((d.put (Reg.STG_FN_PERSONALITY 0) 1).put (Reg.STG_FN_EN 0) 1).put (Reg.STG_FN_RDY 0) 1).put (Reg.STG_NS_ENABLE 0) 1).put
    (Reg.STG_NS_ENABLE 31) 1) with host := { d.host with
      sqs := [(0, { size := 2 }), (64, { size := 4096, cq := 64, tail := 1 })], cqs := [(0, { size := 2 }), (64, { size := 2 })] } }

/-- NVMe queues (O48): doorbells that are known and not; an entry to fetch; controllers that serve and not. -/
theorem wit_nvme_queues :
    let s := stored
    (BarOpen s.dev 0 false ∧ s.dev.nvLive 0 64 = true ∧ 4095 < (s.dev.nvSq 0 64).size ∧ ¬ 4096 < (s.dev.nvSq 0 64).size ∧ (s.dev.nvSq 0 64).deleting = none ∧
      s.dev.nvLive 0 63 = false ∧ Tab.get 0 s.dev.host.fetch (512 + 64) = 0 ∧ (stored fun d => d.put (Reg.HST_TEN_BME 0) 0).dev.queuesLive 0 = false) ∧
    (s.dev.nvFetches 0 64 = true ∧ s.dev.nvFetches 0 0 = false ∧ (s.dev.nvSq 0 64).base % 4096 = 0 ∧
      ((s.dev.nvSq 0 64).tail + (s.dev.nvSq 0 64).size - 0) % (s.dev.nvSq 0 64).size = 1 ∧
      s.dev.tagFor { link := 0, tag := 0, tid := 0, addr := 0, len := 64, use := .entries 64 0 1, time := 0, booked := false } = some 0) := by
  unfold BarOpen; decide +kernel

/-- An admin command, and its dwords. -/
def anAdmin (d10 : BitVec 32 := 0) (d11 : BitVec 32 := 0) : NvAdmin := { tid := 0, cid := 1, d10 := d10, d11 := d11 }

/-- NVMe queue administration (O48): a completion queue and a submission queue that may be created, and each fault; queues to delete, idle, in use,
and with a command handed to its backend. -/
theorem wit_queue_admin :
    let s := stored
    let o : Op := { anOp 6 1 {} (.nvme 64 1) with handed := some 0 }
    let b := stored fun d => { d with ops := [o] }
    let q (a : NvAdmin) := a.d10.toNat % 65536
    let n (a : NvAdmin) := a.d10.toNat / 65536 + 1
    let hi (a : NvAdmin) := a.d11.toNat / 65536
    AdminReady s.dev 0 ∧ (State.reset.dev.nvLive 0 0 = false) ∧
    (let a := anAdmin 0x0FFF0001 0x00FF0001
     q a ≠ 0 ∧ q a ≤ 64 ∧ (s.dev.nvCq 0 (q a)).size = 0 ∧ 2 ≤ n a ∧ n a ≤ 4096 ∧ hi a < 256 ∧ a.d11.toNat.testBit 0 = true) ∧
    (let a := anAdmin 0x00010001 0x00400001
     q a ≠ 0 ∧ q a ≤ 64 ∧ (s.dev.nvSq 0 (q a)).size = 0 ∧ 2 ≤ n a ∧ hi a ≠ 0 ∧ hi a ≤ 64 ∧ (s.dev.nvCq 0 (hi a)).size ≠ 0) ∧
    (q (anAdmin 65) = 65 ∧ n (anAdmin 0x10000001) = 4097 ∧ hi (anAdmin 1 0x01000001) = 256 ∧ (anAdmin 1 0).d11.toNat.testBit 0 = false) ∧
    ((s.dev.nvSq 0 64).size ≠ 0 ∧ (s.dev.nvSq 0 64).deleting = none ∧ s.dev.sqIdle 0 64 = true ∧ (∀ o ∈ s.dev.ops, o.fromSq 0 64 = false)) ∧
    (AdminReady b.dev 0 ∧ (∃ o ∈ b.dev.ops, o.fromSq 0 64 = true ∧ o.ended = false) ∧ (∀ o ∈ b.dev.ops, o.fromSq 0 64 = true → o.handed ≠ none)) ∧
    (∃ k, k < 65 ∧ (s.dev.nvSq 0 k).size ≠ 0 ∧ (s.dev.nvSq 0 k).cq = 64) ∧
    (let u := stored fun d => { d with host := { d.host with sqs := [(0, { size := 2 })] } }
     AdminReady u.dev 0 ∧ (u.dev.nvCq 0 64).size ≠ 0 ∧ ¬ ∃ k, k < 65 ∧ (u.dev.nvSq 0 k).size ≠ 0 ∧ (u.dev.nvSq 0 k).cq = 64) := by
  refine ⟨?_, ?_, ?_, ?_, ?_, ?_, ⟨?_, ?_, ?_⟩, ?_, ⟨?_, ?_, ?_⟩⟩ <;> first
    | (unfold AdminReady AdminPosts; decide +kernel) | decide +kernel | (exact ⟨64, by decide +kernel⟩)
    | (rintro ⟨k, hk, h⟩; revert h; revert k; decide +kernel)

/-- Admin commands (O49): every code and bit that they tell apart; Aborts of a command that is handed, waits, has ended in this tick, or is not
there; self-tests that run and do not. -/
theorem wit_admin :
    let s := stored
    let o : Op := { anOp 6 1 {} (.nvme 64 1) with handed := some 0 }
    let b := stored fun d => { d with ops := [o] }
    let l := stored fun d => { d with host := { d.host with ctrls := [(0, { aborts := List.replicate 4 ⟨1, 0, 0⟩, test := some ⟨true, 1⟩ })], doneNow := [(0, 64, 1)] } }
    let id (a : NvAdmin) := a.d10.toNat % 256
    let is : Req → Bool := fun r => decide (r.tid = 0) && decide (r.org = Origin.nvme 64 1)
    (AdminReady s.dev 0 ∧ (anAdmin).prp1.toNat % 4096 = 0 ∧ id (anAdmin 2) = 2 ∧ id (anAdmin 6) = 6 ∧ 3 < id (anAdmin 4) ∧ id (anAdmin 7) = 7 ∧ id (anAdmin 10) = 10) ∧
    ((b.dev.ops.find? fun o => is o.req && !o.ended && !o.detached) = some o ∧ o.handed ≠ none ∧ (b.dev.ctl 0).aborts.length < 4) ∧
    ((l.dev.ops.find? fun o => is o.req && !o.ended && !o.detached) = none ∧ (l.dev.adm.waiting ++ l.dev.pair.decisions.map (·.req)).any is = false ∧
      (0, 64, 1) ∈ l.dev.host.doneNow ∧ (0, 64, 1) ∉ s.dev.host.doneNow) ∧
    (AdminReady l.dev 0 ∧ 4 ≤ (l.dev.ctl 0).aborts.length ∧ (l.dev.ctl 0).test = some ⟨true, 1⟩ ∧ (s.dev.ctl 0).test = none) := by
  refine ⟨⟨?_, ?_⟩, ?_, ?_, ?_, ?_⟩ <;> first | (unfold AdminReady AdminPosts; decide +kernel) | decide +kernel

/-- Firmware (O49): with the right and without; an activation under way, quiet and not, before its limit and at it. -/
theorem wit_firmware :
    let s := stored fun d => d.put (Reg.STG_FW_RIGHTS 0) 1
    let a : Activation := { tid := 0, cid := 1, time := 0 }
    let t (n : Nat) (l : List Op) := stored fun d => { (d.put (Reg.STG_FW_RIGHTS 0) 1) with ops := l, host := { d.host with act := some a }, clk := { d.clk with tide := n } }
    let quiet (d : Dev) : Prop := (∀ o ∈ d.ops, o.req.kind = 6 → o.ended = true) ∧ (∀ r ∈ d.adm.waiting, r.kind ≠ 6) ∧ d.activating = false
    let limit (d : Dev) := a.time + d.inF Reg.STG_ACT_LIMIT_MS * 1000000
    (AdminReady s.dev 0 ∧ s.dev.inF (Reg.STG_FW_RIGHTS 0) ≠ 0 ∧ s.dev.host.act = none ∧ ¬ stored.dev.inF (Reg.STG_FW_RIGHTS 0) ≠ 0) ∧
    (AdminReady (t 0 []).dev 0 ∧ (t 0 []).dev.host.act = some a ∧ quiet (t 0 []).dev ∧ ¬ quiet (t 0 [anOp 6 1]).dev ∧
      (t 0 []).dev.clk.tide < limit (t 0 []).dev ∧ limit (t (2 ^ 40) []).dev ≤ (t (2 ^ 40) []).dev.clk.tide) := by
  unfold AdminReady AdminPosts; decide +kernel

/-- Controllers (O50): enabled, disabled and resetting, with the personality and without; a shutdown that is under way and not. -/
theorem wit_controllers :
    let s := stored
    let z := hosted fun d => d.put (Reg.STG_FN_PERSONALITY 0) 1
    let r := hosted fun d => { d.put (Reg.STG_FN_PERSONALITY 0) 1 with host := { d.host with ctrls := [(0, { resetting := true, shst := 1 })] } }
    (BarOpen s.dev 0 false ∧ s.dev.rd (Reg.STG_FN_PERSONALITY 0) ≠ 0 ∧ s.dev.rd (Reg.STG_FN_EN 0) ≠ 0 ∧ s.dev.nvOn 0 = true ∧ (s.dev.ctl 0).shst = 0 ∧
      (s.dev.ctl 0).test = none) ∧ HostIdle z.dev 0 ∧
    (z.dev.rd (Reg.STG_FN_EN 0) = 0 ∧ (z.dev.ctl 0).resetting = false ∧ (r.dev.ctl 0).resetting = true ∧ z.dev.nvOn 0 = false ∧ (r.dev.ctl 0).shst ≠ 0 ∧
      ¬ State.reset.dev.rd (Reg.STG_FN_PERSONALITY 0) ≠ 0) := by
  refine ⟨?_, host_idle_reset _ rfl _, ?_⟩ <;> first | (unfold BarOpen; decide +kernel) | decide +kernel

/-- A disable of an enabled controller of which nothing is under way (O50). -/
theorem wit_disable : HostIdle stored.dev 0 :=
  ⟨fun _ h => absurd h List.not_mem_nil, fun _ h => absurd h List.not_mem_nil, fun _ h => absurd h List.not_mem_nil, fun _ h => absurd h List.not_mem_nil,
    fun _ h => absurd h List.not_mem_nil, fun _ h => absurd h List.not_mem_nil, fun _ h => absurd h List.not_mem_nil,
    fun _ h => absurd h List.not_mem_nil, fun _ h => absurd h List.not_mem_nil⟩

/-! The machine as a whole -/

/-- A register write that waits for its boundary (O56): it meets the hypothesis, and what reads show after reset holds
nothing of a tick (O54, O55). -/
theorem wit_writes :
    let d := Dev.reset.store Reg.TIDE_CONTROL_KP_SHIFT 1
    (∀ w ∈ d.regs.waiting, w.key = Reg.TIDE_CONTROL_KP_SHIFT.key → w.rst = Reg.TIDE_CONTROL_KP_SHIFT.rst) ∧ Quiet State.reset.prev := by
  unfold Quiet; decide +kernel

/-- Commands at the front of the queue, and none (O51); a boundary that is due and one that is not (O53). -/
theorem wit_steps :
    ({ State.reset with pending := [.ppsOutEdge] } : State).pending = .ppsOutEdge :: [] ∧ State.reset.pending = [] ∧
    (on fun d => { d with clk := { d.clk with slotDue := true, epochDue := true } }).dev.clk.slotDue = true ∧ State.reset.dev.clk.slotDue = false := by
  decide +kernel

/-- Tide time from one tick to the next (O58): a step back, and a load, whose time lies on both boundaries. -/
theorem wit_tick_boundaries :
    let d : Dev := { Dev.reset with clk := { Dev.reset.clk with tide := 512, stepTick := true, stepAdd := -256 } }
    let l : Dev := { Dev.reset with clk := { Dev.reset.clk with load := some 0x400000 } }
    (d.clk.load = none ∧ d.clk.stepTick = true ∧ 0 ≤ (d.clk.tide : Int) + 8 + d.clk.stepAdd ∧ (d.advanceTime true).clk.tide = 264) ∧
    (l.clk.load = some 0x400000 ∧ (l.advanceTime true).clk.epochDue = true ∧ (l.advanceTime true).clk.slotSeq = 1) := by decide +kernel

/-! Ill-formed commands, one for each check -/

theorem ill_active_check_fail : (Instr.activeCheckFail 7).wf = false ∧ (Instr.activeCheckFail 0).wf = false := by decide
theorem ill_work_item : (Instr.workItemStart 9 0 false).wf = false ∧ (Instr.workItemStart 0 0 false).wf = false := by decide
theorem ill_frame_receive : (Instr.frameReceive 0 [] false 0).wf = false := by decide
theorem ill_pfc_frame : (Instr.pfcFrameReceive 0 (List.replicate 59 0)).wf = false := by decide
theorem ill_packet_source : (Instr.write { aPacket 1 with src := [0] }).wf = false := by decide +kernel
theorem ill_packet_words : (Instr.nak { aPacket 1 with words := [0] }).wf = false := by decide +kernel
theorem ill_read_completion : (Instr.hostReadCompletion 0 0 0 (List.replicate 4097 0)).wf = false := by decide +kernel
theorem ill_completion_write : (Instr.completionWrite 0 64 false).wf = false ∧ (Instr.completionWrite 0 65 true).wf = false := by decide
theorem ill_sq_doorbell : (Instr.nvmeSqDoorbell 0 65 0 false).wf = false := by decide
theorem ill_entry_fetch : (Instr.nvmeEntryFetch 0 65).wf = false := by decide
theorem ill_admin_buffer : (Instr.identify { tid := 0, cid := 0, prp1 := 2 }).wf = false := by decide
theorem ill_io_queue : (Instr.flush { tid := 0, sq := 0, cid := 0, nsid := 1 }).wf = false ∧ (Instr.flush { tid := 0, sq := 65, cid := 0, nsid := 1 }).wf = false := by decide
theorem ill_io_pages : (Instr.nvmeRead { tid := 0, sq := 1, cid := 0, nsid := 1, pages := [512] }).wf = false := by decide
theorem ill_vf_enable : (Instr.vfEnableSet 2).wf = false := by decide
theorem ill_ring_number : (Instr.ringEnable 0 0 64 0 0 6 false).wf = false ∧ (Instr.ringDisable 0 3 0 false).wf = false := by decide
theorem ill_ide_key : (Instr.ideKm 0 0 0 0 (List.replicate 33 0)).wf = false := by decide
theorem ill_ssd_length : (Instr.ssdDmaRequest 0 0 4097 none).wf = false := by decide
theorem ill_ssd_data : (Instr.ssdDmaRequest 0 0 2 (some [0])).wf = false := by decide
theorem ill_stored_line : (Instr.memoryReadError 0 [0] .patrol).wf = false := by decide
theorem ill_sensor : (Instr.sensorRead 24 0).wf = false := by decide
theorem ill_host_boot : (Instr.xferHostBoot .steward 2 (some [0])).wf = false := by decide
/-- A well-formed one, that a ring's last number and a whole source address pass. -/
theorem well_formed : (Instr.ringEnable 0 2 255 0 0 6 false).wf = true ∧ (Instr.write { aPacket 1 with src := List.replicate 16 0 }).wf = true ∧
    (Instr.completionWrite 0 64 true).wf = true := by decide +kernel

/-! Words that the spec writes out (chapters 07 and 08), decoded and encoded (O59, O60) -/

theorem test_decode_lim : limoonDecode 0x020A0300 = some (false, 0, .lim 5 0x300) := by decide +kernel
theorem test_decode_shi : limoonDecode 0x024A0100 = some (false, 0, .shi 5 0x100) := by decide +kernel
theorem test_decode_addi : limoonDecode 0x008C0001 = some (false, 0, .imm .add 6 0 1) := by decide +kernel
theorem test_decode_atom_acquire : limoonDecode 0x078E530A = some (false, 0, .atom .swp true 1 7 5 6) := by decide +kernel
theorem test_decode_atom_release : limoonDecode 0x0780500C = some (false, 0, .atom .swp true 2 0 5 0) := by decide +kernel
theorem test_decode_cmpi : limoonDecode 0x02C93800 = some (false, 0, .cmpi .ne 1 7 0) := by decide +kernel
theorem test_decode_br : limoonDecode 0x183FFFFE = some (false, 1, .br 0x3FFFFE) := by decide +kernel
theorem test_decode_ch_get : limoonDecode 0x0C04B123 = some (false, 0, .chGet 2 2 11 2) := by decide +kernel
theorem test_decode_ch_try : limoonDecode 0x0C00B022 = some (false, 0, .chTry 2 11) := by decide +kernel
theorem test_decode_dlchk : limoonDecode 0x0C4042B0 = some (false, 0, .dlchk 3 4 5) := by decide +kernel
theorem test_decode_pw_open : limoonDecode 0x0C98D000 = some (false, 0, .pwOpen false 12 13) := by decide +kernel
theorem test_decode_book : limoonDecode 0x0CD2A580 = some (false, 0, .eng .book 9 10 11) := by decide +kernel
theorem test_decode_zero : limoonDecode 0 = none := by decide +kernel
theorem test_encode_words : limoonEncode true 2 (.br 0x3FFFFF) = 0xA83FFFFF ∧ limoonEncode false 0 (.chTry 2 11) = 0x0C00B022 := by decide +kernel
theorem test_reserved_guard_field : limoonDecode 0x0FFFFFFF = none := by decide +kernel

/-! Results, from the spec's own numbers -/

/-- What thread 0 becomes where a command runs. -/
def threadAfter (c : Instr) (s : State) : Option Thread :=
  match exec c s with
  | .next t => some (t.dev.thr 0)
  | .fault _ => none
  | .refused _ => none

/-- A register of thread 0 where a command runs. -/
def regAfter (r : BitVec 5) (c : Instr) (s : State) : Option Word := (threadAfter c s).map (·.reg r)

/-- ADDW keeps the low 32 bits, sign-extended (R177). -/
theorem test_addw : regAfter 3 (.add i0 true 3 1 2) (withThread (runner 0x17FFFFFFF 1)) = some 0xFFFFFFFF80000000 := by decide +kernel
/-- A shift by the register's low six bits, here 64, shifts by none (Table 7.3). -/
theorem test_sll : regAfter 3 (.sll i0 false 3 1 2) (withThread (runner 5 64)) = some 5 := by decide +kernel
/-- The high half of −1 × −1, signed and unsigned (Table 7.4). -/
theorem test_mulh : regAfter 3 (.mulhs i0 3 1 2) (withThread (runner 0xFFFFFFFFFFFFFFFF 0xFFFFFFFFFFFFFFFF)) = some 0 ∧
    regAfter 3 (.mulhu i0 3 1 2) (withThread (runner 0xFFFFFFFFFFFFFFFF 0xFFFFFFFFFFFFFFFF)) = some 0xFFFFFFFFFFFFFFFE := by decide +kernel
/-- Division by zero, and of the most negative number by −1 (R178). -/
theorem test_div : regAfter 3 (.div i0 false 3 1 2) (withThread (runner 7 0)) = some 0xFFFFFFFFFFFFFFFF ∧
    regAfter 3 (.rem i0 false 3 1 2) (withThread (runner 7 0)) = some 7 ∧
    regAfter 3 (.div i0 false 3 1 2) (withThread (runner 0x8000000000000000 0xFFFFFFFFFFFFFFFF)) = some 0x8000000000000000 := by decide +kernel
/-- ADDI's immediate is signed (Table 7.2). -/
theorem test_addi : regAfter 3 (.addi i0 3 0 0xFFF) (withThread runner) = some 0xFFFFFFFFFFFFFFFF := by decide +kernel
/-- LIM and SHI build 0x0300_00C0_0100, as the spec's lock example does. -/
theorem test_shi : regAfter 1 (.shi i0 1 0x100) (withThread (runner 0x30000C0)) = some 0x30000C00100 ∧
    regAfter 5 (.lim i0 5 0x300) (withThread runner) = some 0x300 := by decide +kernel
/-- A write to g0 is discarded (chapter 07). -/
theorem test_zero_register : (threadAfter (.addi i0 0 0 1) (withThread runner)).map (fun x => (x.reg 0, x.pc)) = some (0, 0x30000000004) := by decide +kernel
/-- A write to p0 is discarded, and p0 reads 1. -/
theorem test_zero_predicate : (threadAfter (.cmpi i0 .ne 0 0 0) (withThread runner)).map (·.pred 0) = some true := by decide +kernel
/-- A branch counts instructions from itself: w + 6 to w + 4 (the lock example). -/
theorem test_branch : (threadAfter (.br i0 0x3FFFFE) (withThread { runner with pc := 0x30000000018 })).map (·.pc) = some 0x30000000010 := by decide +kernel
/-- Tenant 300's window starts at 0x4F00_0000_0000 and ends at 0x4F3F_FFFF_FFFF (R34's example). -/
theorem test_host_window : Dev.reset.place 0x4F0000000000 = .host 300 0 ∧ Dev.reset.place 0x4F3FFFFFFFFF = .host 300 0x3FFFFFFFFF := by decide +kernel
/-- The staging line 0x0123_4567_8300 lies in DDR channel 3 (chapter 16's example). -/
theorem test_ddr_channel : Dev.reset.ddrChannel 0x12345678300 = 3 := by decide +kernel
/-- P01 of bins 9, 10 and 11 holding 3, 8 and 12 of 2,000 records is 448 ns (chapter 18's example). -/
theorem test_p01 : ({ count := 2000, bins := [(9, 3), (10, 8), (11, 12)] } : EpochSet).p01 = 448 := by decide +kernel
/-- 0x0000_0100 lies 512 ns after 0xFFFF_FF00 (chapter 00). -/
theorem test_short_time : regAfter 3 (.sub i0 true 3 1 2) (withThread (runner 0x100 0xFFFFFF00)) = some 512 := by decide +kernel
/-- The step of the worked example: Tide reads E1 + 8 + 2,500,096 at the boundary that ends the step tick (R52). -/
theorem test_step_tick :
    let d : Dev := { Dev.reset with clk := { Dev.reset.clk with tide := 1000005959680, stepTick := true, stepAdd := 2500096 } }
    (d.advanceTime true).clk.tide = 1000008459784 := by decide +kernel

/-! Further cases of the statements -/

/-- A thread's accesses of control space (O14, O17, O47): without a grant for its block; with one, privileged and not; reserved offsets. -/
theorem wit_control_grants :
    let g (p : Bool) := on fun d => { ((d.put (Reg.MEM_FW_CTL 0) 0x1FFFF)) with shl := { d.shl with threads := [(0, { st := 1, priv := p })] } }
    (State.reset.dev.fwRefuses (.thread 0) 0xA00008 = true ∧ State.reset.dev.fwRefuses (.thread 0) 0xB00000 = true ∧
      State.reset.dev.fwRefuses .steward 0xA00008 = false ∧ State.reset.dev.fwRefuses (.thread 0) 0x8A0000 = true) ∧
    ((g true).dev.fwRefuses (.thread 0) 0xA00008 = false ∧ (g true).dev.mayWrite (.thread 0) 0x10020 = true ∧ (g true).dev.threadPriv 0 = true) ∧
    ((g false).dev.fwRefuses (.thread 0) 0x10010 = false ∧ (g false).dev.threadPriv 0 = false ∧ (g false).dev.mayWrite (.thread 0) 0x10020 = false ∧
      (g false).dev.fwRefuses (.thread 0) 0x8A0000 = false ∧ (g false).dev.mayRead (.thread 0) 0x8A0000 = false ∧
      (g true).dev.mayRead (.thread 0) 0x8A0000 = true ∧ State.reset.dev.mayRead .steward 0x8A0000 = true) ∧
    (State.reset.dev.reservedAt 0x20228 = true ∧ State.reset.dev.reservedAt 0x10020 = false ∧ State.reset.dev.reservedAt 0x10040 = false ∧
      State.reset.dev.strandRegion (.thread 0) 0x200 = false ∧ (g true).dev.fwRefuses (.thread 0) 0xB00000 = false) := by decide +kernel

/-- Strand writes (O17): before they are accepted and from then on; of a thread's store; at 24 ticks of age. -/
theorem wit_strand_ages :
    let q (by_ : Option (Nat × Nat)) : StrandWrite := ⟨0x200, 5, false, 8, by_⟩
    let s (tick : Nat) (by_ : Option (Nat × Nat)) := on fun d => { d with boot := { d.boot with strandQ := [q by_] }, clk := { d.clk with tick := tick } }
    (s 7 none).dev.clk.tick < (q none).at_ ∧ (q none).at_ ≤ (s 8 none).dev.clk.tick ∧ (s 8 (some (0, 7))).dev.boot.strandQ = [q (some (0, 7))] ∧
    (s 32 none).dev.strandAge.boot.strandQ = [q none] ∧ (s 33 none).dev.strandAge.boot.strandQ = [] := by decide +kernel

/-- Threads (O5, O6, O9, O10): control space reached by a load; a break that halts; a fetch of a hole, of memory without a grant, and of control
space. -/
theorem wit_thread_ends :
    let s := on fun d => { d.put (Reg.MEM_FW_CTL 0) 1 with shl := { d.shl with threads := [(0, runner)] } }
    let f (pc : Nat) := withThread { runner with pc := pc }
    (Reaches s.dev 0 0x3F000000008 8 .read ∧ s.dev.place 0x3F000000008 = .control 8) ∧
    (Issues (withThread { runner with brkHalt := true }) i0 .brk ∧ ((withThread { runner with brkHalt := true }).dev.thr 0).brkHalt = true) ∧
    ((f 0x30004000000).dev.fetchFault 0 = some 5 ∧ (f 0x30004000000).dev.place 0x30004000000 = .hole) ∧
    (f 0x20000000000).dev.fetchFault 0 = some 2 ∧
    ((f 0x3F000000000).dev.fetchFault 0 = some 5 ∧ (f 0x3F000000000).dev.place 0x3F000000000 ≠ .hole) := by
  simp only [Reaches, Issues, Ready, Live]; decide +kernel

/-- Memory errors of a thread's access (O25): an atomic that takes back what it wrote, and an access that wrote nothing. -/
theorem wit_undo :
    let a : MemAcc := { anAccess (some 0) with id := 7, atomic := true, addr := 0x30000001000, undo := some ([5, 0], [6, 0]) }
    let s := on fun d => { d with shl := { d.shl with threads := [(0, { runner with loads := [a] }), (1, { runner with loads := [anAccess none] })] },
                                  mem := { d.mem with mem := [⟨0x30000001000, 6⟩] } }
    (s.dev.thr 0).loads.find? (fun y => y.id == 7) = some a ∧ a.undo = some ([5, 0], [6, 0]) ∧ s.dev.bytes a.addr 2 = [6, 0] ∧
    (∀ x ∈ (s.dev.thr 1).loads, x.undo = none) := by decide +kernel

/-- Look-aside requests (O22): one that may suspend only at the end of a block, one that has been served and one that has not. -/
theorem wit_lookaside :
    let q : Op := { staged (anOp 7 0 { length := 64, keySlot := 5 }) (laRes 31) 64 with data := List.replicate 128 0 }
    let s (tide : Nat) := on fun d => { d.put (Reg.CRY_SLOT_STATE 5) 1 with
      clk := { d.clk with tide := tide }, ops := [{ q with going := [laRes 31] }], cry := { d.cry with runs := [⟨1, 31, 0, 0, false, 0, 0, 64⟩] } }
    q.req.kind = 7 ∧ (s 0).dev.running 31 = some ⟨1, 31, 0, 0, false, 0, 0, 64⟩ ∧
    (s 0).dev.laPos ⟨1, 31, 0, 0, false, 0, 0, 64⟩ = 0 ∧ (∀ x, x < 64 → (suspendable ((s 0).dev.slotMode 5) 64 q.aadLen 0 x = true ↔ x ∈ [0, 16, 32, 48])) ∧
    (s 0).dev.laEnds ⟨1, 31, 0, 0, false, 0, 0, 64⟩ = false ∧ (s 1000).dev.laEnds ⟨1, 31, 0, 0, false, 0, 0, 64⟩ = true := by decide +kernel

/-- Tide time (O58): work of before the hold and of the hold in the step tick, and ticks of 15, 16 and 17 clocks. -/
theorem wit_step_times :
    let o (t : Nat) : Op := { anOp 1 with admitted := t, slack := false }
    let d : Dev := { Dev.reset with clk := { Dev.reset.clk with tide := 4096, stepTick := true, stepAdd := -256 }, servo := { Dev.reset.servo with holdFrom := 1024 }, ops := [o 512, o 1024] }
    d.clk.load = none ∧ d.clk.stepTick = true ∧ (o 512).admitted < d.servo.holdFrom ∧ d.servo.holdFrom ≤ (o 1024).admitted ∧
    (d.advanceTime true).ops.map (fun q => (q.admitted, q.promise, q.rebased)) = [(256, 999744, true), (1024, 1000000, false)] ∧
    (Dev.reset.advanceTime false).clk.clocks = 16 := by decide +kernel

/-- The pair (O30): a void tick with an active unit; a failing unit with a standby, with a peer that is none; decisions while commands wait; a third
lapse in the 64th epoch; breakwater lost with and without an active unit. -/
theorem wit_failing :
    let f (p : Nat) := withPeer p fun d => { d with pair := { d.pair with failing := some 4 } }
    let v := withPeer 4 fun d => { d with pair := { d.pair with void := some 4 } }
    let l := withPeer 7 fun d => { d with pair := { d.pair with lapses := [(1, 0), (1, 30), (1, 63)] }, clk := { d.clk with epochs := 64 } }
    let due (s : State) : State := { s with dev := { (s.dev.put Reg.DEV_STATUS_BREAKWATER_LOST 1) with clk := { s.dev.clk with due := [.lostClear] } } }
    ((f 4).dev.pair.failing = some 4 ∧ (f 4).dev.activeUnit = some 0 ∧ (f 4).dev.unitState (peerOf 0) = 4) ∧
    ((f 6).dev.unitState (peerOf 0) ≠ 4 ∧ (f 6).dev.unitState (peerOf 0) ≠ 5) ∧ (v.dev.pair.void = some 4 ∧ v.dev.activeUnit ≠ none) ∧
    (l.dev.pair.lapses.filter fun x => x.1 == 1 && l.dev.clk.epochs - 1 < x.2 + 64).length = 3 ∧
    ({ withPeer 0 with pending := [.ppsOutEdge] } : State).pending ≠ [] ∧
    ((due (withPeer 0)).dev.activeUnit = some 0 ∧ (due (on id)).dev.activeUnit = none ∧ (due (withPeer 0)).dev.clk.due.contains .lostClear = true) := by
  decide +kernel

/-- Submissions (O32): what stands against a Slack request beside the rest: a backend that is not available, a connection that has failed. -/
theorem wit_slack_refusals :
    let q : Req := { aTx 3 with kind := 6 }
    let w : Req := { aTx 3 with kind := 3, desc := { target := 0xFFFFF } }
    State.reset.dev.peerDown q = 5 ∧ (swash 4).dev.peerDown w = 6 ∧ (swash 2).dev.peerDown w = 0 ∧ NoGround (slackRefusal deciding.dev (aTx 3)) := by
  simp only [NoGround]; decide +kernel

/-- Work (O33): portions of booked work and of other work; an engine that is busy; Slack work that was begun, with room in the slot and without;
items that end, in part, as a whole, ended before, with the space of the entry and without. -/
theorem wit_portions :
    let r : Res := ⟨2, 0, false⟩
    let o : Op := { staged (anOp 1) r 100 with slack := false, booked := [⟨r, 1, 0, 60⟩] }
    let s (o : Op) (busy : Nat := 0) (tide : Nat := 0) := on fun d => { d with ops := [o], cal := { d.cal with busy := [(resSched r, busy)] }, clk := { d.clk with tide := tide } }
    let k : Op := { o with slack := true, booked := [], picked := [resSched r] }
    let g : Op := { o with going := [r], ends := [(resSched r, 65536)] }
    let w (wire : Bool) : Op := { g with plan := [⟨1, [⟨r, 0⟩], 0⟩, ⟨2, [⟨⟨5, 0, false⟩, 1⟩], 0⟩] }
    let e := on fun d => { d with adm := { d.adm with entries := [⟨0, 1, 1, 2, 0, 0, 0, 0, 0, [], 7, .ring 0 0, false, 0⟩] } }
    ((s o).dev.due o r = 60 ∧ (s o).dev.portion o r = 60 ∧ (s o).dev.due k r = 0 ∧ 0 < (s k).dev.portion k r ∧
      ((s o).dev.clk.tide + 8) * 65536 ≤ Tab.get 0 (s o (8 * 65536)).dev.cal.busy (resSched r) ∧ (s k (256 * 65536)).dev.portion k r = 0 ∧ 0 < k.needOf r ∧
      (s k).dev.ops.find? (fun o => o.slack && o.readyFor r && o.picked.contains (resSched r)) = some k ∧ (s k).dev.pickBooked r = none) ∧
    (ItemEnds (s g 0 1).dev g r ∧ ¬ ItemEnds (s g 0 0).dev g r ∧ ItemEnds (s { g with ended := true } 0 1).dev { g with ended := true } r ∧ g.needOf r ≠ 0 ∧
      (w false).needOf r = 0 ∧ ItemEnds (s (w false) 0 1).dev (w false) r) ∧
    ((∃ x ∈ e.dev.adm.entries, x.op = 1 ∧ x.space ≠ 0) ∧ ¬ ∃ x ∈ (s g).dev.adm.entries, x.op = 1 ∧ x.space ≠ 0) ∧
    ((s o).dev.readBound ⟨0, 5, 0, 0, 64, .data 1 0, 0, true, false, false⟩ = o.req.readBound ∧
      (s o).dev.readBound ⟨0, 5, 0, 0, 64, .thread 0 0, 0, true, false, false⟩ = (s o).dev.inF Reg.BWK_ENV_HOST_READ_BOUND) := by
  unfold ItemEnds; decide +kernel

/-- Reef (O35): tags that cannot be read; a path's write and a learn request that find a burst and none. -/
theorem wit_reef_capacity :
    let key : List Byte := List.replicate 8 0
    let e : REntry := { key := key, act0 := 1, act1 := 2 }
    let s := reef [] fun r => { r with emPath := some ⟨[(4, 5)], 4, some e, none, [4, 5]⟩ }
    let f := reef [] fun r => { r with emPath := some ⟨[(4, 5)], 4, some e, none, [4, 5]⟩, used := (List.range 256).map fun g => (g, 2 ^ 20) }
    let n := reef [] fun r => { r with used := (List.range 256).map fun g => (g, 2 ^ 20) }
    let t := reef [] fun r => { r with tagPoison := [((State.reset.dev.bucketsOf key).1, true)] }
    let want (d : Dev) := d.burstsFit (d.coldGroups (d.readsOf key) ++ (d.insWrites key).map emGroup)
    (t.dev.tagBad (t.dev.bucketsOf key).1 = true ∧ (∀ p ∈ s.dev.places key, s.dev.emBad p = false) ∧ s.dev.tagBad (s.dev.bucketsOf key).1 = false ∧
      s.dev.tagBad (s.dev.bucketsOf key).2 = false) ∧
    (s.dev.burstsFit s.dev.stepGroup = true ∧ f.dev.burstsFit f.dev.stepGroup = false ∧ want (reef []).dev = true ∧ want n.dev = false) := by decide +kernel

/-- Swash (O36, O37): packets of a message that has failed and of one begun under another generation; metered data within the tokens and past them;
placements of a window in device memory that is a host's; a line that is free in the middle of a tick, and one that is not. -/
theorem wit_swash_cases :
    let t (m : Tracker) := swash 2 fun d => { d with sw := { d.sw with track := [m] } }
    let m : Tracker := { conn := 1048575, msn := 0, window := 4194303, gen := 0 }
    let s := swash 2
    let l (n : Nat) := swash 2 fun d => { d with cal := { d.cal with busy := [(resSched ⟨5, 0, false⟩, n)] } }
    ((t { m with failed := some 4 }).dev.trackOf 1048575 0 = some { m with failed := some 4 } ∧ (t { m with gen := 1 }).dev.trackOf 1048575 0 = some { m with gen := 1 } ∧
      1 ≠ s.dev.winGen 4194303 ∧ s.dev.windowCheck 1048575 4194303 7 0 0 64 true = (none, .granted)) ∧
    ((s.dev.conn 1048575).bucket < 64 ∧ 0 ≤ (s.dev.conn 1048575).bucket) ∧
    (s.dev.hostLinkOf 0 true 0x40000000000 = some 0 ∧ s.dev.ioAt 0 true 0x40000000008 = (0, 8) ∧ s.dev.ioAt 5 false 4096 = (5, 4096)) ∧
    ((l 65537).dev.lineFree 0 = some 65537 ∧ (l (8 * 65536)).dev.lineFree 0 = none) := by decide +kernel

/-- Frames (O39): a port that ENABLE took down, with a frame that came before and one after; a PFC frame that waits and may go, and one that no line
is free for; an operation's frame as its last pass has made it; ports that are not active. -/
theorem wit_frames_more :
    let c := port 0 0 fun d => { d with net := { d.net with cutAt := [(0, some 5)] } }
    let p (busy : Nat) := port 3 0 fun d => { d.put (Reg.MAC_PORT_CTL_PFC_MODE 0) 1 with net := { d.net with pfcOut := [(0, some 9)] }, cal := { d.cal with busy := [(resSched ⟨5, 0, false⟩, busy)] } }
    let o : Op := { staged (anOp 1 0 { length := 64 }) ⟨5, 0, false⟩ 64 with slack := false, data := List.replicate 60 0, built := 2 }
    let g := port 3 0 fun d => { d with ops := [o] }
    let r := on fun d => d.put Reg.HDL_CONTROL_BWK_RELEASE 1
    (c.dev.portUp 0 = false ∧ Tab.get none c.dev.net.cutAt 0 = some 5 ∧ 4 < 5 * 65536 ∧ 5 * 65536 ≤ 327680 ∧ c.dev.inF (Reg.MAC_PORT_CTL_DELIVER_BAD 0) = 0) ∧
    ((p 0).dev.pfcMay 0 0 = true ∧ Tab.get none (p 0).dev.net.pfcOut 0 = some 9 ∧ (p 65536).dev.pfcMay 0 0 = false ∧ (p 65536).dev.pickTx 0 0 true = none) ∧
    ((g.dev.pickTx 0 0 true).map (fun x => (x.1.what, decide (x.2 = g.dev))) = some (.op 1, true) ∧ g.dev.op? 1 = some o ∧ o.built = 2 ∧ o.ended = false) ∧
    (r.dev.released = true ∧ r.dev.portActive 15 = false ∧ r.dev.portActive 0 = true) ∧
    (Max.max (Tab.get 0 (port 1).dev.net.since 0) (Tab.get 0 (port 1).dev.net.flipAt 1) + 250000 ≤ (port 1 250000).dev.clk.tick ∧
      ¬ Max.max 0 (Tab.get 0 (port 1).dev.net.flipAt 1) + 250000 ≤ (port 1 249999).dev.clk.tick) := by decide +kernel

/-- Storage (O42, O48 to O50): a completion that names no operation; admin commands that wait behind others, and behind a shoal that is busy. -/
theorem wit_admin_turns :
    let n : WaitingNvme := { tid := 0, sq := 64, cid := 1, status := 0 }
    let q := stored fun d => { d with host := { d.host with adminQ := [(.identify, anAdmin)] } }
    let b := stored fun d => { d with cal := { d.cal with busy := [(resSched d.adminShoal, 65536)] } }
    n.op = none ∧ (q.dev.nvLive 0 0 = true ∧ q.dev.host.adminQ ≠ []) ∧ (b.dev.nvLive 0 0 = true ∧ b.dev.adminIdle = false) ∧ stored.dev.adminIdle = true := by
  decide +kernel

/-- Backends (O50): commands to hand at a local stage and at a remote one; a Dataset Management whose ranges pass the namespace; answered, detached,
timed out and past its bound, before and at it. -/
theorem wit_backends :
    let o (no : Nat) : Op := { anOp 6 1 { length := 64, target := 1 } with plan := [⟨no, [⟨⟨5, 0, false⟩, 1⟩], 0⟩], waiting := true, slack := false }
    let s (o : Op) (t : Nat := 0) := stored fun d => { d.put (Reg.STG_BE_AVAILABLE 0) 1 with ops := [o], clk := { d.clk with tide := t } }
    let may (o : Op) : Prop := o.ended = false ∧ o.req.kind = 6 ∧ o.handsNothing = false ∧ o.waiting = true ∧ o.handed = none ∧ o.detached = false ∧
      (s o).dev.rd Reg.HDL_STATUS_HOLDUP_STOP = 0 ∧ (s o).dev.inF (Reg.STG_BE_AVAILABLE o.req.backend) ≠ 0 ∧ (s o).dev.mustWait o = false
    let q : Op := { o 5 with req := { (o 5).req with code := 9 }, data := List.replicate 16 1 }
    let h : Op := { o 5 with handed := some 0, req := { (o 5).req with timeout := 1000000, bound := 512 } }
    let z : Op := { h with detached := true, slack := true }
    ((s (o 4)).dev.op? 1 = some (o 4) ∧ State.reset.dev.op? 1 = none ∧ (∀ p ∈ (s (o 4)).dev.ops, p.req.id = 1 → p = o 4) ∧
      (o 4).plan.head?.map (·.no) = some 4 ∧ (o 5).plan.head?.map (·.no) = some 5 ∧ h.status = 0 ∧ h.going = [] ∧
      h.plan = ⟨5, [⟨⟨5, 0, false⟩, 1⟩], 0⟩ :: [] ∧ z.going = [] ∧ (∀ p ∈ (s z).dev.ops, p ≠ z → p.req.kind ≠ 6 ∧ (p.ended = false ∨ p.going ≠ []))) ∧
    (may (o 4) ∧ may (o 5) ∧ (o 4).rangesOk = true ∧ may q ∧ q.rangesOk = false ∧ (s q).dev.complDue 1 = false ∧ (s (o 5)).dev.rd (Reg.STG_BE_AVAILABLE 0) < 2) ∧
    ((s h).dev.clk.tide < 0 + h.req.timeout ∧ 0 + h.req.timeout ≤ (s h 1000000).dev.clk.tide ∧ h.plan.head?.map (·.no) = some 5 ∧ (s h).dev.complDue 1 = false) ∧
    ((s h).dev.clk.tide < 0 + h.req.bound ∧ 0 + h.req.bound ≤ (s h 512).dev.clk.tide ∧ h.envFail = false ∧ h.slack = false) ∧
    ((∀ p ∈ (s h).dev.ops, p ≠ h → p.req.kind ≠ 6) ∧ 131073 / 131072 + 2 ≤ 3 ∧ atomicPieces 512 3 0 131073 = [(0, 130560), (130560, 513)]) := by
  refine ⟨?_, ?_, ?_, ?_, ?_⟩ <;> decide +kernel

/-- An entry of Reef in HBM (R279): its 64 bytes hold the key, the actions and the flags. -/
theorem test_reef_entry :
    let e : REntry := { key := [1, 2, 3, 4, 5, 6, 7, 8], act0 := 5, act1 := 6 }
    e.image.length = 64 ∧ e.words.getD 7 0 = 2 ^ 63 + 8 * 2 ^ 55 ∧ entryOf e.image = some e := by decide +kernel

end Sys2Proof.Tests
end

section
/-! Proofs: what divisions, compares and predicate operations compute, and the time left until a short time (chapter 07, R210). -/

namespace Sys2Proof.Machine

open Sys2Proof

/-! Two's complement fields as bit vectors -/

theorem sgn_eq_toInt (w v : Nat) : sgn w v = (BitVec.ofNat w v).toInt := by
  have half : v % 2 ^ w < 2 ^ (w - 1) ↔ 2 * (v % 2 ^ w) < 2 ^ w := by
    cases w with
    | zero => simp [Nat.mod_one]
    | succ n => rw [Nat.add_sub_cancel, Nat.pow_succ 2 n]; omega
  rw [BitVec.toInt_eq_toNat_cond, BitVec.toNat_ofNat]
  simp only [sgn, half]

theorem ofNat_wrap (w : Nat) (x : Int) : BitVec.ofNat w (wrap w x) = BitVec.ofInt w x :=
  BitVec.eq_of_toNat_eq (by rw [wrap, ← BitVec.toNat_ofInt, BitVec.ofNat_toNat, BitVec.setWidth_eq])

/-- The signed 32-bit difference of two short times is their difference as bit vectors (R16). -/
theorem shortDiff_eq_toInt (a b : Nat) : shortDiff a b = (BitVec.ofNat 32 a - BitVec.ofNat 32 b).toInt := by
  have diff : BitVec.ofInt 32 ((a : Int) - b) = BitVec.ofNat 32 a - BitVec.ofNat 32 b :=
    BitVec.eq_of_toInt_eq (by simp [BitVec.toInt_ofNat'])
  rw [shortDiff, sgn_eq_toInt, ofNat_wrap, diff]

theorem sgn_toNat_eq_low (v : Word) : sgn 32 v.toNat = (Low v).toInt := by
  rw [sgn_eq_toInt, BitVec.ofNat_toNat, Low]

/-- The time left until the short time in a register's low half, from TIDE_SHORT (R15, R16). -/
theorem timeLeft_eq_toInt (v : Word) (d : Dev) :
    shortDiff (v.toNat % 2 ^ 32) d.short = (Low v - BitVec.ofNat 32 d.clk.tide).toInt := by
  have mod32 : ∀ n : Nat, BitVec.ofNat 32 (n % 2 ^ 32) = BitVec.ofNat 32 n := fun n => BitVec.eq_of_toNat_eq (by simp)
  rw [shortDiff_eq_toInt, Dev.short, mod32, mod32, BitVec.ofNat_toNat, Low]

/-! Division (R178) -/

theorem sdivAt_eq_tdiv {n : Nat} (a b : BitVec n) :
    sdivAt a b = if b = 0 then BitVec.allOnes n else BitVec.ofInt n (a.toInt.tdiv b.toInt) := by
  have quot : a.sdiv b = BitVec.ofInt n (a.toInt.tdiv b.toInt) :=
    BitVec.eq_of_toInt_eq (by rw [BitVec.toInt_sdiv, BitVec.toInt_ofInt])
  rw [sdivAt, quot]

theorem udivAt_eq_div {n : Nat} (a b : BitVec n) :
    udivAt a b = if b = 0 then BitVec.allOnes n else BitVec.ofNat n (a.toNat / b.toNat) := by
  rw [udivAt, BitVec.udiv_def]

theorem sremAt_eq_tmod {n : Nat} (a b : BitVec n) :
    sremAt a b = if b = 0 then a else BitVec.ofInt n (a.toInt.tmod b.toInt) := by
  rw [sremAt, ← BitVec.toInt_srem, BitVec.ofInt_toInt]

theorem uremAt_eq_mod {n : Nat} (a b : BitVec n) :
    uremAt a b = if b = 0 then a else BitVec.ofNat n (a.toNat % b.toNat) := by
  rw [uremAt, BitVec.umod_def]

/-- A multiply or divide writes D with its value of A and B. -/
theorem writes_mul {c : Instr} {i : Issue} {o : MulOp} {w : Bool} {d a b : BitVec 5} {v : Thread → Word}
    (hc : c.issued = some (i, .mul o w d a b)) (hv : ∀ x : Thread, mulValue o w (x.reg a) (x.reg b) = v x) : Writes c d v := by
  obtain rfl : (fun x : Thread => mulValue o w (x.reg a) (x.reg b)) = v := funext hv
  exact writes_of c i _ d _ hc (fun _ _ => rfl) (fun _ _ _ => rfl)

/-! A divide's result is that at 64 bits, or in its W form that at 32 bits, sign-extended (Table 7.4). -/

theorem mulValue_div (w : Bool) (y z : Word) :
    mulValue .div w y z = if w then (sdivAt (Low y) (Low z)).signExtend 64 else sdivAt y z := by cases w <;> rfl
theorem mulValue_divu (w : Bool) (y z : Word) :
    mulValue .divu w y z = if w then (udivAt (Low y) (Low z)).signExtend 64 else udivAt y z := by cases w <;> rfl
theorem mulValue_rem (w : Bool) (y z : Word) :
    mulValue .rem w y z = if w then (sremAt (Low y) (Low z)).signExtend 64 else sremAt y z := by cases w <;> rfl
theorem mulValue_remu (w : Bool) (y z : Word) :
    mulValue .remu w y z = if w then (uremAt (Low y) (Low z)).signExtend 64 else uremAt y z := by cases w <;> rfl

/-! Predicates (R180, R181) -/

/-- A compare's outcome is what its condition says (Table 7.5). -/
theorem cmpValue_iff (cc : CmpCond) (y z : Word) : cmpValue cc y z = true ↔ CondHolds cc y z := by
  cases cc with
  | eq | ne | any | none => simp [cmpValue, CondHolds]
  | lt => exact BitVec.slt_iff_toInt_lt
  | ltu => exact BitVec.ult_iff_toNat_lt
  | ge => simp [cmpValue, CondHolds, BitVec.slt_eq_decide]
  | geu => simp [cmpValue, CondHolds, BitVec.ult_eq_decide]

/-- PLOG writes PD with its value of PA and PB. -/
theorem decides_plog {c : Instr} {i : Issue} {o : PlogOp} {p a b : BitVec 3} {v : Thread → Bool}
    (hc : c.issued = some (i, .plog o p a b)) (hv : ∀ x : Thread, plogValue o (x.pred a) (x.pred b) = v x) : Decides c p v := by
  obtain rfl : (fun x : Thread => plogValue o (x.pred a) (x.pred b)) = v := funext hv
  exact decides_of c i _ p _ hc (fun _ _ => rfl) (fun _ _ _ => rfl)

/-! Decoding PLOG (R181) -/

theorem plogNum_of_plogOf {n : Nat} {o : PlogOp} (h : plogOf n = some o) : n = plogNum o := by
  unfold plogOf at h
  split at h <;> cases h <;> rfl

theorem plogNum_lt (o : PlogOp) : plogNum o < 6 := by cases o <;> decide

/-- FN 6 and 7 name no operation. -/
theorem plogOf_eq_none {n : Nat} (h : 6 ≤ n) : plogOf n = none := by
  cases ho : plogOf n with
  | none => rfl
  | some o =>
    have hn := plogNum_of_plogOf ho
    have hlt := plogNum_lt o
    omega

theorem onlyIf_eq_some {b : Bool} {op x : LimOp} : onlyIf b op = some x ↔ b = true ∧ op = x := by cases b <;> simp [onlyIf]

/-- A word of PLOG's opcode decodes where its FN names an operation and bits [12:3] are 0. -/
theorem decodeOp_plog {w : Nat} (h : w / 2 ^ 22 % 64 = 0x0C) :
    decodeOp w = (plogOf (w % 8)).bind fun o => onlyIf (wordField w 3 10 == 0)
      (.plog o (BitVec.ofNat 3 (wordField w 19 3)) (BitVec.ofNat 3 (wordField w 16 3)) (BitVec.ofNat 3 (wordField w 13 3))) := by
  have hop : wordField w 22 6 = 0x0C := h
  have hfn : wordField w 0 3 = w % 8 := by simp [wordField]
  simp only [decodeOp, hop, decodeC, hfn]
  cases plogOf (w % 8) <;> rfl

theorem limoonDecode_eq_some {w : Nat} {n : Bool} {p : BitVec 3} {op : LimOp} (h : limoonDecode w = some (n, p, op)) :
    decodeOp w = some op := by
  unfold limoonDecode at h
  cases hop : decodeOp w with
  | none => simp [hop] at h
  | some o => simp only [hop, Option.some.injEq, Prod.mk.injEq] at h; obtain ⟨_, _, rfl⟩ := h; rfl

theorem limoonDecode_plog_none {w : Nat} (h : w / 2 ^ 22 % 64 = 0x0C) (hfn : 6 ≤ w % 8) : limoonDecode w = none := by
  have hop : decodeOp w = none := by rw [decodeOp_plog h, plogOf_eq_none hfn]; rfl
  rw [limoonDecode, hop]

theorem limoonDecode_plog_fn {w : Nat} {n : Bool} {p : BitVec 3} {o : PlogOp} {pd pa pb : BitVec 3} (h : w / 2 ^ 22 % 64 = 0x0C)
    (hd : limoonDecode w = some (n, p, .plog o pd pa pb)) : w % 8 = plogNum o := by
  have hop := limoonDecode_eq_some hd
  rw [decodeOp_plog h, Option.bind_eq_some_iff] at hop
  obtain ⟨_, hfn, hop⟩ := hop
  obtain ⟨_, heq⟩ := onlyIf_eq_some.mp hop
  cases heq
  exact plogNum_of_plogOf hfn

/-- PLOG.MOV with PB other than p0 is illegal. -/
theorem plog_mov_illegal (pd pa : BitVec 3) {pb : BitVec 3} (h : pb ≠ 0) : limLegal (.plog .mov pd pa pb) = false := by
  simpa [limLegal] using h

/-- Words that meet the hypotheses on PLOG's encodings: PLOG.ANDN p3, p0, p0, FN 6, and PLOG.MOV with PB 5. -/
theorem wit_plog_words :
    (0x03180003 / 2 ^ 22 % 64 = 0x0C ∧ limoonDecode 0x03180003 = some (false, 0, .plog .andn 3 0 0)) ∧
    (0x03000006 / 2 ^ 22 % 64 = 0x0C ∧ 6 ≤ 0x03000006 % 8) ∧
    (0x0300A005 / 2 ^ 22 % 64 = 0x0C ∧ limoonDecode 0x0300A005 = some (false, 0, .plog .mov 0 0 5)) := by decide +kernel

/-! The settled statements -/

/-- Settles O1: each divide writes D with its value at its width, which is the one of R178 by the lemmas on division. -/
theorem divide : Obligations.Divide := by
  refine ⟨?_, ?_, ?_, ?_⟩ <;> intro i w d a b
  · exact writes_mul rfl fun x => by simp only [mulValue_div, sdivAt_eq_tdiv]
  · exact writes_mul rfl fun x => by simp only [mulValue_divu, udivAt_eq_div]
  · exact writes_mul rfl fun x => by simp only [mulValue_rem, sremAt_eq_tmod]
  · exact writes_mul rfl fun x => by simp only [mulValue_remu, uremAt_eq_mod]

/-- Settles O3: what PLOG writes, by its operation, and which words decode to it, by FN. -/
theorem predicateLogic : Obligations.PredicateLogic := by
  refine ⟨fun _ _ _ _ => decides_plog rfl fun _ => rfl, fun _ _ _ _ => decides_plog rfl fun _ => rfl,
    fun _ _ _ _ => decides_plog rfl fun _ => rfl, fun _ _ _ _ => decides_plog rfl fun _ => rfl,
    fun _ _ _ _ => decides_plog rfl fun _ => rfl, fun _ _ _ => decides_plog rfl fun _ => rfl,
    fun _ => limoonDecode_plog_none, ?_, Thread.pred_zero, ?_⟩
  · intro w n p o pd pa pb h hd
    refine ⟨limoonDecode_plog_fn h hd, ?_⟩
    rintro rfl hpb
    exact plog_mov_illegal pd pa hpb
  · exact fun _ _ => decides_plog rfl fun x => by simp [plogValue]

theorem compares : Rules.Compares := by
  constructor
  · intro i cc p a b
    exact ⟨fun x => cmpValue cc (x.reg a) (x.reg b),
      decides_of _ i (.cmp cc p a b) p _ rfl (fun _ _ => rfl) (fun _ _ _ => rfl), fun x => cmpValue_iff cc _ _⟩
  · intro i cc p a imm
    exact ⟨fun x => cmpValue cc (x.reg a) (imm.signExtend 64),
      decides_of _ i (.cmpi cc p a imm) p _ rfl (fun _ _ => rfl) (fun _ _ _ => rfl), fun x => cmpValue_iff cc _ _⟩

/-- DLCHK and DLLEFT read the time left at the device in which they issue (R210). -/
theorem timeLeft : Rules.TimeLeft := by
  constructor
  · intro i p a b
    refine performs_of _ i (.dlchk p a b) _ rfl fun s _ => ⟨_, rfl, _, (putP_counted s i.th.toNat p _).1,
      (putP_counted s i.th.toNat p _).2, ?_⟩
    rw [decide_eq_true_iff, sgn_toNat_eq_low, timeLeft_eq_toInt, Dev.thr_counted]
    rfl
  · intro i d a
    refine performs_of _ i (.dlleft d a) _ rfl fun s _ => ⟨_, rfl, ?_⟩
    rw [timeLeft_eq_toInt, Dev.thr_counted]
    exact put1_counted s i.th.toNat d _

/-- Settles O4: its two rules. -/
theorem comparesAndTimeLeft : Obligations.ComparesAndTimeLeft := ⟨compares, timeLeft⟩

end Sys2Proof.Machine
end
